-- ==== Sys2Proof/Word.lean ====
section
/-! DEFINITION. The word types of the block (spec 00, Notation) and the plainest helpers over them: fixed-size
tables, sparse tables keyed by a number, saturating counters. Nothing here is specific to one chapter. -/

namespace Sys2Proof

/-- An 8-bit byte. -/
abbrev Byte := BitVec 8
/-- A 16-bit halfword. -/
abbrev Half := BitVec 16
/-- A 32-bit word: a register of the block, a W register, a telegram word. -/
abbrev Word := BitVec 32
/-- A 64-bit word: timebase A. -/
abbrev DWord := BitVec 64

/-- A table of `n` like things, kept as a plain vector. -/
abbrev Tab (α : Type) (n : Nat) := Vector α n

/-- A table with the same entry everywhere. -/
def Tab.fill {α : Type} (n : Nat) (x : α) : Tab α n := Vector.replicate n x

/-- Rewrites one entry of a table. -/
def Tab.upd {α : Type} {n : Nat} (t : Tab α n) (i : Fin n) (f : α → α) : Tab α n := t.set i (f t[i])

/-- Rewrites every entry of a table. -/
def Tab.map {α β : Type} {n : Nat} (f : α → β) (t : Tab α n) : Tab β n :=
  ⟨⟨t.toList.map f⟩, by simp⟩

/-- The table whose entry at `i` is `f i`. -/
def Tab.gen {α : Type} (n : Nat) (f : Fin n → α) : Tab α n :=
  ⟨⟨(List.finRange n).map f⟩, by simp⟩

/-- Every entry satisfies `f`. -/
def Tab.all {α : Type} {n : Nat} (t : Tab α n) (f : α → Bool) : Bool := t.toList.all f

/-- Some entry satisfies `f`. -/
def Tab.any {α : Type} {n : Nat} (t : Tab α n) (f : α → Bool) : Bool := t.toList.any f

/-- Entry at a number, or `d` where the number is past the end. -/
def Tab.getN {α : Type} {n : Nat} (t : Tab α n) (i : Nat) (d : α) : α := t.toList.getD i d

/-- A sparse table keyed by a number, in one canonical form: keys strictly rising, and no entry equal to the
value `d` that an unlisted key has. -/
abbrev Sparse (α : Type) := List (Nat × α)

namespace Sparse

/-- What key `k` holds; `d` is what an unlisted key holds. -/
def get {α : Type} (d : α) : Sparse α → Nat → α
  | [], _ => d
  | (j, x) :: m, k => if j = k then x else if k < j then d else get d m k

/-- Writes `x` at key `k`, keeping the canonical form: writing `d` removes the entry. -/
def put {α : Type} [DecidableEq α] (d : α) : Sparse α → Nat → α → Sparse α
  | [], k, x => if x = d then [] else [(k, x)]
  | (j, y) :: m, k, x =>
    if j = k then (if x = d then m else (k, x) :: m)
    else if k < j then (if x = d then (j, y) :: m else (k, x) :: (j, y) :: m)
    else (j, y) :: put d m k x

/-- The keys rise strictly, all above `lo`, and no entry is `d`. -/
def wfFrom {α : Type} [DecidableEq α] (d : α) : Nat → Sparse α → Bool
  | _, [] => true
  | lo, (j, x) :: m => decide (lo ≤ j) && decide (x ≠ d) && wfFrom d (j + 1) m

/-- The canonical form. -/
def wf {α : Type} [DecidableEq α] (d : α) (m : Sparse α) : Bool := wfFrom d 0 m

end Sparse

/-- One bit of a vector, by number. -/
def bit {n : Nat} (w : BitVec n) (i : Nat) : Bool := w.getLsbD i

/-- `w` with bit `i` set to `b`. -/
def setBit {n : Nat} (w : BitVec n) (i : Nat) (b : Bool) : BitVec n :=
  if b then w ||| (1#n <<< i) else w &&& ~~~(1#n <<< i)

/-- The field `[hi:lo]` of a word, as a number. -/
def fld (w : Word) (hi lo : Nat) : Nat := (w.toNat / 2 ^ lo) % 2 ^ (hi + 1 - lo)

/-- A word that holds the number `x` at bit `lo`. -/
def at_ (x lo : Nat) : Word := BitVec.ofNat 32 (x * 2 ^ lo)

/-- One bit as a word, at bit `lo`. -/
def flag (b : Bool) (lo : Nat) : Word := if b then at_ 1 lo else 0

/-- A counter of width `n` that saturates at its largest value. -/
def satInc {n : Nat} (x : BitVec n) : BitVec n := if x = BitVec.allOnes n then x else x + 1

/-- The bits `i < n` at which `f` holds. -/
def maskOf (n : Nat) (f : Nat → Bool) : BitVec n :=
  (List.range n).foldl (fun m i => if f i then m ||| (1#n <<< i) else m) 0

/-- The four bytes of a word, least significant first. -/
def wordBytes (w : Word) : List Byte :=
  [w.extractLsb' 0 8, w.extractLsb' 8 8, w.extractLsb' 16 8, w.extractLsb' 24 8]

/-- The word of four bytes, least significant first; missing bytes are 0. -/
def bytesWord (l : List Byte) : Word :=
  (l.getD 3 0) ++ (l.getD 2 0) ++ (l.getD 1 0) ++ (l.getD 0 0)

/-- The two bytes of a halfword, least significant first. -/
def halfBytes (w : Half) : List Byte := [w.extractLsb' 0 8, w.extractLsb' 8 8]

/-- The halfword of two bytes, least significant first. -/
def bytesHalf (l : List Byte) : Half := (l.getD 1 0) ++ (l.getD 0 0)

/-- Groups a list of bytes into words, least significant byte first, a last short group filled with 0. -/
def bytesWords : List Byte → List Word
  | [] => []
  | a :: b :: c :: d :: t => bytesWord [a, b, c, d] :: bytesWords t
  | l => [bytesWord l]

/-- Appends to a queue that holds at most `n`; the oldest entries stay. -/
def pushCap {α : Type} (n : Nat) (l : List α) (x : α) : List α := if l.length < n then l ++ [x] else l

/-- Puts in front of a list that keeps its newest `n` entries. -/
def consCap {α : Type} (n : Nat) (x : α) (l : List α) : List α := (x :: l).take n

end Sys2Proof
end

