-- ==== Sys2Proof/Syntax.lean ====
section
/-! DEFINITION. The commands of the block: one constructor of `Instr` per row of spec/opcode_table.json, in the table's
order, with the operands that the spec gives the row. A row that the spec times carries what the outside observes at that
moment; a row of TSL-32 carries the engine that executes it and the fields of its encoding. -/

namespace Sys2Proof

/-- Where a register write or a request comes from (R440, R451). -/
inductive Src where
  | host
  | eth
  | can
  | engine (e : Fin 24)
  | dma
  deriving DecidableEq, Repr

/-- Error states of a CAN controller (R446, R452). -/
inductive CanErr where
  | active | passive | busOff
  deriving DecidableEq, Repr

/-- A CAN frame (R446). -/
structure CanFrame where
  /-- 29-bit identifier format. -/
  ext : Bool := false
  /-- Identifier. -/
  id : BitVec 29 := 0
  /-- FD frame. -/
  fd : Bool := false
  /-- Bit rate switch. -/
  brs : Bool := false
  /-- Remote frame, which the controller ignores. -/
  rtr : Bool := false
  /-- Up to 64 data bytes. -/
  data : List Byte := []
  deriving DecidableEq, Repr

/-- What a carrier port receives in a flag symbol: energy of each tone over the 640 µs window, and in the gap symbol before (R338). -/
structure ToneEnergy where
  /-- Tones 0-31 in the flag symbol, in any one unit. -/
  flag : List Nat := []
  /-- Tones 0-31 in the preceding gap symbol. -/
  gap : List Nat := []
  deriving DecidableEq, Repr

/-- A UDP datagram (R445). -/
structure Datagram where
  /-- IPv4 address of the peer. -/
  ip : Word := 0
  /-- UDP port of the peer. -/
  port : Half := 0
  /-- UDP port of the device. -/
  own : Half := 0
  /-- Payload. -/
  data : List Byte := []
  /-- The datagram arrives in fragments (Table 11-9). -/
  frag : Bool := false
  deriving DecidableEq, Repr

/-- A request as it arrives on a path, without its command byte (R434, Table 17-1). -/
structure Frame where
  /-- Byte 1. -/
  seq : Byte
  /-- Bytes 2-4. -/
  addr : BitVec 24
  /-- Byte 5. -/
  count : Byte
  /-- Bytes 6-7. -/
  pad : Half
  /-- Payload bytes. -/
  payload : List Byte
  /-- CRC-32C as received. -/
  crc : Word
  deriving DecidableEq, Repr

/-- Bits that a disturbance inverts in one value of one pass (R130, R136): the lane and its field, by their order in Table 5-3. -/
structure Upset where
  /-- Lane 1-6. -/
  lane : Nat
  /-- Field of the lane, from 0. -/
  field : Nat
  /-- Inverted bits. -/
  mask : Word
  deriving DecidableEq, Repr

/-- One engine executing one instruction: which engine, the steps its arbitration costs beyond the least (R97), and a
disturbance, which reaches one pass at most (05, after R121). -/
structure Issue where
  /-- Owner code of the engine or hart. -/
  eng : Fin 24
  /-- Extra steps within the range of the instruction. -/
  extra : Nat := 0
  /-- The values that the disturbance changes. -/
  dis : List Upset := []
  /-- The disturbance meets the knit pass; otherwise the purl pass. -/
  inKnit : Bool := false
  /-- R72: what the check bits of the fetched word show: `some false` a corrected bit, `some true` a word not correctable. -/
  eccF : Option Bool := none
  /-- R72: the same of the word that a load, or the read of STH and STB, reads. -/
  eccL : Option Bool := none
  /-- R288: both checkers of the session unit give the same result on the command that an OUT of class 0x7 carries. -/
  csl : Bool := true
  deriving DecidableEq, Repr

/-- Work of a unit that is built twice: what it is done for, and whether both implementations give the same result (R288, R353). -/
structure Checked (α : Type) where
  /-- The session, port or channel. -/
  what : α
  /-- Both give the same result. -/
  agree : Bool
  deriving DecidableEq, Repr

/-- A W register number. -/
abbrev WReg := Fin 32
/-- A predicate number. -/
abbrev PReg := Fin 64

/-- The two channels, where a row names one (R189). -/
inductive Chan where
  | a | b
  deriving DecidableEq, Repr

/-- What the pulses of one programming sequence leave behind, by bit position (R388, R390): bits of `blank` still read 0
at normal margin, bits of `weak` read 1 at normal and 0 at tight margin, every other bit reads 1 at both. For a tap bit
the positions 0-2 stand for its copies and 3 for its mirror bit. -/
structure PulseEnv where
  /-- Still 0 at normal margin. -/
  blank : Word := 0
  /-- Left WEAK. -/
  weak : Word := 0
  deriving DecidableEq, Repr

/-- What a gauge test measures on a channel (R276), in nA: how far each converter result lies from its expected code, and how far
from LO and HI each comparator switches, `none` where it does not switch. -/
structure GaugeMeas where
  /-- The 4.000 mA point. -/
  d4 : Int := 0
  /-- The 20.000 mA point. -/
  d20 : Int := 0
  /-- LO of comparators 0 and 1. -/
  lo : Option Int × Option Int := (some 0, some 0)
  /-- HI of comparators 0 and 1. -/
  hi : Option Int × Option Int := (some 0, some 0)
  deriving DecidableEq, Repr

/-- What a wake meets on its way (R470, R471). -/
structure WakeEnv where
  /-- n of R471: CK-32K periods counted in DORMANT. -/
  periods : Nat
  /-- The PLL locks and the fixed rails are at their level. -/
  clocksOk : Bool
  /-- R177, R179: the stored configuration reads back. -/
  storeOk : Bool
  /-- R276: what the gauge test measures on each channel, ALP0 first; a channel beyond the list deviates nowhere. -/
  gauge : List GaugeMeas := []
  /-- R468: words of retained memories that DORMANT has changed: engine, address, what the word now reads. -/
  upset : List (Fin 24 × Nat × Word) := []
  /-- R470: cause codes of further sources that come in the same CK-32K period. -/
  also : List (BitVec 3) := []
  /-- R50: the source is active no more: the level of the pin or line ends, or CK-32K runs again. -/
  ends : Bool := false
  deriving DecidableEq, Repr

/-- What a re-evaluation meets on its way (R52). -/
structure ReevalEnv where
  /-- R137: what the swatch finds: failed runs as (core, lane, bit); empty where every run passes. -/
  swatch : List (Fin 4 × Fin 7 × Byte) := []
  /-- R177: the stored configuration of channel B reads back. -/
  storeOk : Bool := true
  deriving DecidableEq, Repr

/-- A query that the network stack answers itself (R445). -/
inductive NetQuery where
  /-- An ARP request for an address. -/
  | arp (target : Word)
  /-- An ICMP echo request to an address, with its data. -/
  | echo (target : Word) (data : List Byte)
  deriving DecidableEq, Repr

/-- What the cast-on meets on its way, where the spec leaves it to the silicon or the outside: each field is a stage of
Table 2-2 that may fail for a physical reason. -/
structure CastEnv where
  /-- R41: WIPE reads every word back as the cleared value. -/
  wipeOk : Bool
  /-- R137: what the swatch finds: failed runs as (core, lane, bit); empty where every run passes. -/
  swatch : List (Fin 4 × Fin 7 × Byte)
  /-- R176: the vector test of channel B reaches its fixed signature, on each of the two loads of PATTERN. -/
  vectorOk : Bool × Bool
  /-- R176: the stored configuration reads back, on each of the two loads of PATTERN. -/
  storeOk : Bool × Bool
  /-- R436: a sample of the jitter sampler of PD-AON, used at a power-on. -/
  jitter : BitVec 24
  /-- R388: die temperature in °C. -/
  temp : Int
  /-- R388: what pulses given on the way leave behind. -/
  pulse : PulseEnv
  /-- R276: what the gauge test of this power-up measures on each channel, ALP0 first; a channel beyond the list deviates nowhere. -/
  gauge : List GaugeMeas := []
  /-- R425: kinds of settings records whose newest copy reads with a failing CRC-32C at LOAD. -/
  spoiled : List Byte := []
  /-- R386: fuse words that read differently from before: word address, normal and tight read. -/
  drift : List (Nat × Word × Word)
  /-- R40, R513: the STAGE code of a stage that does not end, as where the flash does not answer. -/
  stuck : Option Nat := none
  /-- R86: traps of the boot core on the way: the STAGE code and, in LOAD, the area that it tries, 3 where none is selected yet;
  in PATTERN, the load of the pattern, 0 or 1; in CROSS, a trap comes as it starts. -/
  traps : List (Nat × Nat) := []
  deriving DecidableEq, Repr

/-- What channel B latches at clock 0 of a B cycle from outside the module (R146). -/
structure BInputs where
  /-- Ticks of timebase A that have passed since the previous B cycle. -/
  ticks : Half
  /-- Code that fault line A carries on its wire pair where the wires are disturbed; `none` where they carry what the
  processor die drives. -/
  lineA : Option Nat
  /-- R166, R178: a cell's state or the history fails its parity. -/
  parity : Bool
  /-- R230: outputs whose current limiter is active. -/
  limit : Half
  /-- R231: outputs of which a junction reads 150 °C or more. -/
  hot : Half
  /-- R52: what a re-evaluation meets, should this cycle start one. -/
  reeval : ReevalEnv
  /-- R288: the two checkers of the session unit agree on the telegrams it takes from the host-link receive queue. -/
  cslAgree : Bool := true
  deriving DecidableEq, Repr

/-- The commands of the block. -/
inductive Instr where
  /-- POWER_GOOD, R459. -/
  | powerGood (env : CastEnv)
  /-- POWER_GOOD_LOSS, R459. -/
  | powerGoodLoss
  /-- AON_LOSS, R460. -/
  | aonLoss
  /-- VLOGIC_HIGH, R460. -/
  | vlogicHigh (high : Bool)
  /-- XTAL_READY, R459. -/
  | xtalReady (env : CastEnv)
  /-- CLOCK_FAIL, R463. -/
  | clockFail (xtal : Bool)
  /-- RESET_N_ASSERT, R479. -/
  | resetNAssert
  /-- RESET_N_RELEASE, R479. -/
  | resetNRelease
  /-- CASTON_TIMEOUT, R40. -/
  | castonTimeout
  /-- START, R48. -/
  | start (key : Half)
  /-- HOLD, R49. -/
  | hold (key : Half)
  /-- SERVICE_ENTER, R47. -/
  | serviceEnter (key : Half)
  /-- SERVICE_EXIT, R47. -/
  | serviceExit (key : Half) (env : ReevalEnv)
  /-- SLEEP, R50. -/
  | sleep (key : Half)
  /-- DEV_RELEASE, R51. -/
  | devRelease (key : Half) (env : ReevalEnv)
  /-- RESET, R53. -/
  | reset (key : Half)
  /-- UNDEFINED_CMD, R47. -/
  | undefinedCmd (key : Half) (cmd : Byte)
  /-- CROSS_LATE, R52. -/
  | crossLate
  /-- DORMANT_ENTRY, R467. -/
  | dormantEntry
  /-- WAKE_PIN, R469. -/
  | wakePin (w : WakeEnv)
  /-- WAKE_TIMER, R469. -/
  | wakeTimer (w : WakeEnv)
  /-- CAN_WAKE, R469. -/
  | canWake (w : WakeEnv)
  /-- K32_LOST, R469. -/
  | k32Lost (w : WakeEnv)
  /-- COMMIT_EDGE, R415. -/
  | commitEdge (w : WakeEnv)
  /-- COMMIT_RETRY, R60. -/
  | commitRetry (p : PulseEnv)
  /-- SEAL_READ, R412. -/
  | sealRead (v : BitVec 12)
  /-- COMMISSION_ARM, R413. -/
  | commissionArm (src : Src) (key : Half)
  /-- COMMISSION_CANCEL, R414. -/
  | commissionCancel (src : Src) (key : Half)
  /-- COMMISSION_ARM_EXPIRY, R414. -/
  | commissionArmExpiry
  /-- LEASE_CLAIM, R422. -/
  | leaseClaim (src : Src) (key : Half)
  /-- LEASE_RELEASE, R423. -/
  | leaseRelease (src : Src) (key : Half)
  /-- LEASE_TIMEOUT, R423. -/
  | leaseTimeout
  /-- BEGIN, R424. -/
  | updBegin (src : Src) (key : Half) (target : BitVec 2)
  /-- ERASE_DONE, R424. -/
  | eraseDone
  /-- WINDOW_WRITE, R424. -/
  | windowWrite (src : Src) (words : List Word)
  /-- VERIFY, R424. -/
  | verify (src : Src) (key : Half)
  /-- ACTIVATE, R424. -/
  | activate (src : Src) (key : Half) (p : PulseEnv)
  /-- ABORT, R424. -/
  | abort (src : Src) (key : Half)
  /-- CONFIRM_HEALTH, R419. -/
  | confirmHealth (src : Src) (key : Half) (p : PulseEnv)
  /-- LIFECYCLE, R428. -/
  | lifecycle (src : Src) (key : Half) (p : PulseEnv)
  /-- TRIAL_EXPIRY, R420. -/
  | trialExpiry
  /-- SETTINGS_COMMIT, R447. -/
  | settingsCommit (key : Half)
  /-- SETTINGS_COMMIT_DONE, R447. -/
  | settingsCommitDone
  /-- READ, R439. -/
  | readFrame (f : Frame)
  /-- WRITE, R439. -/
  | writeFrame (f : Frame)
  /-- STATUS, R434. -/
  | statusFrame (f : Frame)
  /-- LEASE, R434. -/
  | leaseFrame (f : Frame)
  /-- UNKNOWN_FRAME, R437. -/
  | unknownFrame (cmd : Byte) (f : Frame)
  /-- TRANSACTION_ABORT, R433. -/
  | transactionAbort (req : Option (Byte × Frame))
  /-- REGISTER_WRITE, R439. -/
  | registerWrite (src : Src) (addr : BitVec 24) (v : Word)
  /-- MBX_WRITE, R449. -/
  | mbxWrite (n : Fin 32) (v : Word)
  /-- EVT_PEND_CLEAR, R454. -/
  | evtPendClear (k : Fin 4) (mask : Word)
  /-- HL_TX_READ, R315. -/
  | hlTxRead
  /-- HL_RX_WRITE, R315. -/
  | hlRxWrite (head : Word) (words : List Word)
  /-- ETH_DATAGRAM_RX, R445. -/
  | ethDatagramRx (n : Fin 2) (d : Datagram) (agree : Bool)
  /-- CAN_FRAME_RX, R446. -/
  | canFrameRx (n : Fin 2) (f : CanFrame) (agree : Bool)
  /-- ETH_LINK_CHANGE, R452. -/
  | ethLinkChange (n : Fin 2) (up : Bool)
  /-- CAN_ERROR_STATE, R452. -/
  | canErrorState (n : Fin 2) (e : CanErr)
  /-- CAN_BUS_OFF_RECOVERY, R446. -/
  | canBusOffRecovery (n : Fin 2)
  /-- FRAME_SEND, R448. -/
  | frameSend (eth : Bool) (n : Fin 2)
  /-- FRAME_POP, R448. -/
  | framePop (eth : Bool) (n : Fin 2)
  /-- OPEN_RESEND, R299. -/
  | openResend (x : Checked (Fin 256))
  /-- TIMEOUT, R297. -/
  | timeout (x : Checked (Fin 256))
  /-- QUARANTINE_END, R302. -/
  | quarantineEnd (x : Checked (Fin 256))
  /-- CSL_HOUR_ROLL, R306. -/
  | cslHourRoll
  /-- OPEN, R304. -/
  | openSess (x : Checked (Fin 256))
  /-- CLOSE, R304. -/
  | closeSess (x : Checked (Fin 256))
  /-- RESTART, R305. -/
  | restart (x : Checked (Fin 256))
  /-- ROW_BUILD, R325. -/
  | rowBuild (x : Checked (Fin 4))
  /-- ROW_SLOT, R324. -/
  | rowSlot (x : Checked (Fin 4)) (level : Byte) (urgent : ToneEnergy)
  /-- QUERY_ROUND_END, R339. -/
  | queryRoundEnd (p : Fin 4) (flags : List ToneEnergy)
  /-- POLL_SLOT_END, R337. -/
  | pollSlotEnd (p : Fin 4)
  /-- REPORT, R337. -/
  | report (p : Fin 4) (head : Word) (body : List Byte) (crc : Half) (snr : Byte)
  /-- PAIR_ACK, R333. -/
  | pairAck (p : Fin 4) (head : Word) (body : List Byte) (crc : Half)
  /-- TX_ENABLE_CHANGE, R328. -/
  | txEnableChange (p : Fin 4) (inFrame : Bool)
  /-- CSC_TX_STUCK, R344. -/
  | cscTxStuck (p : Fin 4)
  /-- CSC_START, R328. -/
  | cscStart (p : Fin 4)
  /-- CSC_STOP, R330. -/
  | cscStop (p : Fin 4)
  /-- PAIR, R333. -/
  | pair (p : Fin 4) (a : BitVec 10)
  /-- UNPAIR, R334. -/
  | unpair (p : Fin 4) (a : BitVec 10)
  /-- POLL, R337. -/
  | poll (p : Fin 4) (a : BitVec 10)
  /-- B_CYCLE, R146. -/
  | bCycle (b : BInputs)
  /-- SCAN_RECORD, R167. -/
  | scanRecord (words : List Word)
  /-- TIMEBASE_EXCHANGE, R171. -/
  | timebaseExchange
  /-- TB_LOST, R171. -/
  | tbLost
  /-- RECORD_MISSING, R168. -/
  | recordMissing (core : Fin 4)
  /-- LINE_B, R163. -/
  | lineB
  /-- OFF_PULSE_REQUEST, R157. -/
  | offPulseRequest (k : Fin 16) (width : Nat)
  /-- PATTERN_READBACK, R178. -/
  | patternReadback (ok : Bool)
  /-- REPORT_QUEUE_DRAIN, R180. -/
  | reportQueueDrain
  /-- INPUT_EDGE, R183. -/
  | inputEdge (n : Fin 32) (level : Bool)
  /-- SAMPLE_POINT, R184. -/
  | samplePoint (n : Fin 32) (level : Bool) (settle : Nat)
  /-- SETTLE_GAP, R187. -/
  | settleGap (n : Fin 32) (settle : Nat)
  /-- FILTER_ELAPSED, R189. -/
  | filterElapsed (ch : Chan) (n : Fin 32)
  /-- DISCREPANCY_TIMEOUT, R195. -/
  | discrepancyTimeout (k : Fin 16)
  /-- GUARD_DELAY_END, R196. -/
  | guardDelayEnd (k : Fin 16)
  /-- BAND_WAIT_END, R197. -/
  | bandWaitEnd (k : Fin 16)
  /-- CLEAR_DECISION, R198. -/
  | clearDecision (k : Fin 16)
  /-- RELEASE_STUCK, R151. -/
  | releaseStuck (ch : Chan) (r : Fin 8)
  /-- RECOVER_END, R151. -/
  | recoverEnd (ch : Chan) (r : Fin 8)
  /-- TEST_PULSE_END, R199. -/
  | testPulseEnd (j : Fin 8)
  /-- TEST_MASK_END, R200. -/
  | testMaskEnd (j : Fin 8)
  /-- TP_READBACK_EDGE, R201. -/
  | tpReadbackEdge (j : Fin 8) (level : Bool)
  /-- TP_SOURCE, R202. -/
  | tpSource (j : Fin 8)
  /-- CNT_EDGE, R209. -/
  | cntEdge (n : Fin 4)
  /-- WINDOW_FILTER_ELAPSED, R153. -/
  | windowFilterElapsed (w : Fin 16)
  /-- DELAY_ELAPSED, R154. -/
  | delayElapsed (l : Fin 128)
  /-- OFF_PULSE_END, R224. -/
  | offPulseEnd (k : Fin 16)
  /-- READBACK_EDGE, R219. -/
  | readbackEdge (k : Fin 16) (level : Bool)
  /-- READBACK_DELAY_ELAPSED, R220. -/
  | readbackDelayElapsed (k : Fin 16)
  /-- LOCATE_WATCH_END, R227. -/
  | locateWatchEnd (k : Fin 16)
  /-- FEED_ISOLATION_STEP, R228. -/
  | feedIsolationStep (k : Fin 16)
  /-- OUT_LOW, R220. -/
  | outLow (k : Fin 16)
  /-- OVERLOAD, R230. -/
  | overload (k : Fin 16)
  /-- OVERTEMP, R231. -/
  | overtemp (k : Fin 16) (switchB : Bool)
  /-- FEEDBACK, R233. -/
  | feedback (k : Fin 16)
  /-- BANK_SUPPLY, R218. -/
  | bankSupply (bank : Fin 2)
  /-- BANK_SUPPLY_END, R218. -/
  | bankSupplyEnd (bank : Fin 2)
  /-- SUPPLY_PRESENT_CHANGE, R460. -/
  | supplyPresentChange (which : Fin 3) (present : Bool) (meas : BitVec 10)
  /-- HLD_REGULATOR_FAULT, R460. -/
  | hldRegulatorFault
  /-- PD_FDIG_RETURN, R516. -/
  | pdFdigReturn
  /-- PD_FAN_RETURN, R461. -/
  | pdFanReturn
  /-- TIMER_COMPARE, R250. -/
  | timerCompare (n : Fin 32)
  /-- TIMER_WRAP, R240. -/
  | timerWrap (n : Fin 32)
  /-- TIMER_TRIGGER, R252. -/
  | timerTrigger
  /-- CAPTURE, R254. -/
  | capture (n : Fin 32) (falling : Bool)
  /-- TIMER_SLIP, R259. -/
  | timerSlip (n : Fin 32)
  /-- TMR_CMD_START, R241. -/
  | tmrCmdStart (n : Fin 32)
  /-- TMR_CMD_STOP, R241. -/
  | tmrCmdStop (n : Fin 32)
  /-- TMR_CMD_SNAP, R245. -/
  | tmrCmdSnap (g : Fin 16)
  /-- TMR_CMP_WRITE, R251. -/
  | tmrCmpWrite (n : Fin 32) (v : Word)
  /-- TMR_COUNT_WRITE, R244. -/
  | tmrCountWrite (n : Fin 32) (v : Word)
  /-- ALP_CONVERSION, R265. -/
  | alpConversion (n : Fin 8) (nA : Nat)
  /-- ALP_STALE, R265. -/
  | alpStale (n : Fin 8)
  /-- GAUGE_POINT, R277. -/
  | gaugePoint (n : Fin 8) (nA : Nat)
  /-- COMPARATOR_CHANGE, R270. -/
  | comparatorChange (n : Fin 8) (nA : Nat)
  /-- SETPOINT_WRITE, R266. -/
  | setpointWrite (src : Src) (n : Fin 8) (v : Half)
  /-- SETPOINT_TIMEOUT, R266. -/
  | setpointTimeout (n : Fin 8)
  /-- COMPLIANCE_LOW, R267. -/
  | complianceLow (n : Fin 8) (room : Byte)
  /-- COMPLIANCE_END, R267. -/
  | complianceEnd (n : Fin 8) (room : Byte)
  /-- OPEN_LOOP, R268. -/
  | openLoop (n : Fin 8)
  /-- OPEN_LOOP_END, R268. -/
  | openLoopEnd (n : Fin 8)
  /-- LOOP_SHORT, R269. -/
  | loopShort (n : Fin 8)
  /-- LOOP_SHORT_CYCLE, R269. -/
  | loopShortCycle (n : Fin 8) (nA : Nat)
  /-- VAN_LOW, R283. -/
  | vanLow
  /-- VAN_LOW_END, R283. -/
  | vanLowEnd
  /-- GAUGE_TEST, R276. -/
  | gaugeTest (n : Fin 8)
  /-- GAUGE_TEST_END, R276. -/
  | gaugeTestEnd (n : Fin 8) (m : GaugeMeas)
  /-- TRIM_ARM, R278. -/
  | trimArm (n : Fin 8)
  /-- TRIM_ZERO, R278. -/
  | trimZero (n : Fin 8)
  /-- TRIM_SPAN, R278. -/
  | trimSpan (n : Fin 8)
  /-- TRIM_CLEAR, R279. -/
  | trimClear (n : Fin 8)
  /-- TRIM_OUT_ZERO, R278. -/
  | trimOutZero (n : Fin 8) (v : Half)
  /-- TRIM_OUT_SPAN, R278. -/
  | trimOutSpan (n : Fin 8) (v : Half)
  /-- ZERO_ACTIVATION, R487. -/
  | zeroActivation
  /-- SPAN_ACTIVATION, R487. -/
  | spanActivation
  /-- TRIM_AVERAGE_END, R279. -/
  | trimAverageEnd
  /-- MODEM_RX_CHAR, R281. -/
  | modemRxChar (n : Fin 8) (c : Byte) (parity : Bool) (framing : Bool)
  /-- MODEM_TX_CHAR, R281. -/
  | modemTxChar (n : Fin 8) (c : Byte)
  /-- MODEM_RX_READ, R284. -/
  | modemRxRead (n : Fin 8)
  /-- MODEM_CARRIER, R284. -/
  | modemCarrier (n : Fin 8) (on : Bool)
  /-- MODEM_FLUSH_RX, R284. -/
  | modemFlushRx (n : Fin 8)
  /-- MODEM_FLUSH_TX, R284. -/
  | modemFlushTx (n : Fin 8)
  /-- MODEM_TX_EMPTY, R285. -/
  | modemTxEmpty (n : Fin 8)
  /-- MODEM_CARRIER_DETECT, R285. -/
  | modemCarrierDetect (n : Fin 8) (cd : Bool)
  /-- CVU_VALUE_WRITE, R349. -/
  | cvuValueWrite (src : Src) (u : Fin 4) (v : Word)
  /-- CVU_CONTEXT_WRITE, R355. -/
  | cvuContextWrite (src : Src) (u : Fin 4) (which : Fin 3) (v : Word)
  /-- CVU_FEED_WRITE, R354. -/
  | cvuFeedWrite (src : Src) (u : Fin 4) (v : Word) (agree : Bool)
  /-- CVU_FOLD_CTXS, R351. -/
  | cvuFoldCtxs (src : Src) (u : Fin 4) (agree : Bool)
  /-- CVU_FOLD_CTXE, R351. -/
  | cvuFoldCtxe (src : Src) (u : Fin 4) (agree : Bool)
  /-- DMA_START, R357. -/
  | dmaStart (src : Src) (x : Checked (Fin 16))
  /-- DMA_STOP, R355. -/
  | dmaStop (src : Src) (d : Fin 16)
  /-- DMA_REQUEST, R357. -/
  | dmaRequest (d : Fin 16)
  /-- DMA_ELEMENT, R358. -/
  | dmaElement (d : Fin 16) (agree : Bool)
  /-- DMA_REG_WRITE, R356. -/
  | dmaRegWrite (src : Src) (d : Fin 16) (which : Fin 3) (v : Word)
  /-- CLEAR_ENTRY, R369. -/
  | clearEntry (i : Fin 256)
  /-- CLEAR_COUNTED, R369. -/
  | clearCounted
  /-- SWITCH_TEST, R373. -/
  | switchTest (k : Fin 16)
  /-- SWITCH_TEST_END, R373. -/
  | switchTestEnd (k : Fin 16)
  /-- DIAG_UNDEFINED_CMD, R369. -/
  | diagUndefinedCmd (cmd : BitVec 4)
  /-- LOG_ARCHIVE, R370. -/
  | logArchive
  /-- MEMORY_PASS, R371. -/
  | memoryPass (found : List (Fin 17 × Nat × Bool))
  /-- KNOWN_ANSWER, R371. -/
  | knownAnswer (core : Fin 4) (ok : Bool)
  /-- CODE_REHASH, R371. -/
  | codeRehash
  /-- FUSE_REREAD, R388. -/
  | fuseReread (drift : List (Nat × Word × Word))
  /-- CLOCK_CHECK, R463. -/
  | clockCheck (dev : Byte) (run : Bool)
  /-- SELFTEST_LATE, R371. -/
  | selftestLate (core : Option (Fin 4))
  /-- REPULSE, R37. -/
  | repulse (p : PulseEnv)
  /-- TENSION_UPDATE, R464. -/
  | tensionUpdate (rate : BitVec 9) (sensor : BitVec 3) (proc : Byte) (hld : Byte)
  /-- STEP_RATE_RAISE, R142. -/
  | stepRateRaise (core : Fin 4) (rate : BitVec 9)
  /-- OTP_READ, R391. -/
  | otpRead (src : Src) (key : Half)
  /-- PROGRAM, R390. -/
  | program (src : Src) (key : Half) (p : PulseEnv)
  /-- COMPUTE, R380. -/
  | compute (src : Src) (key : Half)
  /-- LOCK, R396. -/
  | lock (src : Src) (key : Half) (p : PulseEnv)
  /-- READ_LOCK, R398. -/
  | readLock (src : Src) (key : Half) (p : PulseEnv)
  /-- ARM_FORCE, R397. -/
  | armForce (src : Src) (key : Half)
  /-- ARM_FORCE_EXPIRY, R397. -/
  | armForceExpiry
  /-- FORCE_LOCK, R397. -/
  | forceLock (src : Src) (key : Half) (p : PulseEnv)
  /-- STICKY, R395. -/
  | sticky (src : Src) (key : Half)
  /-- SET_MODE, R394. -/
  | setMode (src : Src) (key : Half) (p : PulseEnv)
  /-- SET_POLICY, R394. -/
  | setPolicy (src : Src) (key : Half) (p : PulseEnv)
  /-- TAP_PROGRAM, R383. -/
  | tapProgram (src : Src) (key : Half) (p : PulseEnv)
  /-- OTP_COMMAND_DONE, R392. -/
  | otpCommandDone
  /-- SCAN_RELEASE, R75. -/
  | scanRelease (core : Fin 4)
  /-- TEST_CAP, R81. -/
  | testCap (core : Fin 4)
  /-- TASK_DISPATCH, R82. -/
  | taskDispatch (e : Fin 24)
  /-- ADD, R91. -/
  | add (i : Issue) (d a b : WReg)
  /-- SUB, R91. -/
  | sub (i : Issue) (d a b : WReg)
  /-- AND, R91. -/
  | and_ (i : Issue) (d a b : WReg)
  /-- OR, R91. -/
  | or_ (i : Issue) (d a b : WReg)
  /-- XOR, R91. -/
  | xor_ (i : Issue) (d a b : WReg)
  /-- ANDN, R91. -/
  | andn (i : Issue) (d a b : WReg)
  /-- SHL, R100. -/
  | shl (i : Issue) (d a b : WReg)
  /-- SHR, R100. -/
  | shr (i : Issue) (d a b : WReg)
  /-- SAR, R100. -/
  | sar (i : Issue) (d a b : WReg)
  /-- ROL, R100. -/
  | rol (i : Issue) (d a b : WReg)
  /-- MIN, R91. -/
  | min_ (i : Issue) (d a b : WReg)
  /-- MAX, R91. -/
  | max_ (i : Issue) (d a b : WReg)
  /-- MINU, R91. -/
  | minu (i : Issue) (d a b : WReg)
  /-- MAXU, R91. -/
  | maxu (i : Issue) (d a b : WReg)
  /-- ADDS, R91. -/
  | adds (i : Issue) (d a b : WReg)
  /-- SUBS, R91. -/
  | subs (i : Issue) (d a b : WReg)
  /-- SEL, R91. -/
  | sel (i : Issue) (d a b : WReg) (p : PReg)
  /-- CLZ, R91. -/
  | clz (i : Issue) (d a : WReg)
  /-- SEXTB, R91. -/
  | sextb (i : Issue) (d a : WReg)
  /-- SEXTH, R91. -/
  | sexth (i : Issue) (d a : WReg)
  /-- MUL, R91. -/
  | mul (i : Issue) (d a b : WReg)
  /-- MULH, R91. -/
  | mulh (i : Issue) (d a b : WReg)
  /-- MULHU, R91. -/
  | mulhu (i : Issue) (d a b : WReg)
  /-- MULQ, R91. -/
  | mulq (i : Issue) (d a b : WReg)
  /-- DIV, R101. -/
  | div (i : Issue) (d a b : WReg)
  /-- DIVU, R101. -/
  | divu (i : Issue) (d a b : WReg)
  /-- REM, R101. -/
  | rem (i : Issue) (d a b : WReg)
  /-- REMU, R101. -/
  | remu (i : Issue) (d a b : WReg)
  /-- CMP, R91. -/
  | cmp (i : Issue) (cond : BitVec 5) (pd : PReg) (a b : WReg)
  /-- CMPIEQ, R91. -/
  | cmpieq (i : Issue) (pd : Fin 32) (a : WReg) (imm : Half)
  /-- CMPINE, R91. -/
  | cmpine (i : Issue) (pd : Fin 32) (a : WReg) (imm : Half)
  /-- CMPILT, R91. -/
  | cmpilt (i : Issue) (pd : Fin 32) (a : WReg) (imm : Half)
  /-- CMPIGE, R91. -/
  | cmpige (i : Issue) (pd : Fin 32) (a : WReg) (imm : Half)
  /-- CMPILTU, R91. -/
  | cmpiltu (i : Issue) (pd : Fin 32) (a : WReg) (imm : Half)
  /-- CMPIGEU, R91. -/
  | cmpigeu (i : Issue) (pd : Fin 32) (a : WReg) (imm : Half)
  /-- PAND, R91. -/
  | pand (i : Issue) (pd pa pb : PReg)
  /-- POR, R91. -/
  | por (i : Issue) (pd pa pb : PReg)
  /-- PXOR, R91. -/
  | pxor (i : Issue) (pd pa pb : PReg)
  /-- PANDN, R91. -/
  | pandn (i : Issue) (pd pa pb : PReg)
  /-- PNOT, R91. -/
  | pnot (i : Issue) (pd pa : PReg)
  /-- PMOV, R91. -/
  | pmov (i : Issue) (pd pa : PReg)
  /-- PSET, R91. -/
  | pset (i : Issue) (pd : PReg)
  /-- PCLR, R91. -/
  | pclr (i : Issue) (pd : PReg)
  /-- ADDI, R91. -/
  | addi (i : Issue) (d a : WReg) (imm : Half)
  /-- ANDI, R91. -/
  | andi (i : Issue) (d a : WReg) (imm : Half)
  /-- ORI, R91. -/
  | ori (i : Issue) (d a : WReg) (imm : Half)
  /-- XORI, R91. -/
  | xori (i : Issue) (d a : WReg) (imm : Half)
  /-- LUI, R91. -/
  | lui (i : Issue) (d : WReg) (imm : Half)
  /-- SHI, R91. -/
  | shi (i : Issue) (d a : WReg) (k : BitVec 2) (n : BitVec 5)
  /-- LDW, R102. -/
  | ldw (i : Issue) (d a : WReg) (imm : Half)
  /-- LDH, R102. -/
  | ldh (i : Issue) (d a : WReg) (imm : Half)
  /-- LDHU, R102. -/
  | ldhu (i : Issue) (d a : WReg) (imm : Half)
  /-- LDB, R102. -/
  | ldb (i : Issue) (d a : WReg) (imm : Half)
  /-- LDBU, R102. -/
  | ldbu (i : Issue) (d a : WReg) (imm : Half)
  /-- STW, R102. -/
  | stw (i : Issue) (d a : WReg) (imm : Half)
  /-- STH, R70. -/
  | sth (i : Issue) (d a : WReg) (imm : Half)
  /-- STB, R70. -/
  | stb (i : Issue) (d a : WReg) (imm : Half)
  /-- J, R88. -/
  | j_ (i : Issue) (off : BitVec 26)
  /-- JAL, R88. -/
  | jal (i : Issue) (off : BitVec 26)
  /-- BT, R88. -/
  | bt (i : Issue) (p : PReg) (off : BitVec 20)
  /-- BF, R88. -/
  | bf (i : Issue) (p : PReg) (off : BitVec 20)
  /-- JR, R103. -/
  | jr (i : Issue) (a : WReg)
  /-- JALR, R103. -/
  | jalr (i : Issue) (d a : WReg)
  /-- SIGF, R67. -/
  | sigf (i : Issue) (imm : Half)
  /-- RDS, R66. -/
  | rds (i : Issue) (d : WReg) (arg : Byte)
  /-- WRS, R66. -/
  | wrs (i : Issue) (arg : Byte) (a : WReg)
  /-- YIELD, R104. -/
  | yield (i : Issue)
  /-- TRET, R87. -/
  | tret (i : Issue)
  /-- TRAP, R85. -/
  | trap (i : Issue) (arg : BitVec 6)
  /-- FENCE, R70. -/
  | fence (i : Issue)
  /-- IN, R106. -/
  | inp (i : Issue) (d a : WReg) (sel : Half)
  /-- OUT, R107. -/
  | outp (i : Issue) (d a : WReg) (sel : Half)
  /-- DEMAND, R109. -/
  | demand (i : Issue) (a : WReg)
  /-- PERMIT, R110. -/
  | permit (i : Issue) (a : WReg) (port : BitVec 4) (w : Bool)
  /-- SEAL, R111. -/
  | seal (i : Issue) (agree : Bool)
  /-- TBLO, R113. -/
  | tblo (i : Issue) (d : WReg)
  /-- TBHI, R113. -/
  | tbhi (i : Issue) (d : WReg)
  /-- TBREL, R113. -/
  | tbrel (i : Issue) (d : WReg)
  /-- FEED, R350. -/
  | feed (i : Issue) (u : Fin 4) (a : WReg) (agree : Bool)
  /-- CVU_READ, R349. -/
  | cvuRead (i : Issue) (d : WReg) (u : Fin 4) (agree : Bool)
  /-- CVU_LOAD, R349. -/
  | cvuLoad (i : Issue) (u : Fin 4) (a : WReg)
  /-- CTXS, R115. -/
  | ctxs (i : Issue) (u : Fin 4) (a : WReg) (agree : Bool)
  /-- CTXE, R351. -/
  | ctxe (i : Issue) (u : Fin 4) (a : WReg) (agree : Bool)
  /-- SNAP, R246. -/
  | snap (i : Issue) (g : Fin 16)
  /-- RDSNAP, R246. -/
  | rdsnap (i : Issue) (d : WReg) (n : Fin 32)
  /-- WRCMP, R251. -/
  | wrcmp (i : Issue) (n : Fin 32) (a : WReg)
  /-- RDCAPR, R116. -/
  | rdcapr (i : Issue) (d : WReg) (n : Fin 32)
  /-- RDCAPF, R116. -/
  | rdcapf (i : Issue) (d : WReg) (n : Fin 32)
  /-- RDSTAT, R255. -/
  | rdstat (i : Issue) (d : WReg) (n : Fin 32)
  /-- EVWAIT, R117. -/
  | evwait (i : Issue) (ev : BitVec 7)
  /-- EVPEND, R453. -/
  | evpend (i : Issue) (d : WReg) (k : Fin 4)
  /-- EVCLR, R117. -/
  | evclr (i : Issue) (ev : BitVec 7)
  /-- VERIFY_END, R424. -/
  | verifyEnd
  /-- FRAME_SENT, R452. -/
  | frameSent (eth : Bool) (n : Fin 2)
  /-- PD_FDIG_CHECK_END, R516. -/
  | pdFdigCheckEnd (ok : Bool)
  /-- RETENTION_SUPPLY_DIP, R468. -/
  | retentionSupplyDip (domain : Fin 10)
  /-- PLL_LOCK_REGAINED, R474. -/
  | pllLockRegained
  /-- COMMIT_STEP_DUE, R55. -/
  | commitStepDue (p : PulseEnv)
  /-- ARP_ICMP_FRAME_RX, R445. -/
  | arpIcmpFrameRx (n : Fin 2) (q : NetQuery)
  deriving DecidableEq, Repr

end Sys2Proof
end

