-- ==== Sys2Proof/Machine/Crypto.lean ====
section
/-! DEFINITION. SHA-256 and ECDSA on P-256, which R404, R405 and R408 name and do not describe: both are taken from the
published standards (FIPS 180-4, FIPS 186-4; PRESUMED, log entry 60). -/

namespace Sys2Proof.Machine

/-! ## SHA-256 -/

/-- The greatest `r` with `r ^ k ≤ n`, bit by bit from below 2 to the `b`. -/
def rootOf (k n : Nat) : Nat → Nat → Nat
  | 0, r => r
  | b + 1, r => rootOf k n b (if (r + 2 ^ b) ^ k ≤ n then r + 2 ^ b else r)

/-- The first 32 bits of the fraction of the `k`-th root of `p`, where the root is below 16. -/
def rootBits (k p : Nat) : Word := BitVec.ofNat 32 (rootOf k (p * 2 ^ (32 * k)) 36 0)

/-- The primes below 312, which are 64. -/
def shaPrimes : List Nat := (List.range 312).filter fun n => 2 ≤ n && (List.range 18).all fun d => d < 2 || n ≤ d || n % d != 0

/-- The constants of the 64 rounds: of the cube roots of the first 64 primes. -/
def shaRoot3 : List Word := shaPrimes.map (rootBits 3)

/-- Four words through which values shift, the newest first. -/
structure Shift where
  /-- The newest word. -/
  p : Word
  /-- The word before it. -/
  q : Word
  /-- The word before that. -/
  r : Word
  /-- The oldest word. -/
  t : Word
  deriving DecidableEq, Repr

/-- A new word shifts in, and the oldest out. -/
def Shift.push (x : Shift) (w : Word) : Shift := ⟨w, x.p, x.q, x.r⟩

/-- Word by word sum. -/
def Shift.sum (x y : Shift) : Shift := ⟨x.p + y.p, x.q + y.q, x.r + y.r, x.t + y.t⟩

/-- The words, the newest first. -/
def Shift.list (x : Shift) : List Word := [x.p, x.q, x.r, x.t]

/-- The hash before the first block: of the square roots of the first eight primes, in two shift registers. -/
def shaRoot2 : Shift × Shift :=
  let f := fun (i : Nat) => rootBits 2 (shaPrimes.getD i 0)
  (⟨f 0, f 1, f 2, f 3⟩, ⟨f 4, f 5, f 6, f 7⟩)

/-- The exclusive or of a word turned right by each of three amounts; the last one shifts where `cut`. -/
def turns (cut : Bool) (i j k : Nat) (w : Word) : Word :=
  w.rotateRight i ^^^ w.rotateRight j ^^^ if cut then w >>> k else w.rotateRight k

/-- One round with its constant and its word of the message: what it adds enters both registers. -/
def shaTurn (k w : Word) (s : Shift × Shift) : Shift × Shift :=
  let (x, y) := s
  let add := y.t + turns false 6 11 25 y.p + (y.r ^^^ (y.p &&& (y.q ^^^ y.r))) + k + w
  (x.push (add + turns false 2 13 22 x.p + ((x.p &&& x.q) ||| (x.r &&& (x.p ||| x.q)))), y.push (x.t + add))

/-- The rounds of the constants left, over a window of the 16 message words that come next: the first is used, and a new one joins. -/
def shaRun : List Word → List Word → Shift × Shift → Shift × Shift
  | [], _, s => s
  | k :: ks, win, s =>
    let m := fun (i : Nat) => win.getD i 0
    shaRun ks (win.drop 1 ++ [m 0 + turns true 7 18 3 (m 1) + m 9 + turns true 17 19 10 (m 14)]) (shaTurn k (m 0) s)

/-- One 64-byte block. -/
def shaBlock (s : Shift × Shift) (b : List Byte) : Shift × Shift :=
  let r := shaRun shaRoot3 ((bytesWords b.reverse).reverse.take 16) s
  (s.1.sum r.1, s.2.sum r.2)

/-- Blocks of a padded message. -/
def shaBlocks : Nat → Shift × Shift → List Byte → Shift × Shift
  | 0, s, _ => s
  | n + 1, s, l => shaBlocks n (shaBlock s (l.take 64)) (l.drop 64)

/-- Big-endian bytes of a number. -/
def beBytes (n x : Nat) : List Byte := (List.range n).map fun i => BitVec.ofNat 8 (x / 2 ^ (8 * (n - 1 - i)))

/-- SHA-256 of bytes: the message, a 1 bit, and its length in bits at the end of the last block. -/
def sha256 (m : List Byte) : List Byte :=
  let all := m ++ 0x80 :: List.replicate ((119 - m.length % 64) % 64) 0 ++ beBytes 8 (8 * m.length)
  let s := shaBlocks (all.length / 64) shaRoot2 all
  (s.1.list ++ s.2.list).flatMap fun w => (wordBytes w).reverse

/-! ## ECDSA on P-256 -/

/-- Field prime. -/
def ecP : Nat := 0xffffffff00000001000000000000000000000000ffffffffffffffffffffffff
/-- Group order. -/
def ecN : Nat := 0xffffffff00000000ffffffffffffffffbce6faada7179e84f3b9cac2fc632551
/-- Curve constant b. -/
def ecB : Nat := 0x5ac635d8aa3a93e7b3ebbd55769886bc651d06b0cc53b0f63bce3c3e27d2604b
/-- Base point. -/
def ecG : Nat × Nat :=
  (0x6b17d1f2e12c4247f8bce6e563a440f277037d812deb33a0f4a13945d898c296,
   0x4fe342e2fe1a7f9b8ee7eb4a7c0f9e162bce33576b315ececbb6406837bf51f5)

/-- `a ^ e` modulo `m`, over the low `n` bits of `e`. -/
def powMod (m : Nat) : Nat → Nat → Nat → Nat
  | 0, _, _ => 1 % m
  | n + 1, a, e => (if e % 2 = 1 then a else 1) * powMod m n (a * a % m) (e / 2) % m

/-- Inverse modulo a prime. -/
def invMod (m a : Nat) : Nat := powMod m 256 (a % m) (m - 2)

/-- Difference modulo `p`. -/
def subP (a b : Nat) : Nat := (a + (ecP - b % ecP)) % ecP

/-- Sum of two points; `none` is the point at infinity. -/
def ecAdd (p q : Option (Nat × Nat)) : Option (Nat × Nat) :=
  match p, q with
  | none, q => q
  | p, none => p
  | some (x1, y1), some (x2, y2) =>
    if x1 = x2 ∧ (y1 + y2) % ecP = 0 then none
    else
      let l := if x1 = x2 then (3 * x1 * x1 + (ecP - 3)) * invMod ecP (2 * y1) % ecP
        else subP y2 y1 * invMod ecP (subP x2 x1) % ecP
      let x := subP (l * l) (x1 + x2)
      some (x, subP (l * subP x1 x) y1)

/-- `k` times a point, over the low `n` bits of `k`. -/
def ecMul : Nat → Nat → Option (Nat × Nat) → Option (Nat × Nat)
  | 0, _, _ => none
  | n + 1, k, p =>
    let r := ecMul n (k / 2) (ecAdd p p)
    if k % 2 = 1 then ecAdd r p else r

/-- A big-endian number. -/
def beNat (l : List Byte) : Nat := l.foldl (fun n b => n * 256 + b.toNat) 0

/-- An ECDSA P-256 signature of a 32-byte hash, under a public key of 64 bytes (R405). -/
def ecdsaOk (key sig hash : List Byte) : Bool :=
  let x := beNat (key.take 32)
  let y := beNat (key.drop 32)
  let r := beNat (sig.take 32)
  let s := beNat (sig.drop 32)
  let onCurve := decide (x < ecP) && decide (y < ecP) && y * y % ecP == (x * x * x + (ecP - 3) * x + ecB) % ecP
  if !onCurve || r = 0 || s = 0 || ecN ≤ r || ecN ≤ s then false
  else
    let w := invMod ecN s
    match ecAdd (ecMul 256 (beNat hash * w % ecN) (some ecG)) (ecMul 256 (r * w % ecN) (some (x, y))) with
    | none => false
    | some (v, _) => v % ecN == r

end Sys2Proof.Machine
end

