-- ==== Sys2Proof/Machine/Flags.lean ====
section
/-! DEFINITION. The check computations the spec gives: CRC-32C (R67, R111), the check bits of the register and predicate
files (R125), and the conditions of CMP (Table 3-11). -/

namespace Sys2Proof.Machine

/-- One bit of a reflected CRC of up to 32 bits with the reflected polynomial `poly`. -/
def crcBitR (poly : Word) (s : Word) : Word := if s.getLsbD 0 then (s >>> 1) ^^^ poly else s >>> 1

/-- CRC-32C update over one byte, without initial value or final inversion (R67). -/
def crcUpd (s : Word) (b : Byte) : Word :=
  (List.range 8).foldl (fun x _ => crcBitR 0x82F63B78 x) (s ^^^ b.zeroExtend 32)

/-- CRC-32C of bytes with the standard initial value and final inversion (R111). -/
def crc32c (l : List Byte) : Word := (l.foldl crcUpd 0xFFFFFFFF) ^^^ 0xFFFFFFFF

/-- CRC-32C of words, each least significant byte first (R111, R174). -/
def crcWords (l : List Word) : Word := crc32c (l.flatMap wordBytes)

/-- SIGF: the signature after an immediate, least significant byte first (R67). -/
def sigFold (sig : Word) (imm : Half) : Word := crcUpd (crcUpd sig (imm.extractLsb' 0 8)) (imm.extractLsb' 8 8)

/-- Even parity of a vector. -/
def parity {n : Nat} (w : BitVec n) : Bool := (List.range n).foldl (fun p i => p ^^ w.getLsbD i) false

/-- The five check bits of W register `i` for value `w` (R125). -/
def regCheck (i : Nat) (w : Word) : BitVec 5 :=
  maskOf 5 fun j => if j < 4 then parity (w.extractLsb' (8 * j) 8) ^^ i.testBit j else parity w ^^ i.testBit 4

/-- The check bit of predicate byte `b` (R125). -/
def predCheck (p : BitVec 64) (b : Nat) : Bool := parity (p.extractLsb' (8 * b) 8) ^^ parity (BitVec.ofNat 3 b)

/-- Conditions of CMP, Table 3-11; `none` for a reserved condition. -/
def condition (c : Nat) (a b : Word) : Option Bool :=
  match c with
  | 0 => some (a == b)
  | 1 => some (a != b)
  | 2 => some (a.slt b)
  | 3 => some (!a.slt b)
  | 4 => some (a.ult b)
  | 5 => some (!a.ult b)
  | 6 => some ((a &&& b) != 0)
  | 7 => some ((a &&& b) == 0)
  | _ => none

end Sys2Proof.Machine
end

