-- ==== Sys2Proof/Config.lean ====
section
/-! DEFINITION. What the spec leaves open: free values without a body, so that no proof can see what they are, and the
encodings that the image tools fix and the spec does not describe. -/

namespace Sys2Proof.Config

/-- A fresh word that the spec leaves undefined or unstated, by the model's counter `State.fresh`. -/
opaque freeWord : Nat → Word

/-- What a register write meets on its way where its effect reaches the silicon: a re-evaluation (R52), the pulses of a fuse
programming sequence (R388), and whether the two implementations of a check-value or session unit agree (R290, R353). Entry to
DORMANT takes its agreement from it too, for the CLOSE telegrams (R288, R466). -/
structure WriteEnv where
  reeval : ReevalEnv := {}
  pulse : PulseEnv := {}
  agree : Bool := true
  deriving DecidableEq, Repr, Inhabited

/-- What the n-th such write meets, where the command does not carry it. -/
opaque writeEnv : Nat → WriteEnv

/-- R278, R279: a conversion through a field trim, from the raw code, ZERO and GAIN. -/
opaque fieldTrim : Half → Half → Half → Half

/-- R278, R279: the ZERO value that an averaged current in nA gives. -/
opaque trimZero : Nat → Half

/-- R278, R279: the GAIN value that an averaged current in nA gives. -/
opaque trimGain : Nat → Half

/-- R408 check 2: SHA-256 of the boot ROM's factory key, which the spec does not state. -/
opaque factoryKey : List Byte

/-- R84, Table 3-3: the bytes of the boot ROM, which the spec does not give. -/
opaque bootRom : Nat → Byte

/-- R425, Table 16-3: a settings block as the tools encode it (network settings). -/
opaque settingsBlock : List Byte → Option (Half × List Word)

/-- R445, R446, R448: what an image names for the networks: owners of CAN 0, 1 and Ethernet 0, 1, the acceptance list of each
controller, and the integrator port of each interface. -/
structure NetNames where
  owner : List (BitVec 5)
  accept : List (List Word)
  port : List (Option Half)
  deriving DecidableEq, Repr, Inhabited

/-- R448: the network names of an image; the block that carries them is not described. -/
opaque netNames : List Byte → NetNames

/-- R505: the transmit level that a safety parameter block sets for a port, counted in the 0.5 V steps of Table 20-7 from 2.0 V; none
where it sets none. How the block carries it is not described. -/
opaque txLevel : List Byte → Nat → Option (Fin 13)

/-- R327: the skein parameter code that the tools form over a port's settings. -/
opaque skeinParam : List Word → Word

/-- R374, R376: one function of a reaction budget seed: its number, owning core, sources (kind of DIAG_RBn word 0 [12:11]
and index), outputs, ports, delay cells on its de-energising path, and the total the tools computed. -/
structure SeedFn where
  fn : Nat
  core : Fin 4
  sources : List (Nat × Nat)
  outs : Half
  ports : BitVec 4
  delays : List (Fin 128)
  total : Nat
  deriving DecidableEq, Repr

/-- R376: the functions that a reaction budget seed names; its encoding is not described. -/
opaque budgetSeed : List Byte → Option (List SeedFn)

end Sys2Proof.Config
end

