-- ==== Sys2Proof/Machine/State.lean ====
section
/-! DEFINITION. Everything the spec gives the machine, as plain data: one structure per block of the module, each
field with its width, the file and rule of spec/ that names it, and its reset value as its default. Then the faults
and refusals a step can answer, and the state after reset. -/

namespace Sys2Proof.Machine

/-- Run states of Table 0-4, in the coding of SYS_STATUS.RUN_STATE (R7). -/
inductive RunState where
  | castOn | safeHold | run | lockout | halt | dormant | service
  deriving DecidableEq, Repr

/-- Cast-on stages, in the coding of SYS_STATUS.STAGE (R36, R43). -/
inductive Stage where
  | none | tap | sense | wipe | swatch | load | pattern | cross | verify | retired
  deriving DecidableEq, Repr

/-- Life-cycle states in their order (R9). -/
inductive LifeCycle where
  | manufacture | provisioned | uncommissioned | commissioned | serviceLocked | retired
  deriving DecidableEq, Repr

/-- Fault classes and further kinds of Table 0-5, in the coding of DIAG_RCTi word 0 [22:20] (R11). -/
inductive FaultClass where
  | counted | loc | group | device | fatal | stage
  deriving DecidableEq, Repr

/-- Why a HOLD is running: the host's command, a seal that changed (R416), a trial that expired (R420). -/
inductive HoldWhy where
  | command | seal | trial
  deriving DecidableEq, Repr

/-- Connection states of Table 7-4 (R193). -/
inductive ConnSt where
  | safe | waitOn | enabled | waitOff | locked
  deriving DecidableEq, Repr

/-- Release cell and slot states of Table 6-3 (R151, R205). -/
inductive RelSt where
  | idle | active | stuck | recover
  deriving DecidableEq, Repr

/-- Lockout causes of an output in the coding of OUTRB [7:4] (R238). SWITCH_TEST_FAIL has no code there. -/
inductive OutCause where
  | externalFeed | crossConnect | overload | overtemp | outLow | feedback | bankSupply | bound | remote | switchTest
  deriving DecidableEq, Repr

/-- Codes channel B decodes on fault line A, in the coding of HLD_STATUS [1:0] (R161). -/
inductive LineCode where
  | asserted | hold | run
  deriving DecidableEq, Repr

/-- Session states of Table 11-6 (R304). -/
inductive SessSt where
  | closed | quarantine | opening | run | fault
  deriving DecidableEq, Repr

/-- Skein states of Table 12-4 (R328). -/
inductive SkeinSt where
  | off | start | run | silent
  deriving DecidableEq, Repr

/-- Sequence states of a check-value unit (R351). -/
inductive SeqSt where
  | fresh | opened | closed
  deriving DecidableEq, Repr

/-- Phases of an update in the coding of UPD_STATUS [2:0] (R424). -/
inductive UpdPhase where
  | idle | erasing | receiving | verifying | verified | failed
  deriving DecidableEq, Repr

/-- The clocks of the two dies. -/
structure TimeS where
  /-- 64 bits; 00 R3, 03 R74: timebase A in ticks of 5 ns since power-good. -/
  tbA : DWord := 0
  /-- 1 bit; 01 R34, R35: CK-TB runs, so timebase A counts. -/
  runA : Bool := true
  /-- a number; 02 R40, 06 R146: B cycles of 10 µs since the release of the internal reset line; timebase B is 400 × it in 25 ns units. -/
  cyc : Nat := 0
  deriving DecidableEq, Repr

/-- Run state, commands and reset record (file 02). -/
structure SysS where
  /-- 3 bits; 02 R7, SYS_STATUS.RUN_STATE. -/
  runState : RunState := .castOn
  /-- 4 bits; 02 R36, SYS_STATUS.STAGE. -/
  stage : Stage := .tap
  /-- 3 bits; 02 R9, SYS_STATUS.LIFECYCLE: the life-cycle state this cast-on runs in. -/
  life : LifeCycle := .manufacture
  /-- 1 bit; 02 SYS_STATUS.SLOT: running slot B. -/
  slotB : Bool := false
  /-- 1 bit; 02 R42, SYS_STATUS.RECOVERY. -/
  recovery : Bool := false
  /-- 1 bit; 02 R60, SYS_STATUS.COMMIT_PENDING. -/
  commitPending : Bool := false
  /-- 1 bit; 16 R412, SYS_STATUS.SEAL_MATCH. -/
  sealMatch : Bool := false
  /-- 8 bits; 02 R48, SYS_STATUS.HOLD_REASON. -/
  holdReason : Byte := 0
  /-- 8 bits; 02 R47, SYS_CTRL.LAST_CMD. -/
  lastCmd : Byte := 0
  /-- 8 bits; 02 R47, SYS_CTRL.RESULT. -/
  result : Byte := 0
  /-- 7 bits; 02 R56, R57, SYS_RESET_CAUSE [6:0] in PD-AON. -/
  cause : BitVec 7 := 1
  /-- 4 bits; 02 SYS_RESET_CAUSE.LAST_STATE. -/
  lastState : BitVec 4 := 0
  /-- 4 bits; 02 SYS_RESET_CAUSE.LAST_STAGE. -/
  lastStage : BitVec 4 := 0
  /-- 16 bits; 02 SYS_RESET_CAUSE.CASTON_COUNT, saturating. -/
  castOns : Half := 0
  /-- 32 bits; 02 R45, SYS_CASTON_TIME in µs. -/
  castTime : Word := 0
  /-- 1 bit; 18 R459: a cast-on that keeps power-good waits for CK-XTAL and PLL lock. -/
  clockWait : Bool := false
  /-- 1 bit; 02 R49: a HOLD is running, cores still to pass their release. -/
  holding : Bool := false
  /-- a name; 02 R49, 16 R416, R420: why the HOLD runs. -/
  holdWhy : HoldWhy := .command
  /-- 4 bits; 02 R49: cores that have passed their first release after HOLD. -/
  holdPassed : BitVec 4 := 0
  /-- 1 bit; 16 R416: a seal match has been lost during a HOLD in RUN. -/
  sealGone : Bool := false
  /-- 1 bit; 16 R420: a trial has expired and its FROG and cast-on are still to come. -/
  fallDue : Bool := false
  /-- 1 bit; 02 R50: a SLEEP is accepted and waits for the end of every scan. -/
  sleeping : Bool := false
  /-- 4 bits; 02 R50: cores whose scan has ended since the SLEEP. -/
  sleepDone : BitVec 4 := 0
  /-- 1 bit; 02 R53: a RESET waits for the end of a commissioning commit. -/
  resetWait : Bool := false
  /-- 1 bit; 02 R48: an integrity alarm under the HOLD policy was raised at this cast-on's SENSE. -/
  senseHold : Bool := false
  /-- 1 bit; 02 R48, R53: a device fault is detected whose entry to LOCKOUT is not yet complete. -/
  devPending : Bool := false
  /-- 1 bit; 12 R328: RUN has been entered since cast-on. -/
  ranOnce : Bool := false
  /-- 1 bit; 02 R52: the CROSS step runs for a re-evaluation, not for a cast-on. -/
  reeval : Bool := false
  /-- 1 bit; 02 R52: the re-evaluation was asked for by SERVICE_EXIT. -/
  fromService : Bool := false
  /-- a number; 02 R39: consecutive timebase exchanges within tolerance since CROSS started. -/
  crossGood : Nat := 0
  /-- 4 bits; 02 R39: hosting cores that have delivered an agreeing record since CROSS started. -/
  crossCores : BitVec 4 := 0
  /-- 1 bit; 01 R28: fault line A is asserted by the processor die. -/
  lineA : Bool := false
  /-- 16 bits; 14 R515: the fault code that caused the latest entry to LOCKOUT or HALT. -/
  stopCode : Half := 0
  /-- a number; 02 R39, R52: B cycle in which the latest CROSS began. -/
  crossAt : Nat := 0
  deriving DecidableEq, Repr

/-- Supplies, domains, tension loop, clocks and DORMANT (file 18), and the input pins (file 19). -/
structure PwrS where
  /-- 1 bit; 18 R459: power-good is in force. -/
  good : Bool := false
  /-- 1 bit; 18 R460: PD-AON has been lost, so the next power-good is a power-on. -/
  aonLost : Bool := true
  /-- 1 bit; 19 R479: RESET_N has been held low and holds the device. -/
  resetN : Bool := false
  /-- 1 bit; 18 PWR_STATUS.VLOGIC_HIGH. -/
  vlogicHigh : Bool := false
  /-- 1 bit; 18 R460, PWR_STATUS.VF1_PRESENT. -/
  vf1 : Bool := false
  /-- 1 bit; 18 R460, PWR_STATUS.VF2_PRESENT. -/
  vf2 : Bool := false
  /-- 1 bit; 18 R460, PWR_STATUS.VAN_PRESENT. -/
  van : Bool := false
  /-- 1 bit; 18 R465, PWR_STATUS.TENSION_MAX. -/
  tensionMax : Bool := false
  /-- 10 bits; 18 R461, PWR_STATUS.DOMAINS in the order PD-AON, PD-SC, PD-SE, PD-CE, PD-SYS, PD-HLD, PD-NET, PD-FDIG, PD-FAN, PD-CAFE. -/
  domains : BitVec 10 := 0x037
  /-- 9 bits; 18 PWR_SUPPLY.VLOGIC in 10 mV units. -/
  vlogicMeas : BitVec 9 := 0
  /-- 10 bits; 18 PWR_SUPPLY.VAN in 50 mV units. -/
  vanMeas : BitVec 10 := 0
  /-- 10 bits; 08 SOUT_BANK_STAT.VF1 in 50 mV units. -/
  vf1Meas : BitVec 10 := 0
  /-- 10 bits; 08 SOUT_BANK_STAT.VF2 in 50 mV units. -/
  vf2Meas : BitVec 10 := 0
  /-- 5 bits; 18 R464, PWR_TENSION.SETPOINT. -/
  setpoint : BitVec 5 := 0x1C
  /-- 9 bits; 18 R464, PWR_TENSION.MIN_RATE. -/
  minRate : BitVec 9 := 0
  /-- 3 bits; 18 PWR_TENSION.MIN_SENSOR. -/
  minSensor : BitVec 3 := 0
  /-- 9 bits; 18 PWR_TENSION_LOW.LOWEST. -/
  lowest : BitVec 9 := 0x1FF
  /-- 5 bits; 18 PWR_TENSION_LOW.LOW_SET. -/
  lowSet : BitVec 5 := 0x1C
  /-- 8 bits; 18 PWR_TENSION_LOW.EMERGENCY, saturating. -/
  emergency : Byte := 0
  /-- 32 bits; 18 R464, PWR_TENSION_CFG. -/
  tensionCfg : Word := 0x12C
  /-- a number; 18 R464: consecutive updates in which m exceeded T + 15. -/
  above : Nat := 0
  /-- 1 bit; 18 R465: a raise under R142 has been made since the latest update. -/
  raised : Bool := false
  /-- 8 bits; 18 PWR_TEMP.PROC in °C + 64. -/
  tempProc : Byte := 0
  /-- 8 bits; 18 PWR_TEMP.HLD in °C + 64. -/
  tempHld : Byte := 0
  /-- 32 bits; 18 R469, PWR_WAKE_CFG. -/
  wakeCfg : Word := 0
  /-- 32 bits; 18 PWR_WAKE_TIMER. -/
  wakeTimer : Word := 0
  /-- 3 bits; 18 R470, PWR_WAKE_STAT.CAUSE in PD-AON. -/
  wakeCause : BitVec 3 := 0
  /-- 4 bits; 18 R466, PWR_WAKE_STAT.REFUSE in PD-AON. -/
  refuse : BitVec 4 := 0
  /-- 16 bits; 18 PWR_WAKE_STAT.ENTRIES in PD-AON, saturating. -/
  entries : Half := 0
  /-- 32 bits; 18 R471, PWR_DORMANT_TIME. -/
  dormantMs : Word := 0
  /-- 64 bits; 18 R467: timebase A latched at entry to DORMANT. -/
  dormantA : DWord := 0
  /-- 10 bits; 18 R468: domains whose retention supply dipped in DORMANT. -/
  lost : BitVec 10 := 0
  /-- 32 bits each; 18 R468: the check of each bank of the retained memories, as formed at entry to DORMANT and kept in PD-AON. -/
  bankSums : List Word := []
  /-- 1 bit; 01 R32, 18 R474: a supply bit has changed in DORMANT, and EV124 follows at the wake. -/
  supplyEv : Bool := false
  /-- 32 bits; 18 R467: FREE timers that were running at entry to DORMANT. -/
  freeRun : Word := 0
  /-- what its wake meets, by cause code 0-5; 02 R50, 18 R467, R469: wake sources with a level that are active now: WAKE, the
  CAN receive line, the lost CK-32K. -/
  wakeOn : Tab (Option WakeEnv) 6 := Tab.fill 6 none
  /-- 1 bit; 18 CLK_STATUS.XTAL_OK. -/
  xtalOk : Bool := true
  /-- 1 bit; 18 R463, CLK_STATUS.PLL_LOCK and PWR_STATUS.PLL_LOCK. -/
  pllLock : Bool := true
  /-- 1 bit; 18 CLK_STATUS.K32_RUN. -/
  k32Run : Bool := false
  /-- 8 bits; 18 CLK_STATUS.K32_DEV, signed, 0.1 % units. -/
  k32Dev : Byte := 0
  /-- 8 bits; 18 CLK_STATUS.LOCK_LOSS, saturating. -/
  lockLoss : Byte := 0
  /-- 1 bit; 14 Table 14-3: CK32_DRIFT is present. -/
  ck32Drift : Bool := false
  /-- 1 bit; 18 Table 18-1: the PD-HLD regulator is outside its tolerance. -/
  hldBad : Bool := false
  /-- 12 bits; 16 R412, 19 R486: the seal value of the latest read. -/
  sealRead : BitVec 12 := 0
  /-- a number; 16 R412: consecutive reads of that value, 10 ms apart. -/
  sealSame : Nat := 0
  /-- 12 bits; 16 R412, UPD_COMM_COUNT.SEAL: the counted seal value. -/
  sealValue : BitVec 12 := 0
  deriving DecidableEq, Repr

/-- The last executed request of one path, kept for retry (R438). -/
structure Retry where
  /-- 1 bit; 17 R438: a request has been executed on this path. -/
  valid : Bool := false
  /-- 8 bits; 17 R438: its sequence. -/
  seq : Byte := 0
  /-- 32 bits; 17 R438: its CRC. -/
  crc : Word := 0
  /-- bytes; 17 R437, R438: its response. -/
  resp : List Byte := []
  deriving DecidableEq, Repr

/-- The network and interrupt settings registers (R447). -/
structure NetSet where
  /-- 32 bits × 2; 17 SYS_NETi_IP. -/
  ip : Tab Word 2 := Tab.fill 2 0
  /-- 32 bits × 2; 17 SYS_NETi_MASK. -/
  mask : Tab Word 2 := Tab.fill 2 0
  /-- 32 bits × 2; 17 SYS_NETi_GW. -/
  gw : Tab Word 2 := Tab.fill 2 0
  /-- 32 bits; 17 SYS_NET_SVC. -/
  svc : Word := 0x0000C5C6
  /-- 32 bits; 17 SYS_NET_SVCID. -/
  reqId : Word := 0
  /-- 32 bits; 17 SYS_NET_SVCID2. -/
  rspId : Word := 0
  /-- 32 bits × 2; 17 SYS_CANc_BIT. -/
  can : Tab Word 2 := Tab.fill 2 0x00500000
  /-- 128 bits; 17 EVT_IRQENk, loaded from the settings (R454). -/
  irqen : BitVec 128 := 0
  deriving DecidableEq, Repr

/-- Host link, service paths, network queues and mailbox (file 17). -/
structure LinkS where
  /-- 24 bits; 17 R436, SYS_LINK.INC in PD-AON. -/
  inc : BitVec 24 := 0
  /-- 16 bits; 17 SYS_SERIAL_HI: serial [47:32], loaded from OTP at SENSE. -/
  serialHi : Half := 0
  /-- 32 bits; 17 SYS_SERIAL_LO. -/
  serialLo : Word := 0
  /-- 8 bits; 17 SYS_LINK_ERR.CRC, read-clear, saturating. -/
  errCrc : Byte := 0
  /-- 8 bits; 17 SYS_LINK_ERR.FORMAT, read-clear, saturating. -/
  errFormat : Byte := 0
  /-- 8 bits; 17 R433, SYS_LINK_ERR.ABORTED, read-clear, saturating. -/
  errAborted : Byte := 0
  /-- 8 bits; 17 R448, SYS_LINK_ERR.SLOT, read-clear, saturating. -/
  errSlot : Byte := 0
  /-- 32 bits × 64; 17 R449, SYS_MBXn. -/
  mbx : Tab Word 64 := Tab.fill 64 0
  /-- 5 bits × 32; 17 R449, 16 R407 kind 4: writer of mailbox words 32-63, 0x1F none. -/
  mbxWriter : Tab (BitVec 5) 32 := Tab.fill 32 0x1F
  /-- settings registers; 17 R447: as the host last wrote them. -/
  set : NetSet := {}
  /-- settings; 17 R447: the values loaded at LOAD, on which the interfaces run. -/
  act : NetSet := {}
  /-- 4 bits; 17 SYS_SET_CMD.RESULT. -/
  setResult : BitVec 4 := 0
  /-- 1 bit; 17 R447: a settings commit is running. -/
  setBusy : Bool := false
  /-- store × 3; 17 R438, R443: host link, Ethernet service, CAN service. -/
  retry : Tab Retry 3 := Tab.fill 3 {}
  /-- bytes × 3; 17 R437: the latest response given on each path. -/
  resp : Tab (List Byte) 3 := Tab.fill 3 []
  /-- 1 bit × 2; 17 R452: link state of each Ethernet interface. -/
  ethUp : Tab Bool 2 := Tab.fill 2 false
  /-- state × 2; 17 R446, R452: error state of each CAN controller. -/
  canErr : Tab CanErr 2 := Tab.fill 2 .active
  /-- queue of 8 × 2; 17 R448: integrator receive queues of the CAN controllers. -/
  canRx : Tab (List CanFrame) 2 := Tab.fill 2 []
  /-- queue of 8 × 2; 17 R448: integrator receive queues of the Ethernet interfaces. -/
  ethRx : Tab (List Datagram) 2 := Tab.fill 2 []
  /-- frame × 2; 17 R448: transmit staging areas of the CAN controllers. -/
  canTx : Tab CanFrame 2 := Tab.fill 2 {}
  /-- datagram × 2; 17 R448: transmit staging areas of the Ethernet interfaces. -/
  ethTx : Tab Datagram 2 := Tab.fill 2 {}
  /-- 7 bits × 2; 17 Table 17-7: length staged for each CAN controller. -/
  canLen : Tab Nat 2 := Tab.fill 2 0
  /-- 9 bits × 2; 17 Table 17-7: length staged for each Ethernet interface. -/
  ethLen : Tab Nat 2 := Tab.fill 2 0
  /-- 1 bit × 4; 17 R448, R452: the staging area (CAN 0, 1, Ethernet 0, 1) holds a frame on its way. -/
  txBusy : Tab Bool 4 := Tab.fill 4 false
  /-- frames; 17 R443, R448, 11 R314: frames handed to the CAN controllers, the latest first. -/
  canOut : List (Fin 2 × CanFrame) := []
  /-- datagrams; 17 R443, R445, R448, 11 R314: datagrams handed to the Ethernet interfaces, the latest first. -/
  ethOut : List (Fin 2 × Datagram) := []
  /-- owner code × 4; 17 R448: stitch engine the image names as owner of CAN 0, 1, Ethernet 0, 1; 0x1F none. -/
  frameOwner : Tab (BitVec 5) 4 := Tab.fill 4 0x1F
  /-- identifiers × 2; 17 R446: integrator acceptance list of each controller. -/
  accept : Tab (List Word) 2 := Tab.fill 2 []
  /-- 16 bits × 2; 17 R445: integrator UDP port of each interface, if the image names one. -/
  udpPort : Tab (Option Half) 2 := Tab.fill 2 none
  /-- words; the model's own: what the latest read with a row of its own returned. -/
  rdata : List Word := []
  /-- queries; 17 R445: ARP and ICMP queries answered, with the MAC address that the answer bears, the latest first. -/
  netOut : List (Fin 2 × BitVec 48 × NetQuery) := []
  /-- 64 bits; 17 R452: timebase A of the latest EV8, which comes at most once per 10 ms. -/
  ev8At : Option DWord := none
  deriving DecidableEq, Repr

/-- The host's side of the event fabric (R452 to R454). -/
structure EvtS where
  /-- 128 bits; 17 EVT_PENDk: host flags. -/
  pend : BitVec 128 := 0
  /-- 128 bits; 17 R453: the events that have arrived in the tick `seenAt`. -/
  seen : BitVec 128 := 0
  /-- 64 bits; 17 R453: the tick of timebase A of the latest arrival. -/
  seenAt : DWord := 0
  deriving DecidableEq, Repr

/-- A register bank of an engine with its check bits (R64, R65, R125). -/
structure Bank where
  /-- 32 bits × 32; 03 R64: W0-W31. -/
  w : Tab Word 32 := Tab.fill 32 0
  /-- 5 bits × 32; 05 R125: check bits of each W register. -/
  chk : Tab (BitVec 5) 32 := Tab.gen 32 (fun i => BitVec.ofNat 5 (i.val))
  /-- 64 bits; 03 R64: P0-P63. -/
  p : BitVec 64 := 0
  /-- 8 bits; 05 R125: check bit of each byte of the predicate file. -/
  pchk : Byte := 0x96
  deriving DecidableEq, Repr

/-- One instruction stream: an engine or a split hart (file 03). -/
structure Engine where
  /-- 1 bit; 02 R38, 03 R82: released from reset and executing. -/
  on : Bool := false
  /-- registers; 03 R65: bank S of a safety core, the single bank of every other engine. -/
  bankS : Bank := {}
  /-- registers; 03 R65: bank T of a safety core, which serves TEST. -/
  bankT : Bank := {}
  /-- task number; 03 R66, R73, R82: the running task: 0 INIT, 1 SCAN, 2 TEST on a safety core, else the event task. -/
  task : Option (Fin 16) := none
  /-- 32 bits × 16; 03 R66: byte address of the next instruction of each task. -/
  pc : Tab Word 16 := Tab.fill 16 0
  /-- 32 bits × 16; 05 R124: on a safety core the purl program counter of each task, in complemented form. -/
  purlPc : Tab Word 16 := Tab.fill 16 0xFFFFFFFF
  /-- 32 bits × 16; 03 R66: STEPS of each task, saturating. -/
  steps : Tab Word 16 := Tab.fill 16 0
  /-- 32 bits × 16; 04 R113: high-word latch of TBLO of each task. -/
  tbHi : Tab Word 16 := Tab.fill 16 0
  /-- 32 bits; 03 R66: TRAPC. -/
  trapc : Word := 0
  /-- 1 bit; 04 R105: the trap handler runs. -/
  inTrap : Bool := false
  /-- 16 bits; 03 R82: pending event tasks. -/
  tasks : Half := 0
  /-- 7 bits × 16; 04 R117: event a task waits for. -/
  waiting : Tab (Option (BitVec 7)) 16 := Tab.fill 16 none
  /-- 1 bit × 16; 04 R117: the pending task resumes after an EVWAIT instead of starting at its entry. -/
  resumes : Half := 0
  /-- 128 bits; 17 R453: pending event flags of a single-pass engine or hart; arrivals since the last release on a safety core. -/
  flags : BitVec 128 := 0
  /-- 128 bits; 17 R453: on a safety core, the events latched at the release. -/
  latched : BitVec 128 := 0
  /-- 32 bits × 16; 16 R407: entry address of each task (INIT, SCAN, TEST on a safety core). -/
  entry : Tab Word 16 := Tab.fill 16 0
  /-- 8 bits × 16; 16 R407 kind 2: trigger of each event task, 0xFF unused. -/
  trigger : Tab Byte 16 := Tab.fill 16 0xFF
  /-- 16 bits; 16 R407 kind 2, 03 R63: tasks that are integrator slots. -/
  slots : Half := 0
  /-- 20 bits × 16; 16 R407 kind 2: step budget of each event task in units of 16 steps. -/
  budget : Tab (BitVec 20) 16 := Tab.fill 16 0
  /-- 32 bits; 16 R407 kind 2: trap handler address. -/
  handler : Word := 0
  deriving DecidableEq, Repr

/-- A result that waits in the pending queue of a safety core (R122). -/
inductive Pend where
  | reg (d : Fin 32) (v : Word)
  | pred (d : Fin 64) (v : Bool)
  | store (a : Nat) (b : List Byte)
  deriving DecidableEq, Repr

/-- An entry of the sample queue of a safety core (R128): operation and selector or address, and the value read. -/
structure Sample where
  /-- 32 bits: the operation in [31:26], the selector or the 24-bit address below. -/
  tag : Word
  /-- 32 bits: what the knit pass read. -/
  value : Word
  deriving DecidableEq, Repr

/-- What a twin-pass safety core holds beyond an engine (files 03, 04, 05). -/
structure Core where
  /-- at most 2 entries; 05 R122: results of the knit pass that wait for the purl pass of their instruction. -/
  pend : List Pend := []
  /-- at most 2 entries; 05 R128: values sampled by the knit pass, oldest first, with their tags. -/
  samples : List Sample := []
  /-- 2 bits; 03 SC_COREn_STAT.MODE: 0 not started, 1 twin-pass, 2 split. -/
  mode : BitVec 2 := 0
  /-- 1 bit; 03 R86, SC_COREn_STAT.TRAPPED. -/
  trapped : Bool := false
  /-- 1 bit; 03 R80, SC_COREn_STAT.DEADLINE. -/
  deadline : Bool := false
  /-- 8 bits; 03 SC_COREn_STAT.CAUSE. -/
  cause : Byte := 0
  /-- 16 bits; 03 SC_COREn_STAT.WORD. -/
  word : Half := 0
  /-- 32 bits; 03 R74, SC_COREn_SCANCFG. -/
  scanCfg : Word := 0
  /-- 16 bits; 03 R66, R75: SCAN[15:0], the scan sequence. -/
  seq : Half := 0
  /-- 1 bit; 03 R66: FIRST. -/
  first : Bool := false
  /-- 1 bit; 03 R66, R77: the next release is the first one after INIT. -/
  firstDue : Bool := false
  /-- 32 bits; 03 R67: SIG, the scan signature accumulator. -/
  sig : Word := 0
  /-- 32 bits; 05 R126: the purl signature accumulator, in complemented form. -/
  purlSig : Word := 0xFFFFFFFF
  /-- 32 bits; 16 R407 kind 1: the seed of SIG. -/
  seed : Word := 0
  /-- 64 bits; 03 R75: release time, the input-sample time of the scan. -/
  release : DWord := 0
  /-- 16 bits; 04 R109: staged demand word. -/
  demand : Half := 0
  /-- 64 bits × 4; 04 R110: staged permits of each port. -/
  permit : Tab DWord 4 := Tab.fill 4 0
  /-- 64 bits × 4; 04 R112: permits of the latest sealed record. -/
  sealedPermit : Tab DWord 4 := Tab.fill 4 0
  /-- 64 bits; 12 R325: timebase A at which the latest SEAL completed. -/
  sealAt : Option DWord := none
  /-- 64 bits × 4; 12 R325: permits of the record before the latest sealed one. -/
  permitPrev : Tab DWord 4 := Tab.fill 4 0
  /-- 16 bits; 04 R112: demands of the latest sealed record. -/
  sealedDemand : Half := 0
  /-- record; 04 R111: the scan record of the latest SEAL, on its way to channel B. -/
  record : List Word := []
  /-- words; 04 R107: CSL words staged by OUT, in program order. -/
  staged : List (Nat × Word) := []
  /-- words; 03 R76: port words latched at the release, keyed by selector. -/
  ports : Sparse Word := []
  /-- 1 bit; 03 R77: INIT has ended since it last started. -/
  initDone : Bool := false
  /-- 1 bit; 03 R80: SCAN runs and has not sealed. -/
  inScan : Bool := false
  /-- a number; 03 R81: steps TEST has spent in this scan period. -/
  testSteps : Nat := 0
  /-- 1 bit; 03 R81: TEST is suspended by its cap until the next SEAL. -/
  testCapped : Bool := false
  /-- 32 bits; 05 SC_COREn_MMLANE. -/
  mmLane : Word := 0
  /-- 32 bits; 05 SC_COREn_MMKNIT. -/
  mmKnit : Word := 0
  /-- 32 bits; 05 SC_COREn_MMPURL. -/
  mmPurl : Word := 0
  deriving DecidableEq, Repr

/-- The engines, the safety cores and the swatch registers. -/
structure EngS where
  /-- engine × 24; 09 Table 9-2: SC0-3, SE0-7, CE0-1, BC, UC, then the eight split harts. -/
  e : Tab Engine 24 := Tab.fill 24 {}
  /-- core × 4; 03 R73: the safety cores. -/
  c : Tab Core 4 := Tab.fill 4 {}
  /-- 32 bits; 05 R137, SC_SWATCH. -/
  swatch : Word := 0
  /-- 32 bits; 05 R137, SC_SWATCH_FAIL. -/
  swatchFail : Word := 0
  deriving DecidableEq, Repr

/-- The memories of the engines and the shared SRAM (R68 to R72). -/
structure MemS where
  /-- bytes × 16; 01 Table 1-2, 03 Table 3-3: memory of each engine, by the engine's own address; an unlisted byte reads 0. -/
  own : Tab (List Host.Cell) 16 := Tab.fill 16 []
  /-- bytes; 03 R69: 2 MiB of shared SRAM by address; an unlisted byte reads 0. -/
  shared : List Host.Cell := []
  /-- words × 16; 03 R72: words of each engine's memory whose check bits fail; true means not correctable. -/
  eccOwn : Tab (Sparse (Option Bool)) 16 := Tab.fill 16 []
  /-- words; 03 R72: words of the shared SRAM whose check bits fail; true means not correctable. -/
  eccShared : Sparse (Option Bool) := []
  /-- 32 bits × 64; 03 R69, 16 R407 kind 3: writer [4:0] and reader mask [31:8] of each shared block; 0x1F no writer. -/
  block : Tab Word 64 := Tab.fill 64 0x1F
  /-- 8 bits × 11; 03 R68, 16 R403: code size C of SE0-7, CE0-1 and UC in 4 KiB units. -/
  codeSize : Tab Byte 11 := Tab.fill 11 0
  /-- bytes; 03 R68: the key store, top 8 KiB of the update core's memory, by offset; an unlisted byte reads 0. -/
  keyStore : List Host.Cell := []
  deriving DecidableEq, Repr

/-! ## Channel B (file 06) -/

/-- A level as channel B filters it. -/
structure InF where
  /-- 1 bit; 06 R149, R153: the level counted so far. -/
  lvl : Bool := false
  /-- a number; 06 R149, R153: consecutive B cycles for which the latched level has differed from it. -/
  n : Nat := 0
  /-- a number; 07 R189: B cycle that latched the change now running. -/
  edge : Nat := 0
  /-- 1 bit; 06 R155, 07 R194: the filter has run from the first latched value. -/
  primed : Bool := false
  deriving DecidableEq, Repr

/-- An input evaluator cell of channel B (R149, R150). -/
structure EvCell where
  /-- 1 bit; 06 R173: the pattern configures the cell. -/
  valid : Bool := false
  /-- 32 bits; 06 Table 6-9 type 0x01 word 1. -/
  w1 : Word := 0
  /-- 32 bits; 06 Table 6-9 type 0x01 word 2. -/
  w2 : Word := 0
  /-- 32 bits; 06 Table 6-9 type 0x01 word 3. -/
  w3 : Word := 0
  /-- filter; 06 R149: input a. -/
  a : InF := {}
  /-- filter; 06 R149: input b. -/
  b : InF := {}
  /-- state; 06 R149, 07 R193. -/
  st : ConnSt := .safe
  /-- 1 bit; 07 R194: the first levels have been taken. -/
  started : Bool := false
  /-- 1 bit; 06 R149, R206: a local lockout is held. -/
  lock : Bool := false
  /-- a number; 07 R193: e1 in B cycles. -/
  e1 : Nat := 0
  /-- 1 bit; 07 R193: the change at e1 was that of input b. -/
  firstB : Bool := false
  /-- a number; 06 R150: B cycle of the latest guard pass. -/
  guard : Option Nat := none
  /-- 1 bit; 07 R201: input a has failed one test pulse. -/
  tpA : Bool := false
  /-- 1 bit; 07 R201: input b has failed one test pulse. -/
  tpB : Bool := false
  /-- 8 bits; 07 R201: sources for which one foreign low was seen on input a. -/
  forA : Byte := 0
  /-- 8 bits; 07 R201: sources for which one foreign low was seen on input b. -/
  forB : Byte := 0
  deriving DecidableEq, Repr

/-- A release cell of channel B, or a release slot of channel A (R151, R205). -/
structure RelCell where
  /-- 1 bit; 06 R173, 07 SIN_RELr_CFG.VALID. -/
  valid : Bool := false
  /-- 5 bits; 06 Table 6-9, 07 SIN_RELr_CFG.INPUT. -/
  input : Fin 32 := 0
  /-- 1 bit; 06 Table 6-9, 07 SIN_RELr_CFG.ACTIVE_HIGH. -/
  high : Bool := false
  /-- 12 bits; 06 Table 6-9, 07 SIN_RELr_CFG.FILTER, B cycles; the register resets to 1. -/
  filter : BitVec 12 := 1
  /-- filter; 06 R151: the filtered input, true while active. -/
  f : InF := {}
  /-- state; 06 Table 6-3, 07 SIN_REL_STAT. -/
  st : RelSt := .idle
  /-- a number; 06 R151: n, B cycles active. -/
  n : Nat := 0
  /-- a number; 06 R151: m, B cycles inactive. -/
  m : Nat := 0
  /-- 1 bit; 06 R151: the release event of this B cycle. -/
  event : Bool := false
  /-- a number; 06 R164: B cycle in which the leading edge was evaluated. -/
  lead : Nat := 0
  deriving DecidableEq, Repr

/-- An analog window cell (R153). -/
structure WinCell where
  /-- 1 bit; 06 R173. -/
  valid : Bool := false
  /-- 32 bits; 06 Table 6-9 type 0x03 word 1. -/
  w1 : Word := 0
  /-- filter; 06 R153: its counted level is the inside output. -/
  f : InF := {}
  deriving DecidableEq, Repr

/-- A logic cell (R154). -/
structure LogCell where
  /-- 1 bit; 06 R173. -/
  valid : Bool := false
  /-- 32 bits; 06 Table 6-9 type 0x04 word 1. -/
  w1 : Word := 0
  /-- 32 bits; 06 Table 6-9 type 0x04 word 2. -/
  w2 : Word := 0
  /-- 32 bits; 06 Table 6-9 type 0x04 word 3. -/
  w3 : Word := 0
  /-- 32 bits; 06 Table 6-9 type 0x04 word 4. -/
  w4 : Word := 0
  /-- 1 bit; 06 R154: out. -/
  out : Bool := false
  /-- 24 bits; 06 R154: c. -/
  c : Nat := 0
  /-- 1 bit; 06 R154, R155: x of the previous cycle. -/
  prev : Bool := false
  deriving DecidableEq, Repr

/-- An output cell (R156 to R159). -/
structure OutCell where
  /-- 1 bit; 06 R173. -/
  valid : Bool := false
  /-- 32 bits; 06 Table 6-9 type 0x05 word 1. -/
  w1 : Word := 0
  /-- 1 bit; 06 R156: D. -/
  d : Bool := false
  /-- 1 bit; 06 R156, R158: L. -/
  l : Bool := false
  /-- a number; 06 R157: B cycles of the off-pulse still to run, P = 1 while it is above 0. -/
  p : Nat := 0
  /-- 1 bit; 06 R158: the off check has raised its fault and its condition has lasted since. -/
  offHigh : Bool := false
  /-- 1 bit; 06 R158: the previous switch B pulse failed the pulse check. -/
  failOnce : Bool := false
  /-- a number; 06 R158: B cycles for which switch B has been open by D = 0, L or H. -/
  openFor : Nat := 0
  /-- 1 bit; 06 R156: switch B commanded closed. -/
  closed : Bool := false
  deriving DecidableEq, Repr

/-- A partner-permit gate (R160). -/
structure GateCell where
  /-- 1 bit; 06 R173. -/
  valid : Bool := false
  /-- 32 bits; 06 Table 6-9 type 0x06 word 1. -/
  w1 : Word := 0
  /-- 1 bit; 06 R160: E. -/
  e : Bool := false
  /-- 1 bit; 06 R160: the transmit enable of the port. -/
  tx : Bool := false
  deriving DecidableEq, Repr

/-- A scan record as channel B latches it, with the B cycle that latched it (R111, R166). -/
structure ScanRec where
  /-- 32 bits × 5; 04 R111: the words of the record. -/
  words : List Word := []
  /-- a number; 06 R166: B cycle that latched it. -/
  at_ : Nat := 0
  deriving DecidableEq, Repr

/-- What the agreement monitor keeps of one core (R167 to R169). -/
structure Monitor where
  /-- 1 bit; 06 R167: a reference record exists since CROSS started. -/
  ref : Bool := false
  /-- 16 bits; 06 HLD_SEQ_Cn.SEQ. -/
  seq : Half := 0
  /-- 32 bits; 06 R167: sample time of the last accepted record. -/
  time : Word := 0
  /-- a number; 06 R168: B cycle from which a missing record is counted. -/
  since : Nat := 0
  /-- 1 bit; 06 R168: the count of a missing record runs. -/
  armed : Bool := false
  /-- 16 bits; 06 HLD_SEQ_Cn.DISCARDED, saturating. -/
  discarded : Half := 0
  /-- 16 bits; 06 HLD_AGREE_Cn.DIS_OUT. -/
  disOut : Half := 0
  /-- 4 bits; 06 HLD_AGREE_Cn.DIS_PORT. -/
  disPort : BitVec 4 := 0
  deriving DecidableEq, Repr

/-- A report of channel B's queue (R180). -/
structure BReport where
  /-- 8 bits; 06 R180: code of Table 6-12. -/
  code : Byte := 0
  /-- 8 bits; 06 R180: cell index, or core. -/
  cell : Byte := 0
  /-- a number; 06 R180: B time in B cycles. -/
  at_ : Nat := 0
  deriving DecidableEq, Repr

/-- The hard logic die (file 06). -/
structure HldS where
  /-- 1 bit; 06 R175: load mode. -/
  loadMode : Bool := true
  /-- 1 bit; 02 R40: the cast-on supervisor counts. -/
  superOn : Bool := false
  /-- 1 bit; 06 R175: the retired command was received. -/
  retired : Bool := false
  /-- words; 06 R176, R178: the stored pattern. -/
  store : List Word := []
  /-- 32 bits × 16; 06 Table 6-8: the pattern header. -/
  hdr : Tab Word 16 := Tab.fill 16 0
  /-- 32 bits; 06 R178: CRC of loading. -/
  loadCrc : Word := 0
  /-- cell × 64; 06 R149. -/
  ev : Tab EvCell 64 := Tab.fill 64 {}
  /-- cell × 8; 06 R151. -/
  rel : Tab RelCell 8 := Tab.fill 8 {}
  /-- cell × 16; 06 R153. -/
  win : Tab WinCell 16 := Tab.fill 16 {}
  /-- cell × 128; 06 R154. -/
  lg : Tab LogCell 128 := Tab.fill 128 {}
  /-- cell × 16; 06 R156. -/
  out : Tab OutCell 16 := Tab.fill 16 {}
  /-- cell × 4; 06 R160. -/
  gate : Tab GateCell 4 := Tab.fill 4 {}
  /-- 1 bit; 06 R162, HLD_STATUS.HOLD. -/
  h : Bool := true
  /-- code; 06 R161, HLD_STATUS.LINE_A: code of the last B cycle. -/
  line : LineCode := .asserted
  /-- code; 06 R162: code of the B cycle before. -/
  linePrev : LineCode := .asserted
  /-- 1 bit; 06 R164, HLD_STATUS.DEV_FAULT. -/
  devFault : Bool := false
  /-- 1 bit; 06 R164, HLD_STATUS.FATAL. -/
  fatal : Bool := false
  /-- 1 bit; 06 HLD_STATUS.PATTERN_OK. -/
  patternOk : Bool := false
  /-- 1 bit; 06 HLD_STATUS.VECTOR_OK. -/
  vectorOk : Bool := false
  /-- 1 bit; 06 R164, HLD_STATUS.RELEASE_SEEN. -/
  releaseSeen : Bool := false
  /-- 8 bits; 06 HLD_STATUS.FIRST_CAUSE. -/
  firstCause : Byte := 0
  /-- a number; 06 R164: B cycle that latched the device fault. -/
  faultAt : Nat := 0
  /-- 32 bits; 06 R146: input levels latched in this B cycle. -/
  lvls : Word := 0
  /-- 32 bits; 07 R184, R189: inputs in PULSED mode that still present a test sample, since the mask has ended and no
  periodic sample has followed. -/
  held : Word := 0
  /-- 32 bits, up to 6, latest first; 07 R201: latched input levels of the last B cycles. -/
  recent : List Word := []
  /-- 8 bits; 06 R146, 07 R201: source readbacks latched in this B cycle. -/
  srcRb : Byte := 0
  /-- a number × 8; 07 R200: B cycles since the rising edge of the readback, up to 12; 0 while low. -/
  srcSince : Tab Nat 8 := Tab.fill 8 12
  /-- 32 bits × 8; 07 R201: inputs high for the whole 50 µs before the mask of each source. -/
  srcWhole : Tab Word 8 := Tab.fill 8 0
  /-- 32 bits × 8; 07 R201: inputs high 50 µs before the mask of each source. -/
  srcBefore : Tab Word 8 := Tab.fill 8 0
  /-- 32 bits × 8; 07 R201: levels latched in the last B cycle with the readback low. -/
  srcSample : Tab Word 8 := Tab.fill 8 0
  /-- 16 bits; 06 R146: output readbacks latched in this B cycle. -/
  rb : Half := 0
  /-- up to 16 384 entries, latest first; 06 R165: D in [15:0], E in [19:16] of each B cycle. -/
  history : List (BitVec 20) := []
  /-- a number; 06 R165: B cycle of the latest entry. -/
  histCyc : Nat := 0
  /-- records, up to 8 of each core, in order of arrival; 06 R166: records held until an exchange pair exists. -/
  waiting : List ScanRec := []
  /-- up to 129 pairs, latest first; 06 R166, which maps with the latest 128, and 07 R190, whose 128 intervals lie between
  129: (A, B) with A in ticks and B in B cycles. -/
  pairs : List (DWord × Nat) := []
  /-- a number; 06 R171: B cycle of the last exchange, or of the start of CROSS. -/
  lastExch : Nat := 0
  /-- 1 bit; 06 R171: the TB_LOST count runs. -/
  exchArmed : Bool := false
  /-- 16 bits, signed; 06 HLD_TBX.DEV. -/
  dev : Half := 0
  /-- 16 bits; 06 HLD_TBX.COUNT, saturating. -/
  exchCount : Half := 0
  /-- 1 bit; 18 R473: the next interval of the exchange is not compared. -/
  skipNext : Bool := false
  /-- monitor × 4; 06 R167. -/
  mon : Tab Monitor 4 := Tab.fill 4 {}
  /-- a number × 16; 06 R169: start S of the open disagreement of each output. -/
  disStart : Tab (Option Nat) 16 := Tab.fill 16 none
  /-- a number × 4; 06 R169: start S of the open disagreement of each port. -/
  disPortStart : Tab (Option Nat) 4 := Tab.fill 4 none
  /-- widths × 16; 06 R146, R157: off-pulse requests waiting for the next clock 0, in order of arrival. -/
  req : Tab (List Nat) 16 := Tab.fill 16 []
  /-- records; 06 R146: scan records that wait for the next clock 0. -/
  inbox : List (List Word) := []
  /-- up to 16 reports; 06 R180. -/
  queue : List BReport := []
  /-- 16 bits; 06 HLD_DIAG.IGNORED, read-clear, saturating. -/
  ignored : Half := 0
  /-- 8 bits; 06 HLD_DIAG.DROPPED, read-clear, saturating. -/
  dropped : Byte := 0
  deriving DecidableEq, Repr

/-! ## Safe inputs of channel A (file 07) -/

/-- One safe input as channel A sees it. -/
structure InA where
  /-- 32 bits; 07 SIN_INn_CFG. -/
  cfg : Word := 0x000114F0
  /-- 1 bit; 07 R184: the level at the terminal. -/
  raw : Bool := false
  /-- 1 bit; 07 R184, R188: the level last sampled, in CONTINUOUS mode that at the terminal; a forced input keeps being sampled
  and presents this level again when its forcing ends. -/
  sampled : Bool := false
  /-- 1 bit; 07 R184, SIN_PRESENT: the presented level. -/
  present : Bool := false
  /-- 1 bit; 07 R189, SIN_LEVEL: the counted level. -/
  level : Bool := false
  /-- 1 bit; 07 R194: F has run from the first presented level. -/
  primed : Bool := false
  /-- 64 bits each, latest first; 07 R183, R201: times of the changes of the presented level, every change of the 50 µs before the
  latest one and at least the latest four. -/
  edges : List DWord := []
  /-- 64 bits; 07 R189: edge time of the change that runs through the filter. -/
  edge : DWord := 0
  /-- 64 bits; 07 R189, R200: moment from which the filter counts that change: its edge, later by the time spent in test masks. -/
  countFrom : DWord := 0
  /-- 1 bit; 07 R189: a change runs through the filter. -/
  running : Bool := false
  /-- 1 bit; 07 R189, R200: the presented level has changed inside the test mask, and what it means for the filter waits for
  the mask's end. -/
  masked : Bool := false
  /-- 1 bit; 07 R188, SIN_FORCED. -/
  forced : Bool := false
  /-- 6 bits; 07 SIN_INn_STAT.SETTLE_DELAY. -/
  settleDelay : BitVec 6 := 0
  /-- 6 bits; 07 SIN_INn_STAT.SETTLE_MEAS, saturating. -/
  settleMeas : BitVec 6 := 0
  /-- 64 and 6 bits; 07 R184: timebase A at which the latest sampling window opened, and its settle delay. -/
  win : Option (DWord × BitVec 6) := none
  /-- 64 and 6 bits; 07 R200: the same of the window inside the test mask. -/
  testWin : Option (DWord × BitVec 6) := none
  /-- 64 bits; 07 R184: sample point of that window, until it is taken. -/
  sampleAt : Option DWord := none
  /-- 64 bits; 07 R200: sample point of the window inside the test mask, until it is taken. -/
  testAt : Option DWord := none
  /-- 64 bits; 07 R187: timebase A of the latest gap of the sink in CONTINUOUS mode. -/
  gapAt : Option DWord := none
  /-- numbers in µs, up to 16, latest first; 07 R187: settle times of the last windows. -/
  settles : List Nat := []
  /-- a number; 07 R188: consecutive measurements above the maximum, up to 3. -/
  overN : Nat := 0
  /-- a number; 07 R188: consecutive measurements within the maximum, up to 3. -/
  within : Nat := 0
  /-- 1 bit; 07 SIN_INn_STAT.INPUT_SETTLE. -/
  settleFault : Bool := false
  /-- 1 bit; 07 SIN_INn_STAT.TP_FAIL. -/
  tpFail : Bool := false
  /-- 1 bit; 07 SIN_INn_STAT.TEST_PULSE. -/
  testPulse : Bool := false
  /-- 1 bit; 07 SIN_INn_STAT.CROSS_SHORT. -/
  crossShort : Bool := false
  /-- 3 bits; 07 SIN_INn_STAT.FOREIGN. -/
  foreign : BitVec 3 := 0
  /-- 8 bits; 07 R201: sources for which one foreign low was seen. -/
  forOnce : Byte := 0
  deriving DecidableEq, Repr

/-- One connection as channel A evaluates it (R193 to R198). -/
structure ConnA where
  /-- state; 07 R193. -/
  st : ConnSt := .safe
  /-- 1 bit; 07 R194: the first levels have been taken. -/
  started : Bool := false
  /-- 64 bits; 07 R193: e1. -/
  e1 : DWord := 0
  /-- 1 bit; 07 R193: the change at e1 was that of IN2k+1. -/
  firstB : Bool := false
  /-- 1 bit; 07 SINPAIR [2]: lockout cause DISCREPANCY. -/
  disc : Bool := false
  /-- 1 bit; 07 SINPAIR [3]: lockout cause TEST_PULSE or CROSS_SHORT. -/
  tp : Bool := false
  /-- 1 bit; 07 SINPAIR [4]: lockout cause INPUT_SETTLE or TP_SOURCE. -/
  settle : Bool := false
  /-- 1 bit; 07 R197, SINPAIR [5]: the lockout is a band lockout. -/
  band : Bool := false
  /-- 1 bit; 07 R196, SINPAIR [10]: a guard pass delays the enable. -/
  guardPend : Bool := false
  /-- 1 bit; 07 R196: the 100 µs of a guard pass run; a DISCREPANCY report within them locks, whatever the state. -/
  guardRun : Bool := false
  /-- 64 bits; 07 R196: timebase A of the guard pass. -/
  guardAt : DWord := 0
  /-- 64 bits; 07 R197: timebase A of the verdict or classification that began the wait. -/
  bandAt : DWord := 0
  /-- 64 bits; 07 R198: timebase A of the release event that asked for the clear decision. -/
  relAt : DWord := 0
  /-- 64 bits; 07 R198: timebase A of the level change that asked for the clear decision. -/
  safeAt : DWord := 0
  /-- 1 bit; 07 R195, R197: a timed-out DISCREPANCY waits for its second edge to be classified. -/
  unclassed : Bool := false
  /-- 1 bit; 07 R197: the 100 µs wait of a band fail runs. -/
  bandWait : Bool := false
  /-- 1 bit; 07 R196, R197: a DISCREPANCY report of the mirror cell has arrived since e1. -/
  reported : Bool := false
  /-- 1 bit; 07 R198, R206: a release event waits for its clear decision. -/
  clearRel : Bool := false
  /-- 1 bit; 07 R197, R198: the safe level waits for its clear decision of a band lockout. -/
  clearSafe : Bool := false
  deriving DecidableEq, Repr

/-- One pair index (R191). -/
structure PairA where
  /-- 32 bits; 07 SIN_PAIRk_CFG. -/
  cfg : Word := 0
  /-- 32 bits; 07 SIN_PAIRk_CFG2. -/
  cfg2 : Word := 0
  /-- connection; 07 R193: the two-input connection, or IN2k of two singles. -/
  lo : ConnA := {}
  /-- connection; 07 R191: IN2k+1 of two singles. -/
  hi : ConnA := {}
  /-- 16 bits; 07 SINPAIR [31:16]: d of the latest check in 0.1 ms, saturating. -/
  d01 : Half := 0
  /-- 28 bits; 07 SIN_PAIRk_LASTD. -/
  lastd : Word := 0
  deriving DecidableEq, Repr

/-- One test-pulse source (R199 to R202). -/
structure TpSrc where
  /-- 1 bit; 07 R199: the source is commanded high. -/
  drive : Bool := false
  /-- 1 bit; 18 R516: the level of the readback stage, presented while PD-FDIG is on and checked. -/
  raw : Bool := false
  /-- 1 bit; 07 SIN_TP_STAT.READBACK. -/
  rb : Bool := false
  /-- 64 bits; 07 R199: timebase A at which the latest low pulse began. -/
  pulseAt : DWord := 0
  /-- 64 bits; 07 R200: timebase A of the latest edge of the readback. -/
  rbAt : DWord := 0
  /-- 64 bits; 07 R202: since when the readback has differed from the command. -/
  diffAt : Option DWord := none
  /-- 1 bit; 07 R200: the test mask is in force. -/
  mask : Bool := false
  /-- 64 bits; 07 R200: timebase A at which the test mask began. -/
  maskAt : DWord := 0
  /-- 32 bits; 07 R201: inputs high for the whole 50 µs before the mask. -/
  whole : Word := 0
  /-- 32 bits; 07 R201: inputs high 50 µs before the mask. -/
  before : Word := 0
  /-- 32 bits; 07 R201: inputs low at the rising edge of the readback. -/
  low : Word := 0
  /-- 64 bits; 07 R201: moment of the foreign-low check, 50 µs after the mask. -/
  due : Option DWord := none
  /-- 1 bit; 07 SIN_TP_STAT.TP_SOURCE. -/
  cond : Bool := false
  /-- 64 bits; 07 R202: since when the readback has followed the command. -/
  okSince : Option DWord := none
  deriving DecidableEq, Repr

/-- A release slot of channel A: its cell and the delivery of its latest event (R204 to R207). -/
structure SlotA where
  /-- cell; 07 R205. -/
  cell : RelCell := {}
  /-- 64 bits; 07 R207: acceptance of the event now delivered. -/
  accepted : DWord := 0
  /-- 4 bits; 07 R207: cores that have not yet latched it. -/
  due : BitVec 4 := 0
  deriving DecidableEq, Repr

/-- A counting input (R208, R209). -/
structure CntA where
  /-- 32 bits; 07 SIN_CNTn. -/
  count : Word := 0
  /-- 32 bits; 07 SIN_CNTn_EDGE. -/
  edge : Word := 0
  deriving DecidableEq, Repr

/-- Inputs, connections, sources, release slots and counting inputs in channel A (file 07). -/
structure SinS where
  /-- input × 32; 07 R184. -/
  i : Tab InA 32 := Tab.fill 32 {}
  /-- pair × 16; 07 R191. -/
  pair : Tab PairA 16 := Tab.fill 16 {}
  /-- 32 bits; 07 SIN_TP_CFG. -/
  tpCfg : Word := 0x001E0064
  /-- source × 8; 07 R199. -/
  tp : Tab TpSrc 8 := Tab.fill 8 {}
  /-- slot × 8; 07 R204. -/
  slot : Tab SlotA 8 := Tab.fill 8 {}
  /-- counter × 4; 07 R209. -/
  cnt : Tab CntA 4 := Tab.fill 4 {}
  /-- 1 bit; 18 R516: a returned PD-FDIG is being configured and checked. -/
  checking : Bool := false
  deriving DecidableEq, Repr

/-! ## Safe outputs of channel A (file 08) -/

/-- An off-pulse in progress (R222, R224). -/
structure Pulse where
  /-- 1 bit; 08 R222: the pulse opens switch B. -/
  swB : Bool := false
  /-- 64 bits; 08 R224: timebase A at the opening. -/
  start : DWord := 0
  /-- 6 bits; 08 R226: width in 10 µs units. -/
  width : Nat := 6
  /-- 64 bits; 08 R224: timebase A at which the readback fell. -/
  fell : Option DWord := none
  /-- 1 bit; 08 Table 8-4: the demand went off, a lockout was set or the limit engaged. -/
  void : Bool := false
  /-- output; 08 R227: the other output of a joint pulse. -/
  joint : Option (Fin 16) := none
  deriving DecidableEq, Repr

/-- Reaction to a feed (R228). -/
structure Isol where
  /-- a number; 08 R228: switch B requests still to be sent. -/
  reqs : Nat := 0
  /-- output; 08 R228: partner still to be locked out. -/
  partner : Option (Fin 16) := none
  /-- 64 bits; 08 R228: timebase A of the latest step. -/
  at_ : DWord := 0
  deriving DecidableEq, Repr

/-- One safe output as channel A sees it. -/
structure OutA where
  /-- 32 bits; 08 SOUT_CHk_CFG. -/
  cfg : Word := 0x000A3200
  /-- 32 bits; 08 SOUT_CHk_CFG2. -/
  cfg2 : Word := 0x00C80000
  /-- 32 bits; 08 SOUT_CHk_FB. -/
  fb : Word := 0x00012C00
  /-- 1 bit; 08 OUTRB [1]: demand in force. -/
  demand : Bool := false
  /-- 1 bit; 08 OUTRB [2]: switch A closed. -/
  swa : Bool := false
  /-- 1 bit; 02 R46, R49: the switch A hold of the output. -/
  hold : Bool := true
  /-- 1 bit; 08 R234: the start gate has not let switch A close since the output last stood blocked. -/
  gated : Bool := true
  /-- 1 bit; 08 R219, 18 R516: the level of the readback stage, presented while PD-FDIG is on and checked. -/
  raw : Bool := false
  /-- 1 bit; 08 R219, OUTRB [0]: presented readback. -/
  rb : Bool := false
  /-- 64 bits; 08 R219: timebase A of the latest change of the presented readback. -/
  rbAt : DWord := 0
  /-- 64 bits; 08 R220: since when a switch has been commanded open outside an off-pulse. -/
  openSince : Option DWord := none
  /-- 64 bits; 08 R220: since when the output is commanded energised without pulse or limit and reads low. -/
  lowSince : Option DWord := none
  /-- 64 bits; 08 R230: since when the current limiter is active. -/
  limitSince : Option DWord := none
  /-- 64 bits; 08 R233: timebase A of the latest change of the commanded state. -/
  enAt : DWord := 0
  /-- 64 bits; 08 R219, R223: since when the output is commanded energised with a high readback. -/
  goodSince : Option DWord := none
  /-- 1 bit; 08 OUTRB [8]: the current limiter is active. -/
  limit : Bool := false
  /-- 1 bit; 08 R231: a junction reads 150 °C or more. -/
  hot : Bool := false
  /-- causes with partner or origin, earliest first; 08 R236, OUTRB [7:4] and [15:12]. -/
  causes : List (OutCause × Fin 16) := []
  /-- 6 bits; 08 SOUT_CHk_TRIM.WIDTH in 10 µs units. -/
  width : BitVec 6 := 0
  /-- 8 bits; 08 SOUT_CHk_TRIM.FALTERS, saturating. -/
  falters : Byte := 0
  /-- 9 bits; 08 SOUT_CHk_TRIM.LAST_FALL, saturating. -/
  lastFall : BitVec 9 := 0
  /-- switch; 08 Table 8-4: the next pulse repeats this switch (true: B). -/
  again : Option Bool := none
  /-- 1 bit; 08 Table 8-4, OUTRB [9]: suspect verdict, locate period running. -/
  suspect : Bool := false
  /-- output; 08 R227: partner named in the locate period. -/
  found : Option (Fin 16) := none
  /-- pulse; 08 R222. -/
  pulse : Option Pulse := none
  /-- 1 bit; 08 R227: a switched-off output is watched for a feed. -/
  watch : Bool := false
  /-- 64 bits; 08 R227: timebase A at which the watch began. -/
  watchAt : DWord := 0
  /-- 64; 14 R373: timebase A when the running switch test closed switch A. -/
  testAt : DWord := 0
  /-- reaction; 08 R228: feed reaction in progress. -/
  isol : Option Isol := none
  /-- 1 bit; 08 R220, R233: last commanded state seen by the feedback check. -/
  energised : Bool := false
  /-- 1 bit; 08 R233: the feedback has reached its expected value since the last change; 1 at first (DESIGN CHOICE, log 132). -/
  fbSettled : Bool := true
  /-- 1 bit; 14 R373: a switch test runs on the output. -/
  test : Bool := false
  deriving DecidableEq, Repr

/-- Outputs, banks and ownership in channel A (file 08). -/
structure SoutS where
  /-- output × 16; 08 R214. -/
  o : Tab OutA 16 := Tab.fill 16 {}
  /-- 32 bits; 08 SOUT_PULSE_CFG. -/
  pulseCfg : Word := 0x64
  /-- 1 bit × 2; 08 R218: BANK_SUPPLY condition; SOUT_BANK_STAT.VFn_OK reads its complement once monitoring runs. -/
  bankCond : Tab Bool 2 := Tab.fill 2 true
  /-- 32 bits; 01 R14, 06 Table 6-8 word 4: owning core of each output. -/
  owners : Word := 0
  /-- 32 bits; 01 R14, 06 Table 6-8 word 5: owning core of each port. -/
  portOwners : Word := 0
  /-- 16 bits; 01 R14, 06 Table 6-8 word 3: outputs with an output cell. -/
  used : Half := 0
  /-- 4 bits; 01 R14, 06 Table 6-8 word 3: ports with a gate. -/
  ports : BitVec 4 := 0
  /-- 4 bits; 06 Table 6-8 word 3: cores hosting safety functions. -/
  hosting : BitVec 4 := 0
  deriving DecidableEq, Repr

/-! ## Reports, log and self-test (file 14) -/

/-- An entry of the row counter table (R366, R367). -/
structure RctEntry where
  /-- 1 bit; 14 DIAG_RCTi.VALID. -/
  valid : Bool := false
  /-- 16 bits; 14 DIAG_RCTi.CODE. -/
  code : Half := 0
  /-- 4 bits; 14 DIAG_RCTi.SRC_CLASS. -/
  scls : BitVec 4 := 0
  /-- 3 bits; 14 DIAG_RCTi.CLASS. -/
  cls : FaultClass := .counted
  /-- 24 bits; 14 DIAG_RCTi.FIRST_SOURCE. -/
  src : BitVec 24 := 0
  /-- 16 bits; 14 DIAG_RCTi.COUNT, saturating. -/
  count : Half := 0
  /-- 48 bits; 14 DIAG_RCTi.FIRST in ms. -/
  first : BitVec 48 := 0
  /-- 48 bits; 14 DIAG_RCTi.LAST in ms. -/
  last : BitVec 48 := 0
  deriving DecidableEq, Repr

/-- A log record of four words (R370). -/
structure LogRec where
  /-- 32 bits; 14 DIAG_LOGj word 0. -/
  w0 : Word := 0
  /-- 32 bits; 14 DIAG_LOGj word 1. -/
  w1 : Word := 0
  /-- 32 bits; 14 DIAG_LOGj word 2. -/
  w2 : Word := 0
  /-- 32 bits; 14 DIAG_LOGj word 3. -/
  w3 : Word := 0
  deriving DecidableEq, Repr

/-- An entry of the reaction budget table (R374). -/
structure RbEntry where
  /-- 32 bits × 8; 14 DIAG_RBn. -/
  w : Tab Word 8 := Tab.fill 8 0
  deriving DecidableEq, Repr

/-- Row counter table, log, archive and reaction budget (file 14). -/
structure DiagS where
  /-- 32 bits; 14 DIAG_CFG. -/
  cfg : Word := 0x3C
  /-- entry × 256; 14 DIAG_RCTi. -/
  rct : Tab RctEntry 256 := Tab.fill 256 {}
  /-- 8 bits; 14 DIAG_STAT.OVERFLOW, saturating. -/
  overflow : Byte := 0
  /-- 8 bits; 14 DIAG_STAT.EVICTED, saturating. -/
  evicted : Byte := 0
  /-- 4 bits; 14 DIAG_CMD.RESULT. -/
  result : BitVec 4 := 0
  /-- 16 bits; 14 DIAG_SWTEST.TESTED. -/
  tested : Half := 0
  /-- 16 bits; 14 DIAG_SWTEST.PASSED. -/
  passed : Half := 0
  /-- 8 bits; 14 DIAG_RB_STAT.COUNT. -/
  rbCount : Byte := 0
  /-- 1 bit; 14 DIAG_RB_STAT.VALID. -/
  rbValid : Bool := false
  /-- entry × 128; 14 DIAG_RBn. -/
  rb : Tab RbEntry 128 := Tab.fill 128 {}
  /-- records by index 0-1023; 14 DIAG_LOGj; an unlisted record is all 0. -/
  log : Sparse LogRec := []
  /-- 10 bits; 14 DIAG_LOG_STAT.HEAD. -/
  head : BitVec 10 := 0
  /-- 16 bits; 14 DIAG_LOG_STAT.WRITTEN, saturating. -/
  written : Half := 0
  /-- 16 bits; 14 DIAG_LOGj word 3 [31:16]: sequence of the next record. -/
  seq : Half := 0
  /-- a number; 14 R370: records not yet in the archive. -/
  unarchived : Nat := 0
  /-- records by index 0-163839; 14 R370: the archive in flash; an unlisted record is erased and reads 0. -/
  archive : Sparse LogRec := []
  /-- a number; 14 R370: next archive record to write. -/
  archHead : Nat := 0
  /-- 18 bits; 14 DIAG_ARCH_IDX. -/
  archIdx : BitVec 18 := 0
  deriving DecidableEq, Repr

/-! ## Timers (file 09) -/

/-- One timer channel (R240 to R257). -/
structure TmrCh where
  /-- 32 bits; 09 TMR_CHn_CFG. -/
  cfg : Word := 0x00001F00
  /-- 32 bits; 09 TMR_CHn_TRIG. -/
  trig : Word := 0
  /-- 32 bits; 09 TMR_CHn_MOD; 0 stands for 2^32. -/
  modv : Word := 0
  /-- 32 bits; 09 TMR_CHn_PHASE. -/
  phase : Word := 0
  /-- 32 bits; 09 TMR_CHn_STEP. -/
  step : Word := 0
  /-- 32 bits; 09 TMR_CHn_CMP. -/
  cmp : Word := 0
  /-- 64 bits; 09 R240, R247, TMR_CHn_COUNT: count at the latest start or write; both halves on a linked even channel. -/
  count : DWord := 0
  /-- 64 bits; 09 R241: timebase A at the latest start of a FREE channel. -/
  base : DWord := 0
  /-- 1 bit; 09 TMR_CHn_STAT.RUN. -/
  run : Bool := false
  /-- 1 bit; 09 TMR_CHn_STAT.ARMED. -/
  armed : Bool := false
  /-- 64 bits, 32 bits, 1 bit; 09 R250, R251: the tick of the latest write of CMP, with CMP and ARMED as they stood at its start. -/
  cmpWas : Option (DWord × Word × Bool) := none
  /-- 64 bits, 64 bits; 09 Table 9-3 rank 7: the tick of the latest write of COUNT, with the count as it stood at its start. -/
  countWas : Option (DWord × DWord) := none
  /-- 1 bit; 09 TMR_CHn_STAT.CMPF, read-clear. -/
  cmpf : Bool := false
  /-- 1 bit; 09 TMR_CHn_STAT.WRAPF, read-clear. -/
  wrapf : Bool := false
  /-- 1 bit; 09 TMR_CHn_STAT.CAPRF. -/
  caprf : Bool := false
  /-- 1 bit; 09 TMR_CHn_STAT.CAPFF. -/
  capff : Bool := false
  /-- 1 bit; 09 TMR_CHn_STAT.PAIRED. -/
  paired : Bool := false
  /-- 1 bit; 09 TMR_CHn_STAT.LOCK. -/
  lock : Bool := false
  /-- kind (true: falling), timebase A, and 64 bits of count where the channel was started, stopped or written since; 09 R254: edges of
  the capture source on their way through the synchroniser, each with the count of the tick in which it arrived. -/
  sync : List (Bool × DWord × Option DWord) := []
  /-- 64 bits; 09 R250: timebase A of the tick of the latest compare match. -/
  cmpAt : Option DWord := none
  /-- 64 bits; 09 R253: timebase A of the tick in which the channel last raised its event. -/
  evAt : Option DWord := none
  /-- 1 bit and 32 bits; 09 TMR_CHn_STAT.HOLD, HOLD_EDGE, R256: kind (true: falling) and value held. -/
  hold : Option (Bool × Word) := none
  /-- 1 bit; 09 R255, R256: the falling capture in the hold followed the rising capture now in CAPR. -/
  holdPaired : Bool := false
  /-- 2 bits; 09 R255: the latest edge: 1 the rising edge in CAPR, 2 the rising edge in the hold, 0 any other. -/
  prev : BitVec 2 := 0
  /-- 1 bit; 09 TMR_CHn_STAT.ERR, read-clear. -/
  err : Bool := false
  /-- 8 bits; 09 TMR_CHn_STAT.LOST, read-clear, saturating. -/
  lost : Byte := 0
  /-- 32 bits; 09 TMR_CHn_CAPR. -/
  capr : Word := 0
  /-- 32 bits; 09 TMR_CHn_CAPF. -/
  capf : Word := 0
  /-- 32 bits; 09 TMR_CHn_SNAP. -/
  snap : Word := 0
  deriving DecidableEq, Repr

/-- One snap group (R245). -/
structure SnapG where
  /-- 32 bits; 09 TMR_SNAPg_MASK. -/
  mask : Word := 0
  /-- 5 bits; 09 TMR_SNAPg_OWNER. -/
  owner : BitVec 5 := 0x1F
  /-- 32 bits; 09 TMR_SNAPg_TIME. -/
  time : Word := 0
  deriving DecidableEq, Repr

/-- Timers (file 09). -/
structure TmrS where
  /-- channel × 32; 09 R240. -/
  ch : Tab TmrCh 32 := Tab.fill 32 {}
  /-- group × 16; 09 R245. -/
  grp : Tab SnapG 16 := Tab.fill 16 {}
  /-- 2 bits; 09 TMR_CMD.RESULT. -/
  result : BitVec 2 := 0
  /-- triggers; 09 R252: destination kind, index and tick of issue of triggers that act in the tick after. -/
  trigQ : List (Nat × Nat × DWord) := []
  deriving DecidableEq, Repr

/-! ## Current-loop channels (file 10) -/

/-- Lockout causes of an analog channel in the coding of ALPSTAT [9:6] (R284). -/
inductive AlpCause where
  | complianceLow | openLoop | loopShort | windowMismatch | gaugeFail | gaugeDrift | vanLow
  deriving DecidableEq, Repr

/-- One current-loop channel with its modem. -/
structure AlpCh where
  /-- 32 bits; 10 ALP_CHn_CFG. -/
  cfg : Word := 0x0000F000
  /-- 32 bits × 2; 10 ALP_CHn_WINk. -/
  win : Tab Word 2 := Tab.fill 2 0
  /-- 16 bits; 10 ALP_CHn_SET. -/
  set : Half := 0
  /-- 1 bit; 10 R266: the setpoint has not been written for 100 ms. -/
  timedOut : Bool := true
  /-- 16 bits; 10 ALPVAL.CODE. -/
  code : Half := 0
  /-- 8 bits; 10 ALPVAL.SEQ. -/
  seq : Byte := 0
  /-- 64 bits; 10 R266: timebase A of the latest setpoint write. -/
  setAt : DWord := 0
  /-- 64 bits; 10 R265: timebase A of the latest completed conversion. -/
  convAt : DWord := 0
  /-- 1 bit; 10 R264: a triggered conversion runs. -/
  conv : Bool := false
  /-- 1 bit; 10 R265, ALPSTAT [15]. -/
  stale : Bool := false
  /-- 2 bits; 10 R270: comparator levels of the analog loop die. -/
  cmp : BitVec 2 := 0
  /-- filter × 2; 10 R271: WIN0 and WIN1 of channel A. -/
  wf : Tab InF 2 := Tab.fill 2 {}
  /-- causes, earliest first; 10 R274, ALPSTAT [9:6]. -/
  causes : List AlpCause := []
  /-- 1 bit; 10 R267, ALPSTAT [10]. -/
  compliance : Bool := false
  /-- 1 bit; 10 R268, ALPSTAT [11]. -/
  openLoop : Bool := false
  /-- 1 bit; 10 R269, ALPSTAT [12]. -/
  short : Bool := false
  /-- 1 bit; 10 R269: the loop supply of a shorted loop is in its off time. -/
  supplyOff : Bool := false
  /-- 64 bits; 10 R269: timebase A at which the present off or on time of a shorted loop began. -/
  supplyAt : DWord := 0
  /-- 1 bit; 10 R273: the WINDOW_MISMATCH condition. -/
  mismatch : Bool := false
  /-- numbers × 4; 10 R273: for comparator k, consecutive conversions inside its window while it presents 0 (entry 2k) and outside it
  while it presents 1 (entry 2k + 1), up to 3, with timebase A of the first. -/
  mm : Tab (Nat × DWord) 4 := Tab.fill 4 (0, 0)
  /-- a number; 10 Table 10-6: consecutive conversions without a mismatch, up to 3. -/
  mmOk : Nat := 0
  /-- 1 bit; 10 R276: the latest gauge test failed. -/
  gaugeBad : Bool := false
  /-- 1 bit; 10 ALPSTAT [17]. -/
  gaugeOk : Bool := false
  /-- 1 bit; 10 R276: a gauge test has passed since cast-on. -/
  passed : Bool := false
  /-- 1 bit; 10 R276: a gauge test runs. -/
  gaugeRun : Bool := false
  /-- 64 bits; 10 R276: timebase A at the start of the gauge test. -/
  gaugeAt : DWord := 0
  /-- 1 bit; 10 R277: the GAUGE_DRIFT condition. -/
  drift : Bool := false
  /-- a number; 10 R277: consecutive gauge conversions in tolerance, up to 10. -/
  driftOk : Nat := 0
  /-- 1 bit; 10 R283: the VAN_LOW condition. -/
  vanLow : Bool := false
  /-- 16 bits; 10 ALP_CHn_TRIM.ZERO. -/
  zero : Half := 0
  /-- 16 bits; 10 ALP_CHn_TRIM.GAIN. -/
  gain : Half := 0
  /-- 8 bits; 10 ALP_CHn_DIAG.HEADROOM, saturating. -/
  headroom : Byte := 0
  /-- 8 bits; 10 ALP_CHn_DIAG.OVR, read-clear, saturating. -/
  ovr : Byte := 0
  /-- 32 bits; 10 ALP_CHn_CFG2. -/
  cfg2 : Word := 0
  /-- 10 bits each, up to 16; 10 Table 10-8: receive FIFO, character with parity and framing error. -/
  rx : List (BitVec 10) := []
  /-- 8 bits each, up to 16; 10 R280: transmit FIFO. -/
  tx : List Byte := []
  /-- 64 bits; 10 R280: timebase A at which the character now leaving the transmit FIFO began. -/
  txAt : DWord := 0
  /-- 1 bit; 10 ALP_MDMn_STAT.CD. -/
  cd : Bool := false
  /-- 1 bit; 10 ALP_MDMn_STAT.TX_ON. -/
  txOn : Bool := false
  /-- 1 bit; 10 ALP_MDMn_STAT.TX_OVF, read-clear. -/
  txOvf : Bool := false
  /-- 7 bits; 10 ALP_MDMn_STAT.ERRORS, read-clear, saturating. -/
  errors : BitVec 7 := 0
  /-- 8 bits; 10 ALP_MDMn_STAT.RX_DROPPED, read-clear, saturating. -/
  dropped : Byte := 0
  deriving DecidableEq, Repr

/-- Current-loop channels (file 10). -/
structure AlpS where
  /-- channel × 8; 10 R261. -/
  ch : Tab AlpCh 8 := Tab.fill 8 {}
  /-- 4 bits; 10 ALP_CMD.RESULT. -/
  result : BitVec 4 := 0
  /-- channel; 10 R278: the channel a trim is armed for. -/
  armed : Option (Fin 8) := none
  /-- 1 bit; 10 R278: an averaging second runs; true for the span point. -/
  avg : Option Bool := none
  /-- 64 bits; 10 R278: timebase A at which the averaging second began. -/
  avgAt : DWord := 0
  /-- 1 bit, 64 bits, 4 bits; 19 R487: the latest counted button (true: SPAN), timebase A of its evaluation, and RESULT before it. -/
  pressed : Option (Bool × DWord × BitVec 4) := none
  /-- 1 bit; 10 R278: the point an armed output channel drives; false 4.000 mA, true 20.000 mA. -/
  drive : Bool := false
  /-- numbers; 10 R278: sum and count of the conversions averaged so far. -/
  sum : Nat × Nat := (0, 0)
  deriving DecidableEq, Repr

/-! ## Session unit (file 11) -/

/-- One CSL session (R290 to R311). -/
structure Sess where
  /-- 32 bits; 11 CSL_SESSs_CFG. -/
  cfg : Word := 0x03000000
  /-- 32 bits; 11 CSL_SESSs_CFG2. -/
  cfg2 : Word := 0
  /-- 32 bits; 11 CSL_SESSs_CFG3. -/
  cfg3 : Word := 0x00020801
  /-- 32 bits; 11 CSL_SESSs_PEER. -/
  peer : Word := 0
  /-- 32 bits; 11 CSL_SESSs_ADDR. -/
  addr : Word := 0
  /-- 32 bits; 11 CSL_SESSs_ADDR2. -/
  addr2 : Word := 0
  /-- 32 bits; 11 CSL_SESSs_PARAM. -/
  param : Word := 0
  /-- state; 11 R304, CSLSESS [2:0]. -/
  st : SessSt := .closed
  /-- 4 bits; 11 CSLSESS [11:8]: CAUSE of the latest session fault. -/
  cause : BitVec 4 := 0
  /-- 1 bit; 11 R302, R303, CSLSESS [5]: quarantine of the connection ID. -/
  quar : Bool := false
  /-- 64 bits; 11 R302, R303: timebase A at which the quarantine began to count. -/
  quarAt : DWord := 0
  /-- 1 bit; 11 R304: an OPEN or RESTART is pending. -/
  pend : Bool := false
  /-- 16 bits; 11 R300, CSL_SESSs_INC. -/
  inc : Half := 0
  /-- 1 bit; 11 R300: the connection ID has been used since cast-on. -/
  used : Bool := false
  /-- 16 bits; 11 R301: last incarnation accepted as responder since cast-on. -/
  lastInc : Option Half := none
  /-- 32 bits; 11 R294, CSL_SESSs_TXSEQ. -/
  tx : Word := 0
  /-- 32 bits; 11 R295, CSL_SESSs_RXSEQ: L. -/
  l : Word := 0
  /-- 32 bits; 11 Table 11-1: sequence of the last telegram accepted from the peer, which the echo names. -/
  acc : Word := 0
  /-- 32 bits; 11 R297: E_acc. -/
  eAcc : Word := 0
  /-- 64 bits; 11 R297: send time of E_acc. -/
  accAt : Option DWord := none
  /-- 64 bits each, up to 32, latest first; 11 R296: send times of the telegrams T, T - 1, ... -/
  times : List DWord := []
  /-- bytes, up to 64; 11 R298: payload of the last accepted telegram. -/
  payload : List Byte := []
  /-- 1 bit; 11 CSLSESS [4]: FRESH. -/
  fresh : Bool := false
  /-- a number; 11 R311: SEALs of the owning core since entry to RUN, modulo DIV. -/
  divs : Nat := 0
  /-- 16 bits; 11 CSL_SESSs_CNT1.DROPPED, read-clear, saturating. -/
  dropped : Half := 0
  /-- 8 bits; 11 R306, CSL_SESSs_CNT1.RUN, saturating. -/
  run : Byte := 0
  /-- a number; 11 R306: dropped stitches of the current hour. -/
  hourNow : Nat := 0
  /-- a number; 11 R306: dropped stitches of the previous hour. -/
  hourPrev : Nat := 0
  /-- 8 bits; 11 CSL_SESSs_CNT2.STALE, read-clear, saturating. -/
  stale : Byte := 0
  /-- 8 bits; 11 CSL_SESSs_CNT2.AGED, read-clear, saturating. -/
  aged : Byte := 0
  /-- 8 bits; 11 CSL_SESSs_CNT2.UNEXPECTED, read-clear, saturating. -/
  unexpected : Byte := 0
  deriving DecidableEq, Repr

/-- One remote link (R312, R313). -/
structure LinkC where
  /-- 32 bits; 11 CSL_LINKi_CFG without LOCKED. -/
  cfg : Word := 0
  /-- 32 bits; 11 CSL_LINKi_MASK. -/
  mask : Word := 0
  /-- 1 bit; 11 CSL_LINKi_CFG.LOCKED. -/
  locked : Bool := false
  deriving DecidableEq, Repr

/-- The session unit (file 11). -/
structure CslS where
  /-- session × 256; 11 R290. -/
  s : Tab Sess 256 := Tab.fill 256 {}
  /-- link × 32; 11 R312. -/
  link : Tab LinkC 32 := Tab.fill 32 {}
  /-- 32 bits; 11 CSL_ID. -/
  id : Word := 0
  /-- 8 bits; 11 R300, CSL_EPOCH: epoch of this cast-on. -/
  epoch : Byte := 0
  /-- 16 bits; 11 CSL_UDP_PORT. -/
  udpPort : Half := 0xC5C5
  /-- 8 bits × 3; 11 CSL_UNKNOWN of UDP, CAN, host link, read-clear, saturating. -/
  unknown : Tab Byte 3 := Tab.fill 3 0
  /-- telegrams, up to 16, oldest first; 11 R314, R315: CSL_HL_TX queue. -/
  hlTx : List (List Byte) := []
  /-- telegrams, up to 16, oldest first; 11 R315: host-link receive queue. -/
  hlRx : List (List Byte) := []
  /-- 1 bit; 11 CSL_HL_STAT.RX_OVF, read-clear. -/
  rxOvf : Bool := false
  /-- a number; 11 R306: the whole hour of timebase A that the current hour counts belong to. -/
  hour : Nat := 0
  /-- 64 bits; 11 R318: timebase A of the latest EV98, which comes at most once per 10 ms. -/
  ev98At : Option DWord := none
  deriving DecidableEq, Repr

/-! ## String carrier (file 12) -/

/-- One entry of a partner table with its pairing record and equaliser record (R333 to R337, R343). -/
structure Partner where
  /-- 2 bits; 12 CSC_Pp_PTABa.ENTRY: 0 free, 1 paired, 2 missing, 3 group mismatch. -/
  entry : BitVec 2 := 0
  /-- 6 bits; 12 CSC_Pp_PTABa.GROUP. -/
  group : BitVec 6 := 0
  /-- 2 bits; 12 CSC_Pp_PTABa.STATE. -/
  state : BitVec 2 := 0
  /-- 16 bits; 12 CSC_Pp_PTABa.FAULT. -/
  fault : Half := 0
  /-- 8 bits; 12 CSC_Pp_PTABa.SILENT_ROT, saturating. -/
  silent : Byte := 0
  /-- 8 bits; 12 CSC_Pp_PTABa.SNR. -/
  snr : Byte := 0
  /-- 8 bits; 12 CSC_Pp_PTABa.ROWS_MISSED, saturating. -/
  missed : Byte := 0
  /-- 48 bits; 12 R335, R336: serial of the pairing. -/
  sn : BitVec 48 := 0
  /-- 1 bit; 12 R343: an equaliser record of the partner is kept in the shared SRAM. -/
  eq : Bool := false
  /-- 1 bit; 12 R343: the latest REPORT failed. -/
  eqFail : Bool := false
  deriving DecidableEq, Repr

/-- What a port waits for on the string (R333, R337, R339). -/
inductive CscWait where
  | idle
  | query
  | poll (addrs : List (BitVec 10)) (rotation : Bool) (search : Bool)
  | pair (host : Bool)
  deriving DecidableEq, Repr

/-- A pairing or unpairing command under way (R333, R334). -/
inductive CscJob where
  | pair (a : BitVec 10) (sn : BitVec 48) (tries : Nat)
  | unpair (a : BitVec 10) (send : Bool) (silent : Nat)
  deriving DecidableEq, Repr

/-- Phases of the 32 tones of a carrier symbol in units of 5.625° (12 R322). -/
abbrev Tones := Tab (BitVec 6) 32

/-- One carrier port (R320 to R346). -/
structure CscPort where
  /-- 32 bits; 12 CSC_Pp_CFG. -/
  cfg : Word := 0x00030A10
  /-- 8 bits; 20 R505, Table 20-7: transmit level in 0.5 V steps, 4 to 16; default 6.0 V. -/
  level : Byte := 12
  /-- 32 bits; 12 CSC_Pp_SKEIN. -/
  skein : Word := 0
  /-- 16 bits; 12 CSC_Pp_CONN.CONN_ID. -/
  conn : Half := 0
  /-- 16 bits; 12 R329, CSC_Pp_CONN.INC. -/
  inc : Half := 0
  /-- 1 bit; 12 R329: the row connection ID has been used since cast-on. -/
  used : Bool := false
  /-- 32 bits; 12 R327: skein parameter code, named by the image. -/
  param : Word := 0
  /-- 32 bits; 12 R326, CSC_Pp_SEQ: sequence of the last row telegram sent. -/
  seq : Word := 0
  /-- state; 12 R328. -/
  st : SkeinSt := .off
  /-- 1 bit; 12 R344, CSCST [4]: skein lockout. -/
  locked : Bool := false
  /-- 1 bit; 12 R344: the previous ROW frame was sent at less than 70 % of its level. -/
  lowOnce : Bool := false
  /-- a number; 12 Table 12-10: consecutive row periods with the level in tolerance, up to 10. -/
  okRows : Nat := 0
  /-- a number; 12 R328: OPEN slots sent in START. -/
  starts : Nat := 0
  /-- a number; 12 R327: row periods of RUN, modulo 16. -/
  rows : Nat := 0
  /-- telegram and its permits; 12 R325: the row telegram built for the next row slot. -/
  built : Option (List Byte × DWord) := none
  /-- 64 bits; 12 CSC_Pp_PERMIT0, 1: permits of the last row telegram sent. -/
  permits : DWord := 0
  /-- frames, earliest first; 12 R322, R324: frames handed to the transmit pair since the row slot began. -/
  sent : List (List Byte) := []
  /-- symbols of 32 phases; 12 R321, R322: those frames as symbols on the line, earliest first. -/
  wave : List Tones := []
  /-- 64 bits; 12 R324: timebase A at which the row slot began. -/
  slotAt : DWord := 0
  /-- a number; 12 R324: symbols of 720 µs of this row period already taken. -/
  pos : Nat := 0
  /-- item; 12 R324: what the port waits for. -/
  wait : CscWait := .idle
  /-- 1 bit; 12 R342, CSCST [6]: common-cause event open. -/
  common : Bool := false
  /-- a number; 12 R342: 0 until a rotation begins after the event, 1 while that rotation runs. -/
  commonRot : Nat := 0
  /-- 4 bits; 12 CSC_Pp_SEARCH.ROUNDS. -/
  rounds : BitVec 4 := 0
  /-- 1 bit; 12 CSC_Pp_SEARCH.ACTIVE. -/
  active : Bool := false
  /-- 1 bit; 12 CSC_Pp_SEARCH.COMMON. -/
  endedCommon : Bool := false
  /-- 5 bits; 12 CSC_Pp_SEARCH.LOCATED, saturating. -/
  located : BitVec 5 := 0
  /-- 10 bits; 12 CSC_Pp_SEARCH.LAST. -/
  lastLoc : BitVec 10 := 0
  /-- sets of the round, prefix length and address; 12 R339. -/
  sets : List (Nat × BitVec 10) := []
  /-- addresses; 12 R339: located partners still to be polled. -/
  polls : List (BitVec 10) := []
  /-- 11 bits; 12 CSC_Pp_ROTATION.NEXT. -/
  next : BitVec 11 := 0
  /-- 1 bit; 12 R337: the current rotation has begun. -/
  rotOn : Bool := false
  /-- 64 bits; 12 R337: timebase A at which it began. -/
  rotAt : DWord := 0
  /-- 16 bits; 12 CSC_Pp_ROTATION.LAST_CYCLE in 0.1 s. -/
  lastCycle : Half := 0
  /-- addresses; 12 R336: partners to be paired again, with the tries made. -/
  repair : List (BitVec 10 × Nat) := []
  /-- job; 12 R333, R334: the host's pairing or unpairing command under way on this port. -/
  job : Option CscJob := none
  /-- 10 bits; 12 CSC_CMD: the address of the host's POLL under way on this port. -/
  pollJob : Option (BitVec 10) := none
  /-- 8 bits; 12 CSC_Pp_CNT.ROW_CUT, read-clear, saturating. -/
  rowCut : Byte := 0
  /-- 8 bits; 12 CSC_Pp_CNT.EMPTY, read-clear, saturating. -/
  empty : Byte := 0
  /-- 8 bits; 12 CSC_Pp_CNT.FLAGS_COUNTED, read-clear, saturating. -/
  flags : Byte := 0
  /-- 8 bits; 12 CSC_Pp_CNT.COMMON, read-clear, saturating. -/
  commons : Byte := 0
  /-- 16 bits; 12 CSC_Pp_RXCNT.REPORTS, read-clear, saturating. -/
  reports : Half := 0
  /-- 16 bits; 12 CSC_Pp_RXCNT.FRAME_ERR, read-clear, saturating. -/
  frameErr : Half := 0
  /-- 32 bits × 64; 12 CSC_Pp_GRPg. -/
  grp : Tab Word 64 := Tab.fill 64 0
  /-- entries by address 0-1023; 12 R335, CSC_Pp_PTABa; an unlisted entry is free. -/
  tab : Sparse Partner := []
  deriving DecidableEq, Repr

/-- The string carrier (file 12). -/
structure CscS where
  /-- port × 4; 12 R320. -/
  p : Tab CscPort 4 := Tab.fill 4 {}
  /-- 4 bits; 12 CSC_CMD.RESULT. -/
  result : BitVec 4 := 0
  /-- 48 bits; 12 CSC_PAIR_SN_LO, CSC_PAIR_SN_HI. -/
  pairSn : BitVec 48 := 0
  deriving DecidableEq, Repr

/-! ## Check-value units and DMA (file 13) -/

/-- One check-value unit (R348 to R355). -/
structure Cvu where
  /-- 32 bits; 13 CVU_Un_CFG. -/
  cfg : Word := 0x201F0007
  /-- 32 bits; 13 CVU_Un_POLY. -/
  poly : Word := 0x1EDC6F41
  /-- 32 bits; 13 CVU_Un_INIT. -/
  init : Word := 0xFFFFFFFF
  /-- 32 bits; 13 CVU_Un_XOROUT. -/
  xorout : Word := 0xFFFFFFFF
  /-- 32 bits; 13 R349, CVU_Un_VALUE: the finished check value, before the complement of R352. -/
  value : Word := 0
  /-- 2 bits; 13 R351, CVU_Un_STAT.SEQ. -/
  st : SeqSt := .fresh
  /-- 1 bit; 13 R351, CVU_Un_STAT.SEQERR. -/
  seqerr : Bool := false
  /-- 1 bit; 13 CVU_Un_STAT.MATCH. -/
  match_ : Bool := false
  /-- 1 bit; 13 CVU_Un_STAT.DONE, read-clear. -/
  done : Bool := false
  /-- 1 bit; 13 CVU_Un_STAT.ERR, read-clear. -/
  err : Bool := false
  /-- 16 bits; 13 CVU_Un_STAT.BYTES, saturating. -/
  bytes : Half := 0
  /-- 32 bits; 13 CVU_Un_CTXS_WORD. -/
  ctxs : Word := 0
  /-- 32 bits; 13 CVU_Un_CTXE_WORD. -/
  ctxe : Word := 0
  /-- 32 bits; 13 CVU_Un_EXPECT. -/
  expect : Word := 0
  deriving DecidableEq, Repr

/-- One DMA channel (R356 to R359). -/
structure Dma where
  /-- 32 bits; 13 DMA_CHd_CFG. -/
  cfg : Word := 0x1F000400
  /-- 32 bits; 13 DMA_CHd_SRC. -/
  src : Word := 0
  /-- 32 bits; 13 DMA_CHd_DST. -/
  dst : Word := 0
  /-- 24 bits; 13 DMA_CHd_COUNT. -/
  count : BitVec 24 := 0
  /-- 32 bits; 13 R357: SRC at the START, which CIRC reloads. -/
  src0 : Word := 0
  /-- 32 bits; 13 R357: DST at the START. -/
  dst0 : Word := 0
  /-- 24 bits; 13 R357: COUNT at the START. -/
  count0 : BitVec 24 := 0
  /-- 1 bit; 13 DMA_CHd_STAT.BUSY. -/
  busy : Bool := false
  /-- 1 bit; 13 DMA_CHd_STAT.DONE, read-clear. -/
  done : Bool := false
  /-- 1 bit; 13 DMA_CHd_STAT.ERR, read-clear. -/
  err : Bool := false
  /-- 1 bit; 13 DMA_CHd_STAT.OVR, read-clear. -/
  ovr : Bool := false
  /-- 4 bits; 13 DMA_CHd_STAT.CODE. -/
  code : BitVec 4 := 0
  /-- a number; 13 R357: elements left of the burst under way. -/
  burst : Nat := 0
  /-- 1 bit; 13 R357: a request is held. -/
  held : Bool := false
  /-- 2 bits; 13 DMA_CHd_CMD.RESULT. -/
  result : BitVec 2 := 0
  deriving DecidableEq, Repr

/-- Check-value units and DMA channels (file 13). -/
structure CvuS where
  /-- unit × 4; 13 R348. -/
  u : Tab Cvu 4 := Tab.fill 4 {}
  /-- channel × 16; 13 R356. -/
  d : Tab Dma 16 := Tab.fill 16 {}
  deriving DecidableEq, Repr

/-! ## Fuse array (file 15) -/

/-- One word of the array as a read at each margin gives it (R386). -/
structure Fuse where
  /-- 32 bits; 15 R386: bits that read 1 at normal margin. -/
  n : Word := 0
  /-- 32 bits; 15 R386: bits that read 1 at tight margin. -/
  t : Word := 0
  deriving DecidableEq, Repr

/-- The OTP array, the tap bits and the controller (file 15). -/
structure OtpS where
  /-- words by 128 × region + word; 15 R379: an unlisted word is blank. -/
  w : Sparse Fuse := []
  /-- 64 bits × 3; 15 R382: copies of each tap bit at normal margin. -/
  tapN : Tab DWord 3 := Tab.fill 3 0
  /-- 64 bits × 3; 15 R382: copies of each tap bit at tight margin. -/
  tapT : Tab DWord 3 := Tab.fill 3 0
  /-- 64 bits; 15 R381, OTP_TAP_LO, HI: resolved tap bits; restrictive values until TAP ends. -/
  tap : DWord := 0xF7
  /-- 1 bit; 15 R381: TAP has ended, so users and OTP_TAP see the resolved values. -/
  tapped : Bool := false
  /-- 64 bits; 15 R382, OTP_TAPWEAK_LO, HI. -/
  tapWeak : DWord := 0
  /-- words; 15 R386, OTP_SHADOWr_w: shadows loaded at SENSE. -/
  shadow : Sparse Word := []
  /-- 1 bit; 15 OTP_STATUS.SENSED. -/
  sensed : Bool := false
  /-- 1 bit; 15 OTP_STATUS.BUSY. -/
  busy : Bool := false
  /-- 4 bits; 15 R392: RESULT with which the running command ends. -/
  ending : BitVec 4 := 0
  /-- region; 15 R397, OTP_STATUS.ARMED. -/
  armed : Option (Fin 16) := none
  /-- 16 bits; 15 R399, OTP_ALARM.ALARM. -/
  alarm : Half := 0
  /-- 16 bits; 15 R397, OTP_ALARM.SEALED_INCOMPLETE. -/
  incomplete : Half := 0
  /-- 16 bits; 15 R395, OTP_STICKY. -/
  sticky : Half := 0
  /-- 16 bits; 15 R398, OTP_LOCK.READ: read-lock fuses in force. -/
  rlock : Half := 0
  /-- 32 bits; 15 OTP_ADDR. -/
  addr : Word := 0
  /-- 32 bits; 15 OTP_DATA. -/
  data : Word := 0
  /-- 4 bits; 15 OTP_CMD.RESULT. -/
  result : BitVec 4 := 0
  /-- 32 bits; 15 OTP_READ_N. -/
  readN : Word := 0
  /-- 32 bits; 15 OTP_READ_T. -/
  readT : Word := 0
  /-- 32 bits; 15 OTP_CHECK. -/
  check : Word := 0
  /-- bits by 32 × word address + bit; 15 R387, OTP_STATUS.WEAK_PENDING: weak bits that wait for the re-pulse service. -/
  weak : List Nat := []
  /-- (tap bit, copy); 15 R382, R383: tap copies that wait for the re-pulse service; copy 3 is the mirror bit. -/
  tapTodo : List (Fin 64 × Fin 4) := []
  /-- words and bits; 15 R394: blank copies of region 7 that wait to be completed. -/
  copies : List (Nat × Nat) := []
  /-- 64 bits; 15 R37: timebase A of the latest bit of the re-pulse service, which gives at most one per 10 ms. -/
  repulseAt : Option DWord := none
  /-- 1 bit; 15 R384: the boot core still has to program DEBUG_LOCK. -/
  lockDebug : Bool := false
  /-- 1 bit; 15 R384: the debug port is open. -/
  debugOpen : Bool := false
  deriving DecidableEq, Repr

/-! ## Images, commissioning and update (file 16) -/

/-- What UPD_SLOTs shows of one flash area. -/
structure SlotInfo where
  /-- 1 bit; 16 UPD_SLOTs.VALID. -/
  valid : Bool := false
  /-- 1 bit; 16 UPD_SLOTs.FROGGED. -/
  frogged : Bool := false
  /-- 32 bits; 16 UPD_SLOTs.CODE. -/
  code : Word := 0
  /-- 32 bits; 16 UPD_SLOTs.VERSION. -/
  version : Word := 0
  /-- 32 bits; 16 UPD_SLOTs.SV. -/
  sv : Word := 0
  deriving DecidableEq, Repr

/-- Where a section of the running image was loaded, with its hash (R408). -/
structure Loaded where
  /-- 8 bits; 16 Table 16-3: section type. -/
  type : Byte := 0
  /-- 8 bits; 16 R404: target. -/
  target : Byte := 0
  /-- 32 bits; 16 R404: load address. -/
  addr : Word := 0
  /-- 32 bits; 16 R404: length in bytes. -/
  len : Word := 0
  /-- 256 bits; 16 R404, R408: SHA-256. -/
  hash : List Byte := []
  /-- bytes; 02 Table 2-4: of a parameter block (types 0x10 to 0x13), the block as the boot core keeps it; empty for a section that
  went into an engine's memory. -/
  data : List Byte := []
  deriving DecidableEq, Repr

/-- A commit under way (R55, R415). -/
structure Commit where
  /-- a number; 16 R415: index of the thermometer step. -/
  idx : Nat := 0
  /-- 1 bit; 16 Table 16-6: first commissioning. -/
  first : Bool := false
  /-- a number; 02 R55: step that falls due next: 0 intent, 1 life-cycle, 2 done. -/
  phase : Nat := 0
  deriving DecidableEq, Repr

/-- A record of the settings store, by its kind (Table 16-10). -/
inductive SetBody where
  /-- Kind 0x01: CSL_EPOCH (R300). -/
  | epoch (e : Byte)
  /-- Kind 0x02: field trims of ALP0-7, ZERO [15:0] and GAIN [31:16] (R279). -/
  | trims (t : Tab Word 8)
  /-- Kind 0x03 + p: partner table of CSCp (R335). -/
  | table (p : Fin 4) (t : Sparse Partner)
  /-- Kind 0x10: non-safety settings with the settings-format ID (R447). -/
  | settings (id : Half) (n : NetSet)
  deriving DecidableEq, Repr

/-- One copy of a settings record in the flash (R425). -/
structure SetCopy where
  /-- 32 bits; 16 R425: flash offset. -/
  off : Word
  /-- record; 16 Table 16-10: the content. -/
  body : SetBody
  /-- 32 bits; 16 R425: the CRC-32C as stored. -/
  crc : Word
  deriving DecidableEq, Repr

/-- Images, journal, commissioning, settings store and update (file 16). -/
structure UpdS where
  /-- bytes by flash offset; 16 R402: slots, journal and recovery image; an erased or unlisted byte reads 0xFF. -/
  flash : Sparse Byte := []
  /-- 2 bits; 16 UPD_LEASE.OWNER. -/
  owner : BitVec 2 := 0
  /-- 4 bits; 16 UPD_LEASE.RESULT. -/
  leaseResult : BitVec 4 := 0
  /-- 64 bits; 16 R423, UPD_STATUS.LEASE_IDLE: timebase A of the owner's last accepted write. -/
  leaseAt : DWord := 0
  /-- 4 bits; 16 UPD_CMD.RESULT. -/
  result : BitVec 4 := 0
  /-- 32 bits; 16 UPD_ARG. -/
  arg : Word := 0
  /-- 32 bits; 16 UPD_OFFSET. -/
  offset : Word := 0
  /-- phase; 16 UPD_STATUS.UPDATE. -/
  phase : UpdPhase := .idle
  /-- 2 bits; 16 R424: target of the update: 0 slot A, 1 slot B, 2 recovery. -/
  target : BitVec 2 := 0
  /-- 1 bit; 16 R413, UPD_STATUS.ARMED. -/
  armed : Bool := false
  /-- 64 bits; 16 R413, UPD_STATUS.ARM_LEFT: timebase A of the arming. -/
  armedAt : DWord := 0
  /-- commit; 16 R415, UPD_STATUS.COMMITTING. -/
  commit : Option Commit := none
  /-- 1 bit; 16 R421, UPD_STATUS.CONFIRMING. -/
  confirming : Bool := false
  /-- area; 16 UPD_SLOTs.RUNNING: 0 slot A, 1 slot B, 2 recovery. -/
  running : Option (BitVec 2) := none
  /-- 32 bits; 16 UPD_CODE. -/
  code : Word := 0
  /-- 32 bits; 16 R411, UPD_COMMISSIONED. -/
  commissioned : Option Word := none
  /-- 2 bits; 16 R411, UPD_SLOTs.ACTIVE. -/
  active : BitVec 2 := 0
  /-- 1 bit; 16 UPD_TRIAL.TRIAL. -/
  trial : Bool := false
  /-- 1 bit; 16 UPD_TRIAL.RULE: the commissioning rule. -/
  rule : Bool := false
  /-- 2 bits; 16 UPD_TRIAL.COUNT. -/
  trialCount : BitVec 2 := 0
  /-- 64 bits and a length in s; 16 R418, UPD_TRIAL.LEFT: start and length of the trial time now running. -/
  trialTime : Option (DWord × Nat) := none
  /-- area × 3; 16 UPD_SLOTs. -/
  slot : Tab SlotInfo 3 := Tab.fill 3 {}
  /-- 1 bit; 16 UPD_JOURNAL.SECTOR. -/
  sector : Bool := false
  /-- 11 bits; 16 UPD_JOURNAL.USED. -/
  jUsed : BitVec 11 := 0
  /-- 32 bits; 16 R410, UPD_JOURNAL.GENERATION. -/
  gen : Word := 0
  /-- 32 bits; 16 R409: sequence of the next marker. -/
  jSeq : Word := 0
  /-- 64 bits; 16 R428: timebase A of a first request for RETIRED. -/
  retireAt : Option DWord := none
  /-- 32 bits × 64; 16 R403: header of the running image. -/
  hdr : Tab Word 64 := Tab.fill 64 0
  /-- sections; 16 R408: sections of the running image with their hashes. -/
  secs : List Loaded := []
  /-- pattern words; 16 R408: the channel B pattern of the running image. -/
  pattern : List Word := []
  /-- copies; 16 R425, Table 16-10: the settings store, newest copy first. -/
  store : List SetCopy := []
  /-- 32 bits; 16 R425, Table 16-1: flash place of the next copy in the settings store. -/
  storeAt : Word := 0xC10000
  /-- 1 bit; 16 R426: a new record 0x10 is written after SAFE-HOLD. -/
  newSet : Bool := false
  deriving DecidableEq, Repr

/-- Why the machine stops although the spec raises no reaction. Raised by no command of this model: every fault the spec
describes is a change of state. Safe. -/
inductive Fault where
  | none_
  deriving DecidableEq, Repr

/-- Why a command has no meaning. -/
inductive Refusal where
  /-- Raised by `exec` for a command the model has not reached. Safe: nothing is claimed of it. -/
  | notModelled (mnemonic : String)
  deriving DecidableEq, Repr

/-- The whole block. -/
structure State where
  /-- structure; 01 Table 1-9: clocks. -/
  t : TimeS := {}
  /-- structure; 02: run state. -/
  sys : SysS := {}
  /-- structure; 18: supplies and pins. -/
  pwr : PwrS := {}
  /-- structure; 17: host link. -/
  link : LinkS := {}
  /-- structure; 17: host event flags. -/
  evt : EvtS := {}
  /-- structure; 03: engines. -/
  eng : EngS := {}
  /-- structure; 03: memories. -/
  mem : MemS := {}
  /-- structure; 06: channel B. -/
  hld : HldS := {}
  /-- structure; 07: inputs. -/
  sin : SinS := {}
  /-- structure; 08: outputs. -/
  sout : SoutS := {}
  /-- structure; 14: reports and log. -/
  diag : DiagS := {}
  /-- structure; 09: timers. -/
  tmr : TmrS := {}
  /-- structure; 10: current-loop channels. -/
  alp : AlpS := {}
  /-- structure; 11: session unit. -/
  csl : CslS := {}
  /-- structure; 12: string carrier. -/
  csc : CscS := {}
  /-- structure; 13: check-value units and DMA. -/
  cvu : CvuS := {}
  /-- structure; 15: fuse array. -/
  otp : OtpS := {}
  /-- structure; 16: images and update. -/
  upd : UpdS := {}
  /-- commands; the model's own: commands that wait, first in, first out. -/
  pending : List Instr := []
  /-- a number; the model's own: index of the next free value (a value the spec leaves undefined). -/
  fresh : Nat := 0
  deriving DecidableEq, Repr

/-- The machine before its first power-good: held in reset, every register at its stated reset value. -/
def State.reset : State := {}

end Sys2Proof.Machine
end

