-- ==== Sys2Proof/Machine/Store.lean ====
section
/-! DEFINITION. The settings store (R425, R426): records of the kinds of Table 16-10, each with its own CRC-32C over its flash
offset, kind and content, each rewritten whole at a new place; the newest valid copy of a kind is in force. -/

namespace Sys2Proof.Machine

/-- The content of a record as words, for its CRC-32C. The spec gives the content of a kind and not its layout. -/
def SetBody.words : SetBody → List Word
  | .epoch e => [0x01, at_ e.toNat 0]
  | .trims t => 0x02 :: t.toList
  | .table p t => (0x03 + BitVec.ofNat 32 p.val) :: t.flatMap fun (e : Nat × Partner) =>
      [BitVec.ofNat 32 e.1 ||| at_ e.2.entry.toNat 10 ||| at_ e.2.group.toNat 12 ||| at_ (e.2.sn.toNat / 0x100000000) 18,
       e.2.sn.truncate 32]
  | .settings id n =>
      [0x10, at_ id.toNat 0] ++ n.ip.toList ++ n.mask.toList ++ n.gw.toList ++ [n.svc, n.reqId, n.rspId] ++ n.can.toList ++
        (List.range 4).map fun k => n.irqen.extractLsb' (32 * k) 32

/-- Two records are of one kind (Table 16-10). -/
def SetBody.sameKind (a b : SetBody) : Bool := a.words.head? == b.words.head?

/-- The CRC-32C of a record at a flash offset (R425). -/
def SetBody.crc (b : SetBody) (off : Word) : Word := crcWords (off :: b.words)

/-- A copy of a record is valid (R425). -/
def SetCopy.valid (c : SetCopy) : Bool := c.crc == c.body.crc c.off

/-- The newest valid copy of the kind that `f` picks (R425). -/
def newestOf {α : Type} (f : SetBody → Option α) (l : List SetCopy) : Option α :=
  l.findSome? fun c => if c.valid then f c.body else none

/-- CSL_EPOCH of the settings store; 0 where no copy is valid. -/
def UpdS.epoch (u : UpdS) : Byte := (newestOf (fun b => match b with | .epoch e => some e | _ => none) u.store).getD 0

/-- Field trims of the settings store; factory trim where no copy is valid. -/
def UpdS.trims (u : UpdS) : Tab Word 8 :=
  (newestOf (fun b => match b with | .trims t => some t | _ => none) u.store).getD (Tab.fill 8 0)

/-- Partner table of a port in the settings store; empty where no copy is valid. -/
def UpdS.table (u : UpdS) (p : Fin 4) : Sparse Partner :=
  (newestOf (fun b => match b with | .table q t => if q = p then some t else none | _ => none) u.store).getD []

/-- Record 0x10 with its settings-format ID, where a copy is valid. -/
def UpdS.settings (u : UpdS) : Option (Half × NetSet) :=
  newestOf (fun b => match b with | .settings id n => some (id, n) | _ => none) u.store

/-- The place after a copy at `off`. -/
def storeNext (off : Word) (b : SetBody) : Word := off + BitVec.ofNat 32 (4 * b.words.length + 8)

/-- Where the next copy goes: the place kept, or the start of the store where the copy would end past its 448 KiB (Table 16-1). -/
def storePlace (off : Word) (b : SetBody) : Word := if (storeNext off b).toNat ≤ 0xC80000 then off else 0xC10000

/-- A record is written whole at a new place (R425); of the copies of its kind the one before it stays. -/
def UpdS.keep (b : SetBody) (u : UpdS) : UpdS :=
  let prev := (u.store.filter fun c => c.body.sameKind b).take 1
  let off := storePlace u.storeAt b
  { u with
    store := ⟨off, b, b.crc off⟩ :: prev ++ u.store.filter fun c => !c.body.sameKind b
    storeAt := storeNext off b }

/-- Copies that read with a failing CRC: the newest copy of each kind named by its kind code. -/
def UpdS.spoil (kinds : List Byte) (u : UpdS) : UpdS :=
  let hit := fun (c : SetCopy) => kinds.any fun k => c.body.words.head? == some (k.zeroExtend 32)
  let first := fun (c : SetCopy) => (u.store.find? fun d => d.body.sameKind c.body) == some c
  { u with store := u.store.map fun c => if hit c && first c then { c with crc := ~~~(c.body.crc c.off) } else c }

end Sys2Proof.Machine
end

