-- ==== Sys2Proof/Machine/Ops.lean ====
section
/-! DEFINITION. The shared operations of the block: updating one block of the state, time, the event fabric (R452 to
R454), the event log (R370), the row counter table (R366 to R369), run-state changes and the reaction to device and
fatal faults (R28, R29, R47, R53), and channel B's report queue (R180). -/

namespace Sys2Proof.Machine

/-- The outcome of a step. -/
abbrev Outc := Host.Outcome State Fault Refusal

/-! ## One block at a time -/

/-- Changes the clocks only. -/
def State.onT (f : TimeS → TimeS) (s : State) : State := { s with t := f s.t }
/-- Changes the run state record only. -/
def State.onSys (f : SysS → SysS) (s : State) : State := { s with sys := f s.sys }
/-- Changes supplies and pins only. -/
def State.onPwr (f : PwrS → PwrS) (s : State) : State := { s with pwr := f s.pwr }
/-- Changes the host link only. -/
def State.onLink (f : LinkS → LinkS) (s : State) : State := { s with link := f s.link }
/-- Changes the host's event flags only. -/
def State.onEvt (f : EvtS → EvtS) (s : State) : State := { s with evt := f s.evt }
/-- Changes the engines only. -/
def State.onEng (f : EngS → EngS) (s : State) : State := { s with eng := f s.eng }
/-- Changes the memories only. -/
def State.onMem (f : MemS → MemS) (s : State) : State := { s with mem := f s.mem }
/-- Changes channel B only. -/
def State.onHld (f : HldS → HldS) (s : State) : State := { s with hld := f s.hld }
/-- Changes channel A's inputs only. -/
def State.onSin (f : SinS → SinS) (s : State) : State := { s with sin := f s.sin }
/-- Changes channel A's outputs only. -/
def State.onSout (f : SoutS → SoutS) (s : State) : State := { s with sout := f s.sout }
/-- Changes reports and log only. -/
def State.onDiag (f : DiagS → DiagS) (s : State) : State := { s with diag := f s.diag }
/-- Changes the timers only. -/
def State.onTmr (f : TmrS → TmrS) (s : State) : State := { s with tmr := f s.tmr }
/-- Changes the current-loop channels only. -/
def State.onAlp (f : AlpS → AlpS) (s : State) : State := { s with alp := f s.alp }
/-- Changes the session unit only. -/
def State.onCsl (f : CslS → CslS) (s : State) : State := { s with csl := f s.csl }
/-- Changes the carrier only. -/
def State.onCsc (f : CscS → CscS) (s : State) : State := { s with csc := f s.csc }
/-- Changes check-value units and DMA only. -/
def State.onCvu (f : CvuS → CvuS) (s : State) : State := { s with cvu := f s.cvu }
/-- Changes the fuse array only. -/
def State.onOtp (f : OtpS → OtpS) (s : State) : State := { s with otp := f s.otp }
/-- Changes images and update only. -/
def State.onUpd (f : UpdS → UpdS) (s : State) : State := { s with upd := f s.upd }

/-- Changes one engine. -/
def State.onE (e : Fin 24) (f : Engine → Engine) (s : State) : State := s.onEng fun x => { x with e := x.e.upd e f }
/-- Changes one safety core. -/
def State.onC (c : Fin 4) (f : Core → Core) (s : State) : State := s.onEng fun x => { x with c := x.c.upd c f }
/-- Changes one output of channel A. -/
def State.onO (k : Fin 16) (f : OutA → OutA) (s : State) : State := s.onSout fun x => { x with o := x.o.upd k f }
/-- Changes one input of channel A. -/
def State.onI (n : Fin 32) (f : InA → InA) (s : State) : State := s.onSin fun x => { x with i := x.i.upd n f }
/-- Changes one pair of channel A. -/
def State.onPair (k : Fin 16) (f : PairA → PairA) (s : State) : State :=
  s.onSin fun x => { x with pair := x.pair.upd k f }
/-- Changes one test-pulse source. -/
def State.onTp (j : Fin 8) (f : TpSrc → TpSrc) (s : State) : State := s.onSin fun x => { x with tp := x.tp.upd j f }

/-- Applies `f` for each of a list of things, in order. -/
def each {α : Type} (l : List α) (f : α → State → State) (s : State) : State := l.foldl (fun s x => f x s) s

/-- Applies `f` where the condition holds. -/
def when (c : Bool) (f : State → State) (s : State) : State := if c then f s else s

/-- The flash answers: CK-XTAL clocks its controller (R34, R481). -/
def flashRuns (s : State) : Bool := s.pwr.xtalOk

/-- A record goes to the settings store where the flash answers. -/
def State.keepRec (b : SetBody) (s : State) : State := if flashRuns s then s.onUpd (UpdS.keep b) else s

/-- The next value of a free value: the model's own counter advances (R as the caller's docstring cites). -/
def State.takeFree (s : State) : Nat × State := (s.fresh, { s with fresh := s.fresh + 1 })

/-- The host link and the service paths serve everything: SAFE-HOLD, RUN, LOCKOUT and SERVICE (Table 17-5). -/
def ctrlServed (s : State) : Bool :=
  s.pwr.good && !s.sys.clockWait &&
    (s.sys.runState == .safeHold || s.sys.runState == .run || s.sys.runState == .lockout || s.sys.runState == .service)

/-- What a host access does where the run state serves it; any other draws a NAK and has no effect (Table 17-5). -/
def fromHost (f : State → State) (s : State) : State := if ctrlServed s then f s else s

/-- What an access of a source does to a register that the service paths may not write: that of an engine or of DMA needs no
link, and that of a service path draws NAK 0x83 (R444). -/
def fromSrc (src : Src) (f : State → State) (s : State) : State :=
  match src with
  | .engine _ | .dma => f s
  | .host => fromHost f s
  | .eth | .can => s

/-! ## Time -/

/-- Milliseconds of timebase A since power-good, 48 bits (R367). -/
def nowMs (s : State) : BitVec 48 := BitVec.ofNat 48 (s.t.tbA.toNat / 200000)

/-- Ticks of timebase A since `t`. -/
def since (s : State) (t : DWord) : Nat := (s.t.tbA - t).toNat

/-- Ticks of timebase A in a number of microseconds. -/
def usec (n : Nat) : Nat := n * 200

/-- Timebase A has reached `t`. -/
def come (s : State) (t : DWord) : Bool := decide (since s t < 2 ^ 63)

/-- `n` µs of timebase A have passed since `t`. -/
def past (s : State) (t : DWord) (n : Nat) : Bool := come s t && decide (usec n ≤ since s t)

/-! ## Test-pulse sources -/

/-- The readback of a source has differed from its command for more than 30 µs (R202). -/
def tpDiffers (s : State) (j : Fin 8) : Bool :=
  match s.sin.tp[j].diffAt with
  | some t => come s t && decide (usec 30 < since s t)
  | none => false

/-- A source's command or readback has changed: since when they agree and since when they differ (R202). A difference of at most 30 µs
does not interrupt their agreement. -/
def followTp (j : Fin 8) (s : State) : State :=
  s.onTp j fun x =>
    let ok := if tpDiffers s j then none else x.okSince
    if x.rb == x.drive then { x with diffAt := none, okSince := ok.or (some s.t.tbA) }
    else { x with diffAt := x.diffAt.or (some s.t.tbA), okSince := ok }

/-- Every test-pulse source is commanded low: it is off in LOCKOUT and HALT (Table 0-4, R476). -/
def sourcesOff (s : State) : State :=
  each (List.finRange 8) followTp (s.onSin fun x => { x with tp := x.tp.map fun t => { t with drive := false } })

/-- Test-pulse sources that the image assigns drive high (R199). -/
def sourcesOn (s : State) : State :=
  each (List.finRange 8) followTp <|
    s.onSin fun x => { x with tp := Tab.gen 8 fun j => { x.tp[j] with drive := bit x.tpCfg (24 + j.val) } }

/-! ## Event log -/

/-- Coding of a fault class in DIAG_RCTi word 0 [22:20]. -/
def FaultClass.code : FaultClass → Nat
  | .counted => 0 | .loc => 1 | .group => 2 | .device => 3 | .fatal => 4 | .stage => 5

/-- Appends a log record of four words to the ring (R370). -/
def logPut (kind : Nat) (cls : FaultClass) (scls : BitVec 4) (code : Half) (detail : Word) (s : State) : State :=
  s.onDiag fun d =>
    { d with
      log := Sparse.put {} d.log d.head.toNat
        { w0 := at_ code.toNat 0 ||| at_ scls.toNat 16 ||| at_ cls.code 20 ||| at_ kind 24
          w1 := detail
          w2 := (nowMs s).truncate 32
          w3 := at_ ((nowMs s).toNat / 2 ^ 32) 0 ||| at_ d.seq.toNat 16 }
      head := d.head + 1
      written := satInc d.written
      seq := d.seq + 1
      unarchived := min 1024 (d.unarchived + 1) }

/-! ## Reports -/

/-- One fault report (R364). -/
structure Rep where
  /-- Fault code, Table 14-2. -/
  code : Half
  /-- Source class, Table 14-1. -/
  scls : BitVec 4
  /-- Class, Table 0-5. -/
  cls : FaultClass
  /-- Source. -/
  src : BitVec 24
  deriving DecidableEq, Repr

/-- The entry of the row counter table with a report's key (R364). -/
def rctFind (d : DiagS) (r : Rep) : Option (Fin 256) :=
  (List.finRange 256).find? fun i => d.rct[i].valid && d.rct[i].code == r.code && d.rct[i].scls == r.scls

/-- The first entry not in use. -/
def rctFree (d : DiagS) : Option (Fin 256) := (List.finRange 256).find? fun i => !d.rct[i].valid

/-- The entry of a class with the oldest last-seen time. -/
def rctOldest (d : DiagS) (c : FaultClass) : Option (Fin 256) :=
  (List.finRange 256).foldl (fun best i =>
    if d.rct[i].valid && d.rct[i].cls == c then
      match best with
      | none => some i
      | some b => if d.rct[i].last < d.rct[b].last then some i else best
    else best) none

/-- The entry a full table gives up: counted-only first, then local, then group (R368). -/
def rctVictim (d : DiagS) : Option (Fin 256) :=
  (rctOldest d .counted).orElse fun _ => (rctOldest d .loc).orElse fun _ => rctOldest d .group

/-- Event raised by a new entry (R377). -/
def FaultClass.event : FaultClass → Nat
  | .loc | .group => 1
  | .device | .fatal | .stage => 2
  | .counted => 3

/-- Opens an episode in entry `i` and writes its log record (R367). -/
def rctOpen (i : Fin 256) (r : Rep) (s : State) : State :=
  logPut 0 r.cls r.scls r.code (r.src.zeroExtend 32) <|
    s.onDiag fun d => { d with rct := d.rct.upd i fun _ =>
      { valid := true, code := r.code, scls := r.scls, cls := r.cls, src := r.src, count := 1,
        first := nowMs s, last := nowMs s } }

/-- The table takes reports from the start of LOAD onward (R366). -/
def rctTakes (s : State) : Bool :=
  !(s.sys.runState == .castOn && (s.sys.stage == .none || s.sys.stage == .tap || s.sys.stage == .sense || s.sys.stage == .wipe ||
    s.sys.stage == .swatch || s.sys.stage == .retired))

/-- The row counter table's handling of one report (R367, R368), with the events it raises. -/
def reportCore (r : Rep) (s : State) : State × List Nat :=
  if !rctTakes s then (s, [])
  else match rctFind s.diag r with
  | some i =>
    if (nowMs s - s.diag.rct[i].last).toNat ≤ fld s.diag.cfg 11 0 * 1000 then
      (s.onDiag fun d => { d with rct := d.rct.upd i fun e => { e with count := satInc e.count, last := nowMs s } }, [])
    else (rctOpen i r s, [r.cls.event])
  | none =>
    match rctFree s.diag with
    | some i => (rctOpen i r s, [r.cls.event])
    | none =>
      match rctVictim s.diag with
      | none => (s.onDiag fun d => { d with overflow := satInc d.overflow }, [])
      | some i =>
        let e := s.diag.rct[i]
        (rctOpen i r <| logPut 5 e.cls e.scls e.code (e.count.zeroExtend 32) <|
          s.onDiag fun d => { d with evicted := satInc d.evicted }, [4, r.cls.event])

/-! ## Event fabric -/

/-- Tasks of an engine whose trigger is `trg` (R82, R407). -/
def Engine.hits (trg : Byte) (x : Engine) : Half := maskOf 16 fun t => x.trigger.getN t 0xFF == trg

/-- An event or compare reaches an engine's task triggers: the tasks become pending (R82, R453). -/
def Engine.trig (trg : Byte) (x : Engine) : Engine :=
  if x.on && trg != 0xFF then { x with tasks := x.tasks ||| (x.hits trg &&& ~~~x.resumes) } else x

/-- A trigger arrives while its task is already pending (R83). -/
def Engine.overruns (trg : Byte) (x : Engine) : Bool := x.on && trg != 0xFF && ((x.tasks ||| x.resumes) &&& x.hits trg) != 0

/-- An event reaches an engine's pending flags; a task that waits for it becomes pending again and its flag clears
(R117, R453). -/
def Engine.flagEv (ev : BitVec 7) (x : Engine) : Engine :=
  let w : Half := maskOf 16 fun t => x.waiting.getN t none == some ev
  if w = 0 then { x with flags := setBit x.flags ev.toNat true }
  else { x with
    resumes := x.resumes ||| w
    waiting := x.waiting.map fun o => if o == some ev then none else o }

/-! ## Timer channels: plain functions of one channel (file 09), used by the event fabric below -/

/-- Mode of a channel: 0 OFF, 1 FREE, 2 LOCKED. -/
def TmrCh.mode (x : TmrCh) : Nat := fld x.cfg 1 0

/-- CMP and ARMED in force in the tick `now`: those of its start where CMP was written in it (R250, R251). -/
def TmrCh.cmpIn (now : DWord) (x : TmrCh) : Word × Bool :=
  match x.cmpWas with
  | some (t, v, a) => if t == now then (v, a) else (x.cmp, x.armed)
  | none => (x.cmp, x.armed)

/-- COUNT was written in the tick `now`. -/
def TmrCh.countLate (now : DWord) (x : TmrCh) : Bool := x.countWas.any fun p => p.1 == now

/-- The count in force in the tick `now`, before any advance since the latest start (Table 9-3, rank 7). -/
def TmrCh.countIn (now : DWord) (x : TmrCh) : DWord :=
  match x.countWas with
  | some (t, v) => if t == now then v else x.count
  | none => x.count

/-- A start that reaches a channel: FREE and stopped starts; any other state sets ERR (R241, R252). A write of COUNT earlier in the
tick ranks after the start, meets a running channel and is ignored with ERR (R244, Table 9-3). -/
def TmrCh.start (now : DWord) (x : TmrCh) : TmrCh :=
  if x.mode == 1 && !x.run then
    { x with run := true, base := now, count := x.countIn now, err := x.err || x.countLate now, countWas := none }
  else { x with err := true }

/-- The channel's start event is `ev` (R241, R454). -/
def TmrCh.startsOn (ev : Nat) (x : TmrCh) : Bool := bit x.trig 23 && fld x.trig 22 16 == ev

/-- The even channel of the pair of `n`. -/
def evenCh (n : Fin 32) : Fin 32 := ⟨n.val - n.val % 2, by omega⟩
/-- The odd channel of the pair of `n`. -/
def oddCh (n : Fin 32) : Fin 32 := ⟨n.val - n.val % 2 + 1, by omega⟩

/-- Channel `n` is half of a linked pair (R247). -/
def linked (x : TmrS) (n : Fin 32) : Bool := bit x.ch[evenCh n].cfg 2

/-- Channel `n` is the odd half of a linked pair: its mode, prescaler, phase, capture source and edges are ignored (R247). -/
def oddHalf (x : TmrS) (n : Fin 32) : Bool := linked x n && n.val % 2 == 1

/-- The channel whose configuration governs channel `n`. -/
def govern (x : TmrS) (n : Fin 32) : Fin 32 := if linked x n then evenCh n else n

/-- The number of counts after which channel `n`, or the pair it governs, returns to 0. -/
def modulus (x : TmrS) (n : Fin 32) : Nat :=
  if linked x n then 2 ^ 64 else if x.ch[n].modv = 0 then 2 ^ 32 else x.ch[n].modv.toNat

/-- A counter that stood at `c` after `e` advances: from MOD − 1 it goes to 0, and from a value at or above MOD on through the whole 32
bits first (R240). -/
def advanced (m c e : Nat) : Nat :=
  if c < m then (c + e) % m else if c + e < 2 ^ 32 then c + e else (c + e - 2 ^ 32) % m

/-- The running or held count of a channel or linked pair in the tick `t` of timebase A (Table 9-1). A FREE channel counts whole
periods of 2^p ticks from its start, the tick of its start with them (Table 9-3), and stopped it holds what was written (R244). -/
def countAt (x : TmrS) (t : DWord) (n : Fin 32) : Nat :=
  let g := govern x n
  let c := x.ch[g]
  let p := 2 ^ fld c.cfg 7 4
  let m := modulus x g
  match c.mode with
  | 1 => if c.run then advanced m c.count.toNat (((t - c.base).toNat + 1) / p) else (c.countIn t).toNat
  | 2 => if c.run then (t.toNat / p + (m - c.phase.toNat % m)) % m else c.count.toNat % m
  | _ => 0

/-- The count at which a stop in the tick `t` leaves a running FREE channel: it ranks before the advance of its tick (Table 9-3). -/
def stopCount (x : TmrS) (t : DWord) (n : Fin 32) : Nat :=
  let g := govern x n
  let c := x.ch[g]
  advanced (modulus x g) c.count.toNat ((t - c.base).toNat / 2 ^ fld c.cfg 7 4)

/-- The count of the tick in which an edge arrived (R254). -/
def edgeCount (x : TmrS) (n : Fin 32) (e : Bool × DWord × Option DWord) : Nat :=
  match e.2.2 with
  | some v => v.toNat
  | none => countAt x e.2.1 n

/-- The edges on their way keep their counts before the channel is started, stopped or written; a start or a stop ranks before the
edges of its own tick, a write after them (R254, Table 9-3). -/
def edgesKept (x : TmrS) (now : DWord) (write : Bool) (n : Fin 32) : List (Bool × DWord × Option DWord) :=
  x.ch[n].sync.map fun e => (e.1, e.2.1, if e.2.1 == now && !write then none else some (BitVec.ofNat 64 (edgeCount x n e)))

/-- A start that reaches channel `n`, which governs itself. -/
def startAt (x : TmrS) (now : DWord) (n : Fin 32) : TmrCh := { x.ch[n].start now with sync := edgesKept x now false n }

/-- An event starts the channels whose start event it is; a linked pair starts as one, on the start event of either half (R241,
R247, R454). -/
def startsAll (ev : Nat) (now : DWord) (x : TmrS) : TmrS :=
  { x with ch := Tab.gen 32 fun n =>
      if !oddHalf x n && (x.ch[n].startsOn ev || linked x n && x.ch[oddCh n].startsOn ev) then startAt x now n else x.ch[n] }

/-- An edge of capture source `src` enters the synchroniser of every running-mode channel that captures that source and edge
(R254). -/
def edgeAll (src : Nat) (falling : Bool) (now : DWord) (x : TmrS) : TmrS :=
  { x with ch := Tab.gen 32 fun n =>
      let c := x.ch[n]
      if c.mode != 0 && !oddHalf x n && src != 0 && fld c.cfg 23 16 == src && bit c.cfg (if falling then 25 else 24) then
        { c with sync := c.sync ++ [(falling, now, none)] }
      else c }

/-- An edge of a capture source of Table 9-5. -/
def captureEdge (src : Nat) (falling : Bool) (s : State) : State := s.onTmr (edgeAll src falling s.t.tbA)

/-! ## DMA requests, used by the event fabric below (R357) -/

/-- A request reaches a channel: it starts a burst, is held one deep, or is lost with OVR, which the flag tells where OVR
becomes set. -/
def Dma.request (c : Dma) : Dma × Bool :=
  if !c.busy then (c, false)
  else if c.burst = 0 then ({ c with burst := fld c.cfg 15 10 }, false)
  else if !c.held then ({ c with held := true }, false)
  else ({ c with ovr := true }, !c.ovr)

/-- The channel's requests come from event `ev`. -/
def Dma.asks (ev : Nat) (c : Dma) : Bool := fld c.cfg 9 8 == 2 && fld c.cfg 22 16 == ev

/-- A request to every channel of a list, with the events of R360 that lost requests raise. -/
def dmaAsk (l : List (Fin 16)) (s : State) : State × List Nat :=
  l.foldl (fun (p : State × List Nat) d =>
    let q := p.1.cvu.d[d].request
    (p.1.onCvu fun x => { x with d := x.d.upd d fun _ => q.1 }, if q.2 then p.2 ++ [116 + d.val / 4] else p.2)) (s, [])

/-- Engines that a trigger overruns. -/
def overrunList (trg : Byte) (s : State) : List (Fin 24) :=
  (List.finRange 24).filter fun e => s.eng.e[e].overruns trg

/-- A task trigger reaches every engine; an overrun is a report TASK_OVERRUN (R83), whose events are returned. -/
def trigAll (trg : Byte) (s : State) : State × List Nat :=
  let o := overrunList trg s
  let s1 := s.onEng fun x => { x with e := x.e.map (Engine.trig trg) }
  o.foldl (fun (p : State × List Nat) e =>
    let q := reportCore ⟨0xA6, 10, .counted, BitVec.ofNat 24 e.val⟩ p.1
    (q.1, p.2 ++ q.2)) (s1, [])

/-- The event has arrived in the tick `now` already. -/
def EvtS.arrived (ev : Nat) (now : DWord) (x : EvtS) : Bool := x.seenAt == now && bit x.seen ev

/-- An arrival: the host's flag, and the events of this tick. -/
def EvtS.arrive (ev : Nat) (now : DWord) (x : EvtS) : EvtS :=
  { pend := setBit x.pend ev true, seen := setBit (if x.seenAt == now then x.seen else 0) ev true, seenAt := now }

/-- One event reaches the host's flags, every engine's flags, the timers' starts and captures, the DMA channels and the task
triggers (R254, R357, R452 to R454), with the further events that lost requests and overruns raise. A further arrival in one tick of
timebase A counts as the first one (R453). -/
def raiseOne (ev : Nat) (s : State) : State × List Nat :=
  let s1 := s.onEvt (EvtS.arrive ev s.t.tbA)
  if s.evt.arrived ev s.t.tbA then (s1, []) else
  let s2 := s1.onEng fun x => { x with e := x.e.map (Engine.flagEv (BitVec.ofNat 7 ev)) }
  let s3 := s2.onTmr fun x => edgeAll (0x80 + ev) false s.t.tbA (startsAll ev s.t.tbA x)
  let q4 := dmaAsk ((List.finRange 16).filter fun d => s3.cvu.d[d].asks ev) s3
  let q5 := trigAll (BitVec.ofNat 8 ev) q4.1
  (q5.1, q4.2 ++ q5.2)

/-- Raises events in order; the events that lost DMA requests and the row counter entries of overruns raise follow, eight
deep, which no chain of them exceeds: each sets an OVR flag or opens an entry that later ones find. -/
def raiseList : Nat → List Nat → State → State
  | 0, _, s => s
  | n + 1, evs, s =>
    let q := evs.foldl (fun (p : State × List Nat) ev => let r := raiseOne ev p.1; (r.1, p.2 ++ r.2)) (s, [])
    raiseList n q.2 q.1

/-- Raises one event (R453). -/
def raise (ev : Nat) (s : State) : State := raiseList 8 [ev] s

/-- Enters a report in the row counter table (R367). -/
def report (r : Rep) (s : State) : State :=
  let q := reportCore r s
  raiseList 8 q.2 q.1

/-- A task trigger that is no event: a timer compare (R82). -/
def trigger (trg : Byte) (s : State) : State :=
  let q := trigAll trg s
  raiseList 8 q.2 q.1

/-! ## Fault codes of Table 14-2 -/

/-- A report of a device fault of channel A. -/
def devRep (code : Half) (scls : BitVec 4) (src : Nat) : Rep := ⟨code, scls, .device, BitVec.ofNat 24 src⟩
/-- A report of a local fault. -/
def locRep (code : Half) (scls : BitVec 4) (src : Nat) : Rep := ⟨code, scls, .loc, BitVec.ofNat 24 src⟩
/-- A report of a group fault. -/
def grpRep (code : Half) (scls : BitVec 4) (src : Nat) : Rep := ⟨code, scls, .group, BitVec.ofNat 24 src⟩
/-- A report of a counted-only fault. -/
def cntRep (code : Half) (scls : BitVec 4) (src : Nat) : Rep := ⟨code, scls, .counted, BitVec.ofNat 24 src⟩

/-! ## Switch A of the outputs -/

/-- The output is configured, channel A demands it on, and no hold or lockout keeps it off (R19, R46, R236). -/
def OutA.asked (o : OutA) : Bool := bit o.cfg 0 && o.demand && !o.hold && o.causes.isEmpty

/-- The output has a start gate: a feedback input with START_GATE set (R234). -/
def OutA.startGate (o : OutA) : Bool := bit o.fb 7 && bit o.fb 6

/-- Switch A is commanded closed: channel A demands the output on, no hold, lockout, start gate or switch A pulse keeps
it open, or a switch test closes it alone (R19, R46, R236, R234, R222, R373). -/
def OutA.wantA (o : OutA) : Bool :=
  o.test ||
  (o.asked && !(o.startGate && o.gated) && !(match o.pulse with | some p => !p.swB | none => false))

/-- Drives switch A of one output; the start gate shuts while the output stands blocked (R234). -/
def OutA.drive (o : OutA) : OutA := { o with gated := o.gated || !o.asked, swa := o.wantA }

/-- Drives switch A of every output. -/
def driveA (s : State) : State := s.onSout fun x => { x with o := x.o.map OutA.drive }

/-! ## Run states -/

/-- Coding of a run state in SYS_STATUS (R7). -/
def RunState.code : RunState → Nat
  | .castOn => 0 | .safeHold => 1 | .run => 2 | .lockout => 3 | .halt => 4 | .dormant => 5 | .service => 6

/-- Coding of a stage in SYS_STATUS (R36, R43). -/
def Stage.code : Stage → Nat
  | .none => 0 | .tap => 1 | .sense => 2 | .wipe => 3 | .swatch => 4 | .load => 5 | .pattern => 6 | .cross => 7
  | .verify => 8 | .retired => 9

/-- Coding of a life-cycle state (R9). -/
def LifeCycle.code : LifeCycle → Nat
  | .manufacture => 0 | .provisioned => 1 | .uncommissioned => 2 | .commissioned => 3 | .serviceLocked => 4
  | .retired => 5

/-- An arming of commissioning ends (R414, R430). -/
def disarm (s : State) : State := if s.upd.armed then raise 123 (s.onUpd fun u => { u with armed := false }) else s

/-- Leaving SERVICE ends an armed trim and its averaging second: the device accepts trims only there (R278). -/
def trimsEnd (s : State) : State :=
  if s.sys.runState == .service then s.onAlp fun x => { x with armed := none, avg := none, sum := (0, 0) } else s

/-- Changes RUN_STATE: one log record of kind 1 with the cause in DETAIL, and EV0 (R452, R515). Leaving SAFE-HOLD ends an
arming of commissioning (R414), leaving SERVICE a trim (R278). A stage failure before LOAD leaves no record (R366). -/
def setRun (new : RunState) (cause : Word) (s0 : State) : State :=
  let s := trimsEnd (if new = .safeHold then s0 else disarm s0)
  let old := s.sys.runState
  raise 0 <| when (rctTakes s) (logPut 1 .counted 0 (BitVec.ofNat 16 (new.code + 16 * old.code)) cause) <|
    s.onSys fun x => { x with runState := new }

/-- The switch A hold of R46 on every output. -/
def holdAll (s : State) : State :=
  driveA <| s.onSout fun x => { x with o := x.o.map fun o => { o with hold := true } }

/-- The demand of an output goes off: an off-pulse in progress is void (Table 8-4). -/
def OutA.off (o : OutA) : OutA :=
  { o with demand := false, pulse := if o.demand then o.pulse.map fun p => { p with void := true } else o.pulse }

/-- Channel A demands every output off and withdraws every permit, and every switch A opens: a switch test in progress ends without
a verdict (R29). -/
def demandsOff (s : State) : State :=
  driveA <| (s.onSout fun x => { x with o := x.o.map fun o => { o.off with test := false } }).onEng fun x =>
    { x with c := x.c.map fun c => { c with sealedPermit := Tab.fill 4 0, permitPrev := Tab.fill 4 0, sealedDemand := 0 } }

/-- What any entry to LOCKOUT or HALT ends: a command in progress with result "refused: fault" (R53), a HOLD or SLEEP
under way, a re-evaluation. -/
def dropCommands (s : State) : State :=
  s.onSys fun x => { x with
    result := if x.result == 1 then 6 else x.result
    holding := false, sleeping := false, reeval := false, fromService := false }

/-- Class of a code of Table 6-12. -/
def bClass (code : Byte) : FaultClass :=
  if code ≤ 0x0B then .device
  else if code ≤ 0x12 then .fatal
  else if code = 0x13 then .stage
  else if code ≤ 0x23 then .loc
  else .counted

/-- Reports that arrive in one tick come in ascending order of code and source (R369). -/
def inOrder (l : List BReport) : List BReport :=
  l.insertionSort fun p q => p.code.toNat * 256 + p.cell.toNat ≤ q.code.toNat * 256 + q.cell.toNat

/-- The processor die moves channel B's reports into the row counter table (R180, R366, R369). -/
def drainB (s : State) : State :=
  each (inOrder s.hld.queue) (fun q => report ⟨q.code.zeroExtend 16, 2, bClass q.code, q.cell.zeroExtend 24⟩) <|
    s.onHld fun h => { h with queue := [] }

/-- One record into the archive: the first of a 64 KiB sector finds the sector erased (R370). -/
def archivePut (m : Sparse LogRec) (i : Nat) (r : LogRec) : Sparse LogRec :=
  Sparse.put {} (if i % 4096 = 0 then m.filter fun e => e.1 / 4096 != i / 4096 else m) i r

/-- Every record not yet archived is written, where the flash answers (R370). -/
def archiveLog (s : State) : State :=
  when (flashRuns s) (fun s => s.onDiag fun d =>
    { d with
      archive := (List.range d.unarchived).foldl (fun m i => archivePut m ((d.archHead + i) % 163840)
        (Sparse.get {} d.log ((d.head.toNat + 1024 - d.unarchived + i) % 1024))) d.archive
      archHead := (d.archHead + d.unarchived) % 163840
      unarchived := 0 }) s

/-- Entry to HALT (R47, R53): the fatal fault's code, fault line A asserted, every switch A open and every test-pulse source off (R476). A commissioning commit, a confirmation and a RESET that waits for the commit stop where they stand: HALT ends
with a power cycle or RESET_N alone, and the journal recovery of that cast-on settles what was begun (R60, R421). -/
def haltState (code : Half) (s : State) : State :=
  if s.sys.runState == .halt then s
  else
    let s1 := (dropCommands s).onSys fun x =>
      { x with stopCode := code, lineA := true, resetWait := false, lastStage := BitVec.ofNat 4 s.sys.stage.code }
    let s2 := s1.onUpd fun u => { u with commit := none, confirming := false }
    setRun .halt (code.zeroExtend 32) <| sourcesOff <| holdAll <| demandsOff <| drainB s2

/-- Entry to HALT while the boot core executes, which archives every log record (R370). -/
def haltEntry (code : Half) (s : State) : State :=
  if s.sys.runState == .halt then s else archiveLog (haltState code s)

/-- The report of a stage that fails (CASTON_STAGE, Table 14-2). -/
def stageReport (st : Stage) (s : State) : State := report ⟨0x50, 15, .stage, BitVec.ofNat 24 st.code⟩ s

/-- Entry to LOCKOUT on a device fault (R29, R47): fault line A asserted, all demands off and permits withdrawn, every
switch A opened, every test-pulse source off (R476). During the CROSS of a cast-on a device fault is the CROSS failure of Table 2-2, which is HALT; in the
rest of CAST-ON the processor die asserts its fault line (R28) and no run state changes, nor in HALT and DORMANT. -/
def lockoutEntry (code : Half) (s : State) : State :=
  match s.sys.runState with
  | .safeHold | .run | .service =>
    let s1 := (dropCommands s).onSys fun x =>
      { x with stopCode := code, lineA := true, stage := .none, devPending := true
               fallDue := x.fallDue || (s.sys.holding && s.sys.holdWhy == .trial) }
    setRun .lockout (code.zeroExtend 32) <| sourcesOff <| holdAll <| demandsOff s1
  | .lockout =>
    demandsOff <| (dropCommands s).onSys fun x =>
      { x with lineA := true, stage := .none, devPending := true }
  | .castOn => if s.sys.stage == .cross then haltEntry code (stageReport .cross s) else s.onSys fun x => { x with lineA := true, devPending := true }
  | .halt | .dormant => s

/-- A device fault that channel A detects (R28, R29, R362). -/
def devFault (r : Rep) (s : State) : State := lockoutEntry r.code (report r s)

/-! ## Channel B's reports and faults -/

/-- Places a report in channel B's queue, or counts it as dropped (R180). -/
def bReport (code : Byte) (cell : Nat) (s : State) : State :=
  s.onHld fun h =>
    if h.queue.length < 16 then { h with queue := h.queue ++ [⟨code, BitVec.ofNat 8 cell, s.t.cyc⟩] }
    else { h with dropped := satInc h.dropped }

/-- Channel B latches a device fault of its own (R164): the report, the latch, and the device's entry to LOCKOUT. While
it already holds a fault, only the report is made (R169). -/
def bDevice (code : Byte) (cell : Nat) (s : State) : State :=
  let s1 := (bReport code cell s).onSys fun x => { x with devPending := true }
  if s.hld.devFault || s.hld.fatal then s1
  else lockoutEntry (code.zeroExtend 16) <| s1.onHld fun h =>
    { h with devFault := true, releaseSeen := false, faultAt := s.t.cyc
             firstCause := if h.firstCause = 0 then code else h.firstCause }

/-- Channel B latches a fatal fault of its own (R164): HALT. A further fatal fault only places its report (R180). -/
def bFatal (code : Byte) (s : State) : State :=
  if s.hld.fatal then bReport code 0 s
  else haltEntry (code.zeroExtend 16) <| (bReport code 0 s).onHld fun h =>
    { h with fatal := true, firstCause := if h.firstCause = 0 then code else h.firstCause }

end Sys2Proof.Machine
end

