-- ==== Sys2Proof/Machine/Otp.lean ====
section
/-! DEFINITION. The OTP fuse array (file 15): reads at both margins (R386), check words (R380), thermometers (R393), write
rights and locks (R379, R394 to R398), programming (R390), tap bits (R381 to R385), weak bits and alarms (R387, R388,
R399), and the controller's commands (R391, R392). -/

namespace Sys2Proof.Machine

/-- Word address of word `w` of region `r`. -/
def otpAddr (r w : Nat) : Nat := 128 * r + w

/-- A word at both margins. -/
def OtpS.fuse (o : OtpS) (a : Nat) : Fuse := Sparse.get {} o.w a

/-- A word at normal margin, the value used (Table 15-3). -/
def OtpS.val (o : OtpS) (r w : Nat) : Word := (o.fuse (otpAddr r w)).n

/-- The check word of a region (R380). -/
def OtpS.checkWord (o : OtpS) (r : Nat) : Word := crcWords (BitVec.ofNat 32 r :: (List.range 127).map fun w => o.val r w)

/-- The array as users and readers see it: the shadows of SENSE (R386). The controller's own decisions take the live array. -/
def OtpS.seen (o : OtpS) : OtpS := { o with w := o.shadow.map fun e => (e.1, { n := e.2, t := e.2 }) }

/-- Count of a thermometer of `n` words from word `w` of region `r`: ones from the lowest bit up to the first 0 (R393). -/
def OtpS.count (o : OtpS) (r w n : Nat) : Nat :=
  let bits := (List.range n).flatMap fun i => (List.range 32).map fun b => bit (o.val r (w + i)) b
  (bits.takeWhile id).length

/-- A 1 above the first 0 of a thermometer (R393). -/
def OtpS.gap (o : OtpS) (r w n : Nat) : Bool :=
  let bits := (List.range n).flatMap fun i => (List.range 32).map fun b => bit (o.val r (w + i)) b
  (bits.dropWhile id).any id

/-- The thermometers: region, first word, words. -/
def thermometers : List (Nat × Nat × Nat) := [(3, 0, 1), (4, 0, 8), (4, 8, 8), (4, 16, 8), (5, 0, 16)]

/-- Life-cycle state of a thermometer count (R9). -/
def lifeOf : Nat → LifeCycle
  | 0 => .manufacture | 1 => .provisioned | 2 => .uncommissioned | 3 => .commissioned | 4 => .serviceLocked
  | _ => .retired

/-- Life-cycle state in the array. -/
def OtpS.life (o : OtpS) : LifeCycle := lifeOf (o.count 3 0 1)

/-- Anti-rollback counter `c` (Table 15-1). -/
def OtpS.arb (o : OtpS) (c : Nat) : Nat := o.count 4 (8 * c) 8

/-- Commissioning thermometer. -/
def OtpS.commCount (o : OtpS) : Nat := o.count 5 0 16

/-- A word of region 7, 1 in either copy (R394). -/
def OtpS.lockWord (o : OtpS) (w : Nat) : Word := o.val 7 w ||| o.val 7 (w + 4)

/-- Write-lock fuse of region `r`. -/
def OtpS.wlocked (o : OtpS) (r : Nat) : Bool := bit (o.lockWord 0) r

/-- Lock mode in force (OTP_MODE): 0 sticky, 1 fuses, 2 both, 3 controller or thermometer. -/
def OtpS.modeOf (o : OtpS) (r : Nat) : Nat :=
  if 8 ≤ r then min 2 (fld (o.lockWord 2) (2 * r + 1) (2 * r))
  else if r = 1 ∨ r = 2 ∨ r = 6 then 1 else 3

/-- Policy in force (OTP_POLICY): 0 LOG, 1 HOLD, 2 HALT. -/
def OtpS.policyOf (o : OtpS) (r : Nat) : Nat :=
  if 8 ≤ r then min 2 (fld (o.lockWord 3) (2 * r + 1) (2 * r))
  else if r = 1 ∨ r = 2 ∨ r = 3 then 2 else if r = 5 then 0 else 1

/-- OTP_MODE. -/
def OtpS.modeWord (o : OtpS) : Word := (List.range 16).foldl (fun w r => w ||| at_ (o.modeOf r) (2 * r)) 0
/-- OTP_POLICY. -/
def OtpS.policyWord (o : OtpS) : Word := (List.range 16).foldl (fun w r => w ||| at_ (o.policyOf r) (2 * r)) 0

/-- A fuse-locked region whose check word does not verify (R397). -/
def OtpS.broken (o : OtpS) (r : Nat) : Bool :=
  (r = 1 || r = 2 || r = 6 || 8 ≤ r) && o.wlocked r && o.checkWord r != o.val r 127

/-- TEMP_OK: the processor die within 0-60 °C. -/
def tempOk (s : State) : Bool := decide (64 ≤ s.pwr.tempProc.toNat) && decide (s.pwr.tempProc.toNat ≤ 124)

/-! ## Programming -/

/-- Programs the bits of `req` that read 0 in a word (R390): `p` says what the pulses leave. -/
def OtpS.pulse (p : PulseEnv) (a : Nat) (req : Word) (o : OtpS) : OtpS :=
  let f := o.fuse a
  let new := req &&& ~~~f.n &&& ~~~p.blank
  { o with w := Sparse.put {} o.w a { n := f.n ||| new, t := f.t ||| (new &&& ~~~p.weak) } }

/-- Re-pulses the bits of `req` that read 1 at normal margin (R388). -/
def OtpS.repulse (p : PulseEnv) (a : Nat) (req : Word) (o : OtpS) : OtpS :=
  let f := o.fuse a
  { o with w := Sparse.put {} o.w a { f with t := f.t ||| (req &&& f.n &&& ~~~p.weak) } }

/-- Weak bits of a word: 1 at normal and 0 at tight margin. -/
def Fuse.weakBits (f : Fuse) : Word := f.n &&& ~~~f.t

/-- INTEGRITY_ALARM of a region (R399, R400). -/
def otpAlarm (cls : FaultClass) (r : Nat) (s : State) : State :=
  raise 121 <| report ⟨0x51, 14, cls, BitVec.ofNat 24 r⟩ <| s.onOtp fun o => { o with alarm := setBit o.alarm r true }

/-- WEAK_BIT of a region; EV121 on a new entry (R400). -/
def otpWeak (r : Nat) (s : State) : State :=
  let rep := cntRep 0xAB 14 r
  let s1 := report rep s
  if (rctFind s.diag rep).isNone then raise 121 s1 else s1

/-- Bits that the pulses of a command left WEAK (R388): within 0-60 °C four pulses have been given, which is the alarm of
the region; outside that range, where only steps of the boot core pulse, they wait for the re-pulse service (R391). -/
def leftWeak (a : Nat) (req : Word) (s : State) : State :=
  let w := (s.otp.fuse a).weakBits &&& req
  if w = 0 then s
  else if tempOk s then otpAlarm .counted (a / 128) s
  else s.onOtp fun o =>
    { o with weak := o.weak ++ (((List.range 32).filter fun b => bit w b && !o.weak.contains (32 * a + b)).map fun b => 32 * a + b) }

/-- The running command ends: its result, and EV120 (R392, R400). -/
def otpDone (s : State) : State :=
  if s.otp.busy then raise 120 (s.onOtp fun o => { o with busy := false, result := o.ending }) else s

/-- SEALED_INCOMPLETE of every region as its lock and its check word now stand (R397). -/
def OtpS.sealedNow (o : OtpS) : OtpS := { o with incomplete := maskOf 16 o.broken }

/-- Programs bits of a word and settles what its pulses left WEAK, a bit already programmed apart; the result code of R390. -/
def otpProgram (p : PulseEnv) (a : Nat) (req : Word) (s : State) : BitVec 4 × State :=
  let s1 := leftWeak a (req &&& ~~~(s.otp.fuse a).n) (s.onOtp (OtpS.pulse p a req))
  (if req &&& ~~~(s1.otp.fuse a).n = 0 then 0 else 10, s1)

/-- Programs a bit of region 7 in word `w` and in word `w + 4` (R394). -/
def otpLockBits (p : PulseEnv) (w : Nat) (req : Word) (s : State) : BitVec 4 × State :=
  let q := otpProgram p (otpAddr 7 w) req s
  let q2 := otpProgram p (otpAddr 7 (w + 4)) req q.2
  (if q.1 = 0 then q2.1 else q.1, q2.2.onOtp OtpS.sealedNow)

/-- A step of the boot core or update core advances a thermometer by its next bit, once a command under way has ended (R392, R393); 9 where
it is full, 3 under a sticky lock (R395). -/
def otpAdvance (p : PulseEnv) (r w n : Nat) (s : State) : BitVec 4 × State :=
  let c := s.otp.count r w n
  let top := if r = 3 then 5 else 32 * n
  if c ≥ top then (9, s)
  else if bit s.otp.sticky r then (3, s)
  else otpProgram p (otpAddr r (w + c / 32)) (BitVec.ofNat 32 (2 ^ (c % 32))) (otpDone s)

/-- The life-cycle thermometer's next bit; UNCOMMISSIONED needs regions 1, 2 and 6 fuse-locked and whole (R393). -/
def lifeAdvance (p : PulseEnv) (s : State) : BitVec 4 × State :=
  let sealed := [1, 2, 6].all fun r => s.otp.wlocked r && !s.otp.broken r
  if s.otp.count 3 0 1 = 1 && !sealed then (4, s) else otpAdvance p 3 0 1 s

/-! ## Tap bits (R381 to R385) -/

/-- Copies of bit `b` that are solid 1, solid 0. -/
def tapSolid (o : OtpS) (b : Nat) : Nat × Nat :=
  (List.finRange 3).foldl (fun c i =>
    let n := bit o.tapN[i] b
    let t := bit o.tapT[i] b
    (c.1 + (if n && t then 1 else 0), c.2 + (if !n && !t then 1 else 0))) (0, 0)

/-- Every tap bit resolves by two solid copies (R382). -/
def tapResolves (o : OtpS) : Bool := (List.range 64).all fun b => 2 ≤ (tapSolid o b).1 || 2 ≤ (tapSolid o b).2

/-- The resolved tap bits (R382). -/
def tapValue (o : OtpS) : DWord := maskOf 64 fun b => decide (2 ≤ (tapSolid o b).1)

/-- Tap bits with a copy that is weak or solid against the resolved value (R382). -/
def tapOdd (o : OtpS) : DWord :=
  maskOf 64 fun b => if 2 ≤ (tapSolid o b).1 then (tapSolid o b).1 != 3 else (tapSolid o b).2 != 3

/-- Programs one copy of a tap bit, or its mirror bit as copy 3 (R383); a bit that reads 1 at normal margin is re-pulsed within 0-60 °C
alone (R388). -/
def tapPulse (p : PulseEnv) (warm : Bool) (b : Fin 64) (c : Fin 4) (o : OtpS) : OtpS :=
  if c = 3 then
    let m : PulseEnv := { blank := if bit p.blank 3 then 0xFFFFFFFF else 0, weak := if bit p.weak 3 then 0xFFFFFFFF else 0 }
    let a := otpAddr 0 (b.val / 32)
    let v := BitVec.ofNat 32 (2 ^ (b.val % 32))
    let o1 := o.pulse m a v
    if warm then o1.repulse m a v else o1
  else
    let i : Fin 3 := Fin.ofNat 3 c.val
    let was := bit o.tapN[i] b.val
    let n := was || !bit p.blank c.val
    { o with tapN := o.tapN.upd i fun x => setBit x b.val n
             tapT := o.tapT.upd i fun x => setBit x b.val (bit x b.val || (n && (warm || !was) && !bit p.weak c.val)) }

/-- Pulses one copy of a tap bit; a mirror bit left WEAK is an alarm of region 0, or waits for the re-pulse service (R388, R391). -/
def tapCopy (p : PulseEnv) (b : Fin 64) (c : Fin 4) (s : State) : State :=
  let s1 := s.onOtp (tapPulse p (tempOk s) b c)
  if c = 3 then leftWeak (otpAddr 0 (b.val / 32)) (BitVec.ofNat 32 (2 ^ (b.val % 32))) s1 else s1

/-- The three copies of a tap bit in order, then its mirror bit (R383). -/
def tapBit (p : PulseEnv) (b : Fin 64) (s : State) : State := each (List.finRange 4) (tapCopy p b) s

/-- The taps as they now stand: those of TAP, and every bit programmed since, which reads 1 in two copies or more. -/
def tapNow (o : OtpS) : DWord :=
  o.tap ||| maskOf 64 fun b => decide (2 ≤ ((List.finRange 3).filter fun i => bit o.tapN[i] b).length)

/-- The key slots that stay usable if slot `n` is revoked: unrevoked, with hash words that are not all 0 (R385). -/
def keysLeft (o : OtpS) (n : Nat) : Bool :=
  (List.range 4).any fun k => k != n && !bit (tapNow o) (4 + k) && (List.range 8).any fun w => o.val 2 (8 * k + w) != 0

/-- TAP_PROGRAM of a bit is permitted (Table 15-2, R385). -/
def tapAllowed (s : State) (b : Nat) : Bool :=
  match s.sys.life with
  | .retired => false
  | l =>
    if b ≤ 1 then l == .manufacture
    else if b = 2 then true
    else if b = 3 then l == .manufacture || l == .provisioned || l == .uncommissioned
    else if b ≤ 7 then keysLeft s.otp (b - 4)
    else false

/-! ## Alarms and weak bits (R387, R399) -/

/-- Region `r` has a cause for the integrity alarm in what its reads give (R399). -/
def alarmCause (o : OtpS) (r : Nat) : Bool :=
  o.broken r || (thermometers.any fun t => t.1 == r && o.gap t.1 t.2.1 t.2.2) ||
  (o.w.any fun e => e.1 / 128 == r && (e.2.t &&& ~~~e.2.n) != 0) ||
  (r == 0 && (o.val 0 0 &&& ~~~((tapNow o).extractLsb' 0 32) != 0 || o.val 0 1 &&& ~~~((tapNow o).extractLsb' 32 32) != 0))

/-- A WEAK bit at word address `a` is meant to be programmed (R387). -/
def weakMeant (o : OtpS) (a b : Nat) : Bool :=
  let r := a / 128
  match thermometers.find? fun t => t.1 == r && decide (t.2.1 ≤ a % 128) && decide (a % 128 < t.2.1 + t.2.2) with
  | some t => decide (32 * (a % 128 - t.2.1) + b < o.count t.1 t.2.1 t.2.2)
  | none => !(3 ≤ r && r ≤ 5) && !o.broken r

/-- Every WEAK bit of the array, ascending, as 32 × word address + bit. -/
def weakAll (o : OtpS) : List Nat :=
  o.w.flatMap fun e => ((List.range 32).filter fun b => bit e.2.weakBits b).map fun b => 32 * e.1 + b

/-- Applies what the reads give: words that read differently from before (R386). The life-cycle thermometer never moves backward
(R9): a bit of it that read programmed at normal margin goes on reading so. -/
def applyDrift (d : List (Nat × Word × Word)) (o : OtpS) : OtpS :=
  d.foldl (fun o x =>
    if x.1 < 2048 then
      let n := if x.1 = otpAddr 3 0 then x.2.1 ||| (o.fuse x.1).n else x.2.1
      { o with w := Sparse.put {} o.w x.1 { n := n, t := x.2.2 } }
    else o) o

/-- Re-pulses one weak bit (R388); four pulses that leave it WEAK are the alarm of its region. -/
def repulseBit (p : PulseEnv) (cls : FaultClass) (i : Nat) (s : State) : State :=
  let a := i / 32
  let m := BitVec.ofNat 32 (2 ^ (i % 32))
  let s1 := s.onOtp fun o => { o.repulse p a m with weak := o.weak.filter (· != i) }
  if (s1.otp.fuse a).weakBits &&& m = 0 then s1 else otpAlarm cls (a / 128) s1

/-! ## The controller (R391, R392) -/

/-- RESULT of OTP_CMD. -/
def otpResult (r : BitVec 4) (s : State) : State := s.onOtp fun o => { o with result := r }

/-- REGION of OTP_ADDR. -/
def OtpS.region (o : OtpS) : Fin 16 := Fin.ofNat 16 (fld o.addr 11 8)
/-- WORD of OTP_ADDR. -/
def OtpS.word (o : OtpS) : Nat := fld o.addr 6 0

/-- The host may program word `w` of region `r` in the present life-cycle state (Table 15-1). -/
def otpRights (s : State) (r w : Nat) : Bool :=
  match s.sys.life, r with
  | .retired, _ => false
  | l, 1 => if w < 2 then l == .manufacture else if w = 2 then l == .provisioned else l == .manufacture || l == .provisioned
  | l, 2 => l == .manufacture || l == .provisioned
  | l, 6 => l == .manufacture
  | _, n => decide (8 ≤ n)

/-- The host may lock region `r` in the present life-cycle state. -/
def lockRights (s : State) (r : Nat) : Bool :=
  match s.sys.life, r with
  | .retired, _ => false
  | l, 1 | l, 2 => l == .manufacture || l == .provisioned
  | l, 6 => l == .manufacture
  | _, n => decide (8 ≤ n)

/-- A step of the boot core or update core, which R391 binds to no run state and no temperature, and which waits for a command that
runs (R389, R392). -/
def coreStep : Src → Bool
  | .engine _ => true
  | _ => false

/-- Common refusals of R391, in its order: state, key, temperature, region or lock, busy. `free` marks READ, COMPUTE and
STICKY, which need no state. -/
def otpRefused (src : Src) (key : Half) (free : Bool) (region : Option (BitVec 4)) (s : State) : Option (BitVec 4) :=
  if !coreStep src && !free && s.sys.runState != .safeHold && s.sys.runState != .service then some 2
  else if key ≠ 0xB7E1 then some 6
  else if !coreStep src && !tempOk s then some 7
  else match region with
    | some r => some r
    | none => if s.otp.busy && !coreStep src then some 5 else none

/-- Runs a command of the controller: it is in progress until OTP_COMMAND_DONE, which gives its result (R392). Any other
command than FORCE_LOCK ends an arming (R397). A step of a core runs when the command under way has ended (R392). -/
def otpRun (src : Src) (key : Half) (free : Bool) (region : Option (BitVec 4)) (f : State → BitVec 4 × State) (s : State) : State :=
  let s0 := s.onOtp fun o => { o with armed := none }
  match otpRefused src key free region s with
  | some r => otpResult r s0
  | none =>
    let q := f (otpDone s0)
    q.2.onOtp fun o => { o with busy := true, result := 1, ending := q.1 }

/-- OTP_CMD READ (R391). -/
def otpRead (src : Src) (key : Half) (s : State) : State :=
  otpRun src key true none (fun s =>
    let hide := bit s.otp.rlock s.otp.region.val
    let f := s.otp.fuse (otpAddr s.otp.region.val s.otp.word)
    (0, s.onOtp fun o => { o with readN := if hide then 0 else f.n, readT := if hide then 0 else f.t })) s

/-- PROGRAM of a core's step into a thermometer region (R393): the bit just above a count alone, and UNCOMMISSIONED only behind sealed
regions. -/
def thermoCheck (o : OtpS) : Option (BitVec 4) :=
  let r := o.region.val
  let next := thermometers.any fun t =>
    let c := o.count t.1 t.2.1 t.2.2
    t.1 == r && decide (c < (if r = 3 then 5 else 32 * t.2.2)) && o.word == t.2.1 + c / 32 &&
      (o.data &&& ~~~o.val r o.word) == BitVec.ofNat 32 (2 ^ (c % 32))
  if !next then some 9
  else if r = 3 && o.count 3 0 1 = 1 && !([1, 2, 6].all fun r => o.wlocked r && !o.broken r) then some 4 else none

/-- Region check of PROGRAM: 9 without rights, 3 under a lock (R391). The rights of Table 15-1 are the host's; a core's step finds regions
0 and 7, which other commands write, and the thermometers barred. -/
def programCheck (src : Src) (s : State) : Option (BitVec 4) :=
  let r := s.otp.region.val
  if coreStep src && 3 ≤ r && r ≤ 5 then (if bit s.otp.sticky r then some 3 else thermoCheck s.otp)
  else if if coreStep src then r = 0 || r = 7 else !otpRights s r s.otp.word then some 9
  else if s.otp.wlocked r || bit s.otp.sticky r then some 3 else none

/-- OTP_CMD PROGRAM (R390). -/
def otpProg (src : Src) (key : Half) (p : PulseEnv) (s : State) : State :=
  otpRun src key false (programCheck src s) (fun s => otpProgram p (otpAddr s.otp.region.val s.otp.word) s.otp.data s) s

/-- OTP_CMD COMPUTE (R380). -/
def otpCompute (src : Src) (key : Half) (s : State) : State :=
  otpRun src key true none (fun s => (0, s.onOtp fun o => { o with check := o.checkWord o.region.val })) s

/-- Region check of a lock command (R395, R396). -/
def lockCheck (s : State) : Option (BitVec 4) :=
  let r := s.otp.region.val
  if !lockRights s r then some 9
  else if s.otp.wlocked r || bit s.otp.sticky r then some 3
  else if s.otp.modeOf r = 1 || s.otp.modeOf r = 2 then none else some 9

/-- OTP_CMD LOCK (R396). -/
def otpLock (src : Src) (key : Half) (p : PulseEnv) (s : State) : State :=
  let r := s.otp.region.val
  let chk := match lockCheck s with
    | some c => some c
    | none => if s.otp.checkWord r = s.otp.val r 127 then none else some 4
  otpRun src key false chk (otpLockBits p 0 (BitVec.ofNat 32 (2 ^ r))) s

/-- OTP_CMD READ_LOCK (R398). -/
def otpReadLock (src : Src) (key : Half) (p : PulseEnv) (s : State) : State :=
  let r := s.otp.region.val
  let chk := if r ≠ 1 && lockRights s r then (if bit s.otp.sticky r then some 3 else none) else some 9
  otpRun src key false chk (otpLockBits p 1 (BitVec.ofNat 32 (2 ^ r))) s

/-- OTP_CMD ARM_FORCE (R397). -/
def otpArm (src : Src) (key : Half) (s : State) : State :=
  otpRun src key false (lockCheck s) (fun s => (0, s.onOtp fun o => { o with armed := some o.region })) s

/-- OTP_CMD FORCE_LOCK (R397): 8 unless armed for the region. -/
def otpForce (src : Src) (key : Half) (p : PulseEnv) (s : State) : State :=
  let r := s.otp.region
  otpRun src key false (if s.otp.armed = some r then lockCheck s else some 8) (otpLockBits p 0 (BitVec.ofNat 32 (2 ^ r.val))) s

/-- OTP_CMD STICKY (R395). -/
def otpSticky (src : Src) (key : Half) (s : State) : State :=
  otpRun src key true none (fun s => (0, s.onOtp fun o => { o with sticky := setBit o.sticky o.region.val true })) s

/-- OTP_CMD SET_MODE (R394). -/
def otpSetMode (src : Src) (key : Half) (p : PulseEnv) (s : State) : State :=
  let r := s.otp.region.val
  let chk := if r < 8 || s.sys.life == .retired then some 9 else if s.otp.wlocked r then some 3 else none
  otpRun src key false chk (fun s => otpLockBits p 2 (at_ (fld s.otp.data 1 0) (2 * r)) s) s

/-- OTP_CMD SET_POLICY (R394). -/
def otpSetPolicy (src : Src) (key : Half) (p : PulseEnv) (s : State) : State :=
  let r := s.otp.region.val
  otpRun src key false (if r < 8 || s.sys.life == .retired then some 9 else none)
    (fun s => otpLockBits p 3 (at_ (fld s.otp.data 1 0) (2 * r)) s) s

/-- OTP_CMD TAP_PROGRAM (R383, R385): three copies in order, then the mirror bit. -/
def otpTap (src : Src) (key : Half) (p : PulseEnv) (s : State) : State :=
  let b : Fin 64 := Fin.ofNat 64 (fld s.otp.addr 21 16)
  otpRun src key false (if tapAllowed s b.val then none else some 9) (fun s =>
    let s1 := tapBit p b s
    let ok := (List.finRange 3).all (fun i => bit s1.otp.tapN[i] b.val) && bit (s1.otp.val 0 (b.val / 32)) (b.val % 32)
    (if ok then 0 else 10, s1)) s

end Sys2Proof.Machine
end

