-- ==== Sys2Proof/Machine/Journal.lean ====
section
/-! DEFINITION. The flash and its journal (R402, R409 to R411): markers, their CRC, the active sector, compaction, and the
state that the markers say the device is in. -/

namespace Sys2Proof.Machine

/-! ## Flash -/

/-- A byte of the flash; an erased byte reads 0xFF. -/
def flashAt (f : Sparse Byte) (a : Nat) : Byte := Sparse.get 0xFF f a

/-- Bytes of the flash. -/
def flashRead (f : Sparse Byte) (a n : Nat) : List Byte := (List.range n).map fun i => flashAt f (a + i)

/-- Bytes written into erased flash. -/
def flashWrite : Nat → List Byte → Sparse Byte → Sparse Byte
  | _, [], f => f
  | a, b :: t, f => flashWrite (a + 1) t (Sparse.put 0xFF f a b)

/-- Erases a range. -/
def flashErase (a n : Nat) (f : Sparse Byte) : Sparse Byte := f.filter fun e => e.1 < a || a + n ≤ e.1

/-- Base and size of a flash area: slot A, slot B, recovery image (Table 16-1). -/
def areaOf (t : Nat) : Nat × Nat :=
  match t with | 0 => (0, 0x600000) | 1 => (0x600000, 0x600000) | _ => (0xF00000, 0x100000)

/-- An update that ends before ACTIVATE leaves its target invalid (R423): the first word of the area is programmed to 0. -/
def voidTarget (u : UpdS) : UpdS :=
  if u.phase == .idle then u
  else
    { u with
      flash := flashWrite (areaOf u.target.toNat).1 [0, 0, 0, 0] u.flash
      slot := u.slot.upd (Fin.ofNat 3 u.target.toNat) fun x => { x with valid := false } }

/-! ## Markers (R409, Table 16-6) -/

/-- One marker. -/
structure Marker where
  /-- Byte 2. -/
  ty : Byte
  /-- Byte 3. -/
  slot : Byte
  /-- Bytes 4-7. -/
  seq : Word
  /-- Bytes 8-11. -/
  arg : Word
  /-- Bytes 12-27. -/
  payload : List Byte
  deriving DecidableEq, Repr

/-- Flash offset of position `i` of a sector. -/
def markAt (sec : Bool) (i : Nat) : Nat := 0xC00000 + (if sec then 0x8000 else 0) + 32 * i

/-- Bytes 0 to 27 of a marker. -/
def Marker.body (m : Marker) : List Byte :=
  [0xA7, 0xC3, m.ty, m.slot] ++ wordBytes m.seq ++ wordBytes m.arg ++ (m.payload ++ List.replicate 16 0).take 16

/-- CRC over the flash offset and bytes 0 to 27. -/
def markCrc (off : Nat) (body : List Byte) : Word := crc32c (wordBytes (BitVec.ofNat 32 off) ++ body)

/-- The bytes of a marker at a flash offset. -/
def Marker.bytes (off : Nat) (m : Marker) : List Byte := m.body ++ wordBytes (markCrc off m.body)

/-- The marker at a position; none where the position is blank or the CRC fails (R58). -/
def readMarker (f : Sparse Byte) (sec : Bool) (i : Nat) : Option Marker :=
  let b := flashRead f (markAt sec i) 32
  if b.take 2 == [0xA7, 0xC3] && bytesWord (b.drop 28) == markCrc (markAt sec i) (b.take 28) then
    some ⟨b.getD 2 0, b.getD 3 0, bytesWord ((b.drop 4).take 4), bytesWord ((b.drop 8).take 4), (b.drop 12).take 16⟩
  else none

/-- A position holds nothing. -/
def markBlank (f : Sparse Byte) (sec : Bool) (i : Nat) : Bool := (flashRead f (markAt sec i) 32).all (· == 0xFF)

/-- Puts a marker into a list in sequence order, behind those of its own sequence. -/
def Marker.put (m : Marker) : List Marker → List Marker
  | [] => [m]
  | x :: l => if m.seq < x.seq then m :: x :: l else x :: Marker.put m l

/-- The valid markers of a sector in sequence order. -/
def markers (f : Sparse Byte) (sec : Bool) : List Marker :=
  ((List.range 1024).filterMap (readMarker f sec)).foldl (fun l m => m.put l) []

/-- Positions of a sector that are used. -/
def usedMarks (f : Sparse Byte) (sec : Bool) : Nat :=
  (List.range 1024).foldl (fun n i => if markBlank f sec i then n else i + 1) 0

/-- Generation of a sector: that of its valid COMPACT marker. -/
def generation (f : Sparse Byte) (sec : Bool) : Option Word := ((markers f sec).filter fun m => m.ty == 0x30).getLast?.map (·.arg)

/-- The active sector (R410). -/
def activeSector (f : Sparse Byte) : Option Bool :=
  match generation f false, generation f true with
  | none, none => none
  | some _, none => some false
  | none, some _ => some true
  | some a, some b => some (a < b)

/-- The markers of the active sector. -/
def journal (u : UpdS) : List Marker :=
  match activeSector u.flash with | some sec => markers u.flash sec | none => []

/-- Writes a marker at the next position of the active sector. -/
def putMarker (ty slot : Byte) (arg : Word) (payload : List Byte) (u : UpdS) : UpdS :=
  let off := markAt u.sector u.jUsed.toNat
  { u with
    flash := flashWrite off (Marker.bytes off ⟨ty, slot, u.jSeq, arg, payload⟩) u.flash
    jUsed := u.jUsed + 1, jSeq := u.jSeq + 1 }

/-- Starts a sector: it is erased if it is not blank (R410). -/
def openSector (sec : Bool) (u : UpdS) : UpdS :=
  { u with flash := flashErase (markAt sec 0) 0x8000 u.flash, sector := sec, jUsed := 0 }

/-- Markers after the latest one that satisfies `f`, which comes first; empty where there is none. -/
def sinceLast (f : Marker → Bool) (l : List Marker) : List Marker :=
  (l.foldl (fun (p : List Marker × Bool) m => if f m then ([m], true) else if p.2 then (p.1 ++ [m], true) else p) ([], false)).1

/-- The open commit intent: COMMIT_INTENT without a done or discard marker after it. -/
def openCommit (l : List Marker) : Option Marker :=
  match sinceLast (fun x => x.ty == 0x10) l with
  | m :: t => if t.any (fun x => x.ty == 0x11 || x.ty == 0x12) then none else some m
  | [] => none

/-- The open confirmation: CONFIRM_INTENT without CONFIRM_DONE after it. -/
def openConfirm (l : List Marker) : Option Marker :=
  match sinceLast (fun x => x.ty == 0x20) l with
  | m :: t => if t.any (fun x => x.ty == 0x21) then none else some m
  | [] => none

/-- A retirement has been requested. -/
def openRetire (l : List Marker) : Bool := l.any fun m => m.ty == 0x40

/-- The markers that compaction keeps: the latest of five types, in their order (R410), and an intent that could not be resolved
(DESIGN CHOICE, log 119). -/
def keptMarkers (l : List Marker) : List Marker :=
  let last := fun (ty : Byte) => (l.filter fun m => m.ty == ty).getLast?
  l.filter fun m =>
    ([(0x01 : Byte), 0x02, 0x03, 0x11, 0x21].any fun ty => last ty == some m) || openCommit l == some m || openConfirm l == some m

/-- The next marker finds room for fewer than two in the active sector (R410). -/
def compactDue (u : UpdS) : Bool := (activeSector u.flash).isSome && decide (1022 < u.jUsed.toNat)

/-- Steps 2 to 4 of a compaction into the other sector (R410); what writes the marker resolves an open intent first. -/
def compact (u : UpdS) : UpdS :=
  let kept := keptMarkers (journal u)
  let u1 := kept.foldl (fun u m => putMarker m.ty m.slot m.arg m.payload u) (openSector (!u.sector) u)
  { putMarker 0x30 0 (u.gen + 1) [] u1 with gen := u.gen + 1 }

/-- Writes a marker into the journal: an empty journal is started with generation 1, and a sector with room for fewer than
two markers is compacted first (R410). -/
def writeMarker (ty slot : Byte) (arg : Word) (payload : List Byte) (u : UpdS) : UpdS :=
  let u1 :=
    if (activeSector u.flash).isNone then { putMarker 0x30 0 1 [] (openSector false u) with gen := 1 }
    else if compactDue u then compact u
    else u
  putMarker ty slot arg payload u1

/-- Writes the marker that ends an open intent: room for it was left when the intent was written (R410). -/
def endIntent (ty slot : Byte) (arg : Word) (payload : List Byte) (u : UpdS) : UpdS :=
  if u.jUsed.toNat < 1024 then putMarker ty slot arg payload u else writeMarker ty slot arg payload u

/-! ## What the markers say (R411) -/

/-- The latest ACTIVATE or FROG. -/
def lastTurn (l : List Marker) : Option Marker := (l.filter fun m => m.ty == 0x01 || m.ty == 0x03).getLast?

/-- The active slot. -/
def activeSlot (l : List Marker) : Nat :=
  match lastTurn l with
  | some m => if m.ty == 0x01 then m.slot.toNat else m.arg.toNat
  | none => 0

/-- The active slot is on trial: no CONFIRM_DONE follows its ACTIVATE. -/
def onTrial (l : List Marker) : Bool :=
  match lastTurn l with
  | some m => m.ty == 0x01 && !(sinceLast (fun x => x.ty == 0x01) l).any (fun x => x.ty == 0x21)
  | none => false

/-- Trial cast-ons counted. -/
def trialsMade (l : List Marker) : Nat :=
  (((sinceLast (fun x => x.ty == 0x01) l).filter fun m => m.ty == 0x02).getLast?.map fun m => m.arg.toNat).getD 0

/-- The commissioned code. -/
def commissionedCode (l : List Marker) : Option Word := (l.filter fun m => m.ty == 0x11).getLast?.map (·.arg)

/-- Slot `s` has been fallen back from since its ACTIVATE. -/
def froggedSlot (l : List Marker) (s : Nat) : Bool :=
  match (l.filter fun m => (m.ty == 0x01 && m.slot.toNat == s) || (m.ty == 0x03 && m.arg.toNat == 1 - s)).getLast? with
  | some m => m.ty == 0x03
  | none => false

/-- The fields that hold what the markers say, read again (R411). -/
def readJournal (u : UpdS) : UpdS :=
  let sec := (activeSector u.flash).getD false
  let l := journal u
  { u with
    sector := sec
    gen := (generation u.flash sec).getD 0
    jUsed := if (activeSector u.flash).isSome then BitVec.ofNat 11 (usedMarks u.flash sec) else 0
    jSeq := (l.getLast?.map fun m => m.seq + 1).getD 0
    active := BitVec.ofNat 2 (activeSlot l)
    commissioned := commissionedCode l
    slot := Tab.gen 3 fun i => { u.slot[i] with frogged := decide (i.val < 2) && froggedSlot l i.val } }

/-- FROG to a slot: the slot is active from now on and not on trial; logged with its reason (R417, R420, Table 16-12). -/
def writeFrog (dst reason : Nat) (s : State) : State :=
  when (reason != 3) (raise 122) <| logPut 4 .counted 0 0x0005 (BitVec.ofNat 32 reason) <| s.onUpd fun u =>
    readJournal (writeMarker 0x03 (BitVec.ofNat 8 dst) (BitVec.ofNat 32 dst) [BitVec.ofNat 8 reason] u)

end Sys2Proof.Machine
end

