-- ==== Sys2Proof/Machine/Hld.lean ====
section
/-! DEFINITION. Channel B's cells and monitor (file 06), with the connection rule it shares with channel A (R193 to R195).
Nothing here is a command: the commands of channel B stand in ChannelB.lean. -/

namespace Sys2Proof.Machine

/-! ## The connection rule, shared by both channels -/

/-- A verdict of the discrepancy rule: measured d in ticks of timebase A, and whether the check was toward the safe level
(R195, SIN_PAIRk_LASTD.DIR). -/
structure Check where
  d : Nat
  toSafe : Bool
  pass : Bool
  deriving DecidableEq, Repr

/-- What the connection rule reads and writes: state, e1 and which input started (Table 7-4). -/
structure Cx where
  st : ConnSt
  e1 : Nat
  firstB : Bool
  deriving DecidableEq, Repr

/-- One counted move of one input of a two-input connection (Table 7-4): `isB` names the input, `toEn` its direction,
`edge` its edge time in the channel's own unit, `dist` the interval in ticks of timebase A, `tt` the discrepancy time in
ticks. -/
def Cx.move (isB toEn : Bool) (edge : Nat) (dist : Nat → Nat) (tt : Nat) (c : Cx) : Cx × Option Check :=
  match c.st with
  | .safe => if toEn then ({ st := .waitOn, e1 := edge, firstB := isB }, none) else (c, none)
  | .waitOn =>
    if isB == c.firstB then (if toEn then (c, none) else ({ c with st := .safe }, none))
    else if toEn then
      let d := dist edge
      if d ≤ tt then ({ c with st := .enabled }, some ⟨d, false, true⟩)
      else ({ c with st := .locked }, some ⟨d, false, false⟩)
    else (c, none)
  | .enabled => if toEn then (c, none) else ({ st := .waitOff, e1 := edge, firstB := isB }, none)
  | .waitOff =>
    if isB == c.firstB then (c, none)
    else if toEn then (c, none)
    else
      let d := dist edge
      if d ≤ tt then ({ c with st := .safe }, some ⟨d, true, true⟩)
      else ({ c with st := .locked }, some ⟨d, true, false⟩)
  | .locked => (c, none)

/-- The state a connection takes from its first levels (R194) or after a lockout ends (Table 7-4, last row). -/
def Cx.fromLevels (enA enB : Bool) (now : Nat) : Cx :=
  if enA && enB then ⟨.enabled, now, false⟩
  else if enA || enB then ⟨.waitOn, now, !enA⟩
  else ⟨.safe, now, false⟩

/-! ## Filters -/

/-- One B cycle of a filter of `f` cycles on a latched level (R149, R151, R153). A change counts once the level has held
for `f` cycles after the cycle that latched it. -/
def InF.tick (f cyc : Nat) (x : Bool) (c : InF) : InF :=
  if c.primed then
    if x == c.lvl then { c with n := 0 }
    else
      let e := if c.n = 0 then cyc else c.edge
      if f ≤ c.n then { c with lvl := x, n := 0, edge := e } else { c with n := c.n + 1, edge := e }
  else if c.n = 0 then { c with lvl := x, n := 1, edge := cyc }
  else if x == c.lvl then (if f ≤ c.n then { c with n := 0, primed := true } else { c with n := c.n + 1 })
  else { c with lvl := x, n := 1, edge := cyc }

/-! ## Configuration fields (Table 6-9) -/

/-- Input a. -/
def EvCell.inA (c : EvCell) : Nat := fld c.w1 4 0
/-- Input b. -/
def EvCell.inB (c : EvCell) : Nat := fld c.w1 12 8
/-- Connection: 0 single, 1 equivalent, 2 antivalent, 3 OSSD-type. -/
def EvCell.conn (c : EvCell) : Nat := fld c.w1 17 16
/-- Test-pulse source of a. -/
def EvCell.srcA (c : EvCell) : Nat := fld c.w1 23 20
/-- Test-pulse source of b. -/
def EvCell.srcB (c : EvCell) : Nat := fld c.w1 27 24
/-- Filter in B cycles. -/
def EvCell.filter (c : EvCell) : Nat := fld c.w2 11 0
/-- Discrepancy time in ms. -/
def EvCell.discMs (c : EvCell) : Nat := fld c.w2 29 16
/-- Affected outputs and ports. -/
def EvCell.affects (c : EvCell) : BitVec 20 := c.w3.truncate 20
/-- Release cell. -/
def EvCell.relCell (c : EvCell) : Nat := fld c.w3 22 20

/-- The enable output of an evaluator cell (R149). -/
def EvCell.enable (c : EvCell) : Bool := c.valid && c.started && c.st == .enabled && !c.lock

/-- A window cell's inside output (R153). -/
def WinCell.inside (c : WinCell) : Bool := c.valid && c.f.primed && c.f.lvl

/-- The value of a signal index (Table 6-2). -/
def signal (h : HldS) (i : Nat) : Bool :=
  if i = 1 then true
  else if 0x40 ≤ i ∧ i < 0x80 then (h.ev.getN (i - 0x40) {}).enable
  else if 0xC0 ≤ i ∧ i < 0xC8 then (h.rel.getN (i - 0xC0) {}).event
  else if 0xD0 ≤ i ∧ i < 0xE0 then (h.win.getN (i - 0xD0) {}).inside
  else if 0x100 ≤ i ∧ i < 0x180 then (h.lg.getN (i - 0x100) {}).out
  else false

/-- Release event of a named cell in this cycle (R146). -/
def relEvent (h : HldS) (r : Nat) : Bool := (h.rel.getN r {}).event

/-! ## Release cells (R151, R152) -/

/-- One B cycle of a release cell: the filter, the edge rule of Table 6-3 and the start rule of R152. Answers the cell,
whether RELEASE_STUCK is raised, and whether a repeat of it is counted. -/
def RelCell.tick (cyc : Nat) (lvl : Bool) (c : RelCell) : RelCell × Bool × Bool :=
  if !c.valid then (c, false, false)
  else
    let act := lvl == c.high
    let first := !c.f.primed && c.f.n == 0
    let f := c.f.tick c.filter.toNat cyc act
    let c := { c with f := f, event := false, st := if first && act then .stuck else c.st }
    if !f.primed then (c, false, false)
    else edge cyc c
where
  /-- Table 6-3. -/
  edge (cyc : Nat) (c : RelCell) : RelCell × Bool × Bool :=
    match c.st, c.f.lvl with
    | .idle, false => (c, false, false)
    | .idle, true => ({ c with st := .active, n := 1, lead := cyc }, false, false)
    | .active, true =>
      if c.n < 300000 then ({ c with n := c.n + 1 }, false, false) else ({ c with st := .stuck }, true, false)
    | .active, false => ({ c with st := .idle, event := decide (5000 ≤ c.n) }, false, false)
    | .stuck, true => (c, false, false)
    | .stuck, false => ({ c with st := .recover, m := 1 }, false, false)
    | .recover, false => if c.m < 50000 then ({ c with m := c.m + 1 }, false, false) else ({ c with st := .idle }, false, false)
    | .recover, true => ({ c with st := .stuck }, false, true)

/-! ## Evaluator cells (R149, R150, R193 to R206) -/

/-- Ticks of timebase A in an interval of `n` B cycles, by the ratio of the kept exchange pairs (R190); nominal where
fewer than two pairs are kept. -/
def bTicks (h : HldS) (n : Nat) : Nat :=
  match h.pairs.head?, h.pairs.getLast? with
  | some (a1, b1), some (a0, b0) => if b0 < b1 then n * (a1 - a0).toNat / (b1 - b0) else n * 2000
  | _, _ => n * 2000

/-- The latched level of input `inp` with source `src` is a test sample in this cycle: the mask of the source holds (R200), or
no periodic sample has followed it (R189). -/
def bMasked (h : HldS) (src inp : Nat) : Bool :=
  decide (src < 8) && decide (h.srcSince.getN src 12 ≤ 5) || bit h.held inp

/-- An input stands on its enabling side (R193). -/
def EvCell.en (c : EvCell) (isB lvl : Bool) : Bool := if isB && c.conn == 2 then !lvl else lvl

/-- Sets a local lockout of an evaluator cell. -/
def EvCell.setLock (c : EvCell) : EvCell := { c with lock := true, st := .locked }

/-- Test-pulse checks of one input of a cell at this cycle (Table 7-7): the new failure mark, the new foreign marks, and
whether a fault is raised. -/
def tpCheck (h : HldS) (inp src : Nat) (once : Bool) (fore : Byte) : Bool × Byte × Bool :=
  if 8 ≤ src then (once, fore, false)
  else
    let ownDone := h.srcSince.getN src 12 == 1 && bit (h.srcWhole.getN src 0) inp
    let ownHigh := bit (h.srcSample.getN src 0) inp
    let once' := if ownDone then ownHigh else once
    let fault1 := ownDone && ownHigh && once
    let (fore', fault2) := (List.range 8).foldl (fun (p : Byte × Bool) j =>
      if j != src && h.srcSince.getN j 0 == 11 then
        let low := bit (h.srcBefore.getN j 0) inp && bit h.lvls inp && !bit (h.srcSample.getN j 0) inp
        (setBit p.1 j low, p.2 || (low && bit fore j))
      else p) (fore, false)
    (once', fore', fault1 || fault2)

/-- One move of one input through the connection rule, with the guard time and a failed verdict's lockout (R150). -/
def EvCell.apply (h : HldS) (cyc : Nat) (isB toEn : Bool) (edge : Nat) (c : EvCell) : EvCell × Bool :=
  let tt := c.discMs * 200000
  let (x, v) := Cx.move isB toEn edge (fun e => bTicks h (e - c.e1 + (c.e1 - e))) tt ⟨c.st, c.e1, c.firstB⟩
  let c := { c with st := x.st, e1 := x.e1, firstB := x.firstB }
  match v with
  | some k =>
    if k.pass then ((if tt < k.d + 4000 then { c with guard := some cyc } else c), false)
    else (c.setLock, true)
  | none => (c, false)

/-- One B cycle of an evaluator cell, with the number of DISCREPANCY or test-pulse faults it raises. -/
def EvCell.tick (h : HldS) (cyc : Nat) (c : EvCell) : EvCell × Bool :=
  if !c.valid then (c, false)
  else
    let single := c.conn == 0
    let oldA := c.a.lvl
    let oldB := c.b.lvl
    let a := if bMasked h c.srcA c.inA then c.a else c.a.tick c.filter cyc (bit h.lvls c.inA)
    let b := if single then c.b else if bMasked h c.srcB c.inB then c.b else c.b.tick c.filter cyc (bit h.lvls c.inB)
    let c := { c with a := a, b := b }
    let (tA, fA, xA) := tpCheck h c.inA c.srcA c.tpA c.forA
    let (tB, fB, xB) := if single then (false, 0, false) else tpCheck h c.inB c.srcB c.tpB c.forB
    let c := { c with tpA := tA, forA := fA, tpB := tB, forB := fB }
    let (c, x1) :=
      if !c.started then
        if a.primed && (single || b.primed) then (startNow cyc c, false) else (c, false)
      else if single then (singleNow c, false)
      else moves h cyc oldA oldB c
    let tpFault := xA || xB
    let c := if tpFault then c.setLock else c
    let fault := tpFault || x1
    let safe := !c.en false c.a.lvl && (single || !c.en true c.b.lvl)
    let c := if c.lock && !fault && safe && relEvent h c.relCell then { c with lock := false, st := .safe } else c
    (c, fault)
where
  /-- R194. -/
  startNow (cyc : Nat) (c : EvCell) : EvCell :=
    if c.lock then { c with started := true }
    else if c.conn == 0 then { c with started := true, st := if c.a.lvl then .enabled else .safe }
    else
      let x := Cx.fromLevels (c.en false c.a.lvl) (c.en true c.b.lvl) cyc
      { c with started := true, st := x.st, e1 := x.e1, firstB := x.firstB }
  /-- R193, a single connection. -/
  singleNow (c : EvCell) : EvCell :=
    if c.lock then c else { c with st := if c.a.lvl then .enabled else .safe }
  /-- R193: counted moves of this cycle, both toward one side as one with d 0, else the move to the safe side first; then the time-out of R195. -/
  moves (h : HldS) (cyc : Nat) (oldA oldB : Bool) (c : EvCell) : EvCell × Bool :=
    let mA := c.a.lvl != oldA
    let mB := c.b.lvl != oldB
    let enA := c.en false c.a.lvl
    let enB := c.en true c.b.lvl
    let edgeB := if mA && mB && enA == enB then c.a.edge else c.b.edge
    let doA := fun (p : EvCell × Bool) => if mA then let q := p.1.apply h cyc false enA c.a.edge; (q.1, p.2 || q.2) else p
    let doB := fun (p : EvCell × Bool) => if mB then let q := p.1.apply h cyc true enB edgeB; (q.1, p.2 || q.2) else p
    let p := if enA then doA (doB (c, false)) else doB (doA (c, false))
    let c := p.1
    let waits := c.st == .waitOn || c.st == .waitOff
    let other := if c.firstB then c.a else c.b
    let pend := decide (0 < other.n) && decide (bTicks h (other.edge - c.e1) ≤ c.discMs * 200000)
    if waits && !c.lock && decide (c.discMs * 200000 < bTicks h (cyc - c.e1)) && !pend then (c.setLock, true)
    else (c, p.2)

/-! ## Windows, logic, outputs, gates -/

/-- One B cycle of an analog window cell (R153). -/
def WinCell.tick (cyc : Nat) (x : Bool) (c : WinCell) : WinCell :=
  if !c.valid then c
  else
    let x := x ^^ bit c.w1 31
    { c with f := c.f.tick (if x then fld c.w1 11 0 else fld c.w1 27 16) cyc x }

/-- Input i of a logic cell after its inversion (R154). -/
def LogCell.input (h : HldS) (c : LogCell) (i : Nat) : Bool :=
  let idx := match i with
    | 0 => fld c.w2 8 0 | 1 => fld c.w2 24 16 | 2 => fld c.w3 8 0 | _ => fld c.w3 24 16
  signal h idx ^^ bit c.w1 (8 + i)

/-- One B cycle of a logic cell (Table 6-4). -/
def LogCell.tick (h : HldS) (c : LogCell) : LogCell :=
  if !c.valid then c
  else
    let n := fld c.w1 6 4
    let x := c.input h 0
    let t := fld c.w4 23 0
    match fld c.w1 3 0 with
    | 0 => { c with out := (List.range n).all (c.input h) }
    | 1 => { c with out := (List.range n).any (c.input h) }
    | 2 => { c with out := !x }
    | 3 => if x then let k := min (c.c + 1) t; { c with c := k, out := decide (k = t) } else { c with c := 0, out := false }
    | 4 => if x then { c with c := 0, out := true } else let k := min (c.c + 1) t; { c with c := k, out := decide (k < t) }
    | 5 => { c with out := x && !c.prev, prev := x }
    | 6 => { c with out := !x && c.prev, prev := x }
    | 7 => { c with out := x && (c.out || relEvent h (fld c.w4 2 0)) }
    | _ => c

/-- The off-pulse requests of one output latched in a B cycle, each judged in turn: a request for a closed switch with no pulse in
progress, of 6 to 50 B cycles, starts the pulse; any other is ignored (R157). Answers the cell and how many were ignored. -/
def OutCell.requests (idle : Bool) (l : List Nat) (c : OutCell) : OutCell × Nat :=
  l.foldl (fun (p : OutCell × Nat) w =>
    if idle && p.1.closed && p.1.p == 0 && decide (6 ≤ w) && decide (w ≤ 50) then ({ p.1 with p := w }, p.2) else (p.1, p.2 + 1)) (c, 0)

/-- One B cycle of an output cell (R156 to R159) before H of the next clock 0 is known: the cell, how many off-pulse
requests it ignored, and the faults it raises. A lasting off-check condition raises its fault once. -/
def OutCell.tick (h : HldS) (k : Fin 16) (c : OutCell) : OutCell × Nat × List Byte :=
  if !c.valid then (c, (h.req[k]).length, [])
  else
    let rb := bit h.rb k.val
    let d := signal h (fld c.w1 8 0)
    let ending := c.p == 1
    let open_ := !c.d || c.l || h.h
    let c := { c with
      p := c.p - 1, d := d, openFor := if open_ then c.openFor + 1 else if c.closed then 0 else c.openFor }
    let bad := ending && rb
    let f1 := bad && c.failOnce
    let c := if ending then { c with failOnce := rb && !c.failOnce } else c
    let c := if f1 then { c with l := true } else c
    let high := open_ && rb && decide (fld c.w1 26 16 ≤ c.openFor)
    let f2 := high && !c.offHigh
    let c := { c with offHigh := high, l := c.l || f2 }
    let c := if c.l && !f1 && !f2 && relEvent h (fld c.w1 14 12) && !rb then { c with l := false } else c
    let (c, ign) := c.requests (!ending) h.req[k]
    (c, ign, (if f1 then [0x22] else []) ++ (if f2 then [0x23] else []))

/-- Switch B of an output is commanded closed (R156). -/
def OutCell.wantB (c : OutCell) (hold : Bool) : Bool := c.valid && c.d && !c.l && !hold && c.p == 0

/-! ## History and time (R165, R166) -/

/-- D and E of every output and gate as one history entry. -/
def histEntry (h : HldS) : BitVec 20 :=
  maskOf 20 fun i => if i < 16 then (h.out.getN i {}).d else (h.gate.getN (i - 16) {}).e

/-- The history's state in B cycle `c`; before the first entry every D and E is 0 (R165). -/
def histAt (s : State) (c : Nat) : BitVec 20 := s.hld.history.getD (s.hld.histCyc - c) 0

/-- B time in 25 ns units of a sample time, by the latest pair that precedes it, or backward from the earliest (R166). -/
def mapTime (h : HldS) (t : Word) : Option Int :=
  match (h.pairs.take 128).find? fun p => decide ((t - p.1.truncate 32).toNat < 2 ^ 31) with
  | some (a, b) => some ((b * 400 : Nat) + (((t - a.truncate 32).toNat / 5 : Nat) : Int))
  | none =>
    match (h.pairs.take 128).getLast? with
    | some (a, b) => some ((b * 400 : Nat) - ((((a.truncate 32 : Word) - t).toNat / 5 : Nat) : Int))
    | none => none

/-! ## Record checks and agreement monitor (R167 to R170) -/

/-- Outputs that core `c` owns, by the pattern header (R14, Table 6-8). -/
def ownedOut (used : Half) (owners : Word) (c : Fin 4) : Half :=
  maskOf 16 fun k => bit used k && fld owners (2 * k + 1) (2 * k) == c.val

/-- Ports that core `c` owns. -/
def ownedPort (ports : BitVec 4) (owners : Word) (c : Fin 4) : BitVec 4 :=
  maskOf 4 fun p => bit ports p && fld owners (2 * p + 1) (2 * p) == c.val

/-- Core `c` hosts safety functions under the pattern header. -/
def hosts (h : HldS) (c : Fin 4) : Bool := bit (h.hdr.getN 3 0) (8 + c.val)

/-- Scan period of core `c` in 50 µs units. -/
def scanPeriod (h : HldS) (c : Fin 4) : Nat := fld (h.hdr.getN (6 + c.val) 0) 10 0

/-- Changes the monitor of one core. -/
def onMon (c : Fin 4) (f : Monitor → Monitor) (s : State) : State := s.onHld fun h => { h with mon := h.mon.upd c f }

/-- R170: an evaluator cell whose guard time settles a disagreement of item `i` (0-15 outputs, 16-19 ports) sampled at
`m`. -/
def guardCell (h : HldS) (i : Nat) (m : Int) (per : Nat) : Option (Fin 64) :=
  (List.finRange 64).find? fun e =>
    let c := h.ev[e]
    c.valid && bit c.affects i &&
      match c.guard with
      | some g => decide ((g * 400 : Nat) ≤ m) && decide (m ≤ (g * 400 : Nat) + ((per * 2000 + 800 : Nat) : Int))
      | none => false

/-- Start of the open disagreement of item `i`. -/
def disAt (h : HldS) (i : Nat) : Option Nat :=
  if i < 16 then h.disStart.getN i none else h.disPortStart.getN (i - 16) none

/-- Sets or clears the open disagreement of item `i` of core `c`. -/
def disSet (c : Fin 4) (i : Nat) (v : Option Nat) (s : State) : State :=
  (s.onHld fun h =>
    if hi : i < 16 then { h with disStart := h.disStart.upd ⟨i, hi⟩ fun _ => v }
    else if hj : i - 16 < 4 then { h with disPortStart := h.disPortStart.upd ⟨i - 16, hj⟩ fun _ => v }
    else h) |> onMon c fun m =>
      if i < 16 then { m with disOut := setBit m.disOut i v.isSome } else { m with disPort := setBit m.disPort (i - 16) v.isSome }

/-- Owner of item `i` by the pattern header. -/
def itemOwner (h : HldS) (i : Nat) : Fin 4 :=
  if i < 16 then Fin.ofNat 4 (fld (h.hdr.getN 4 0) (2 * i + 1) (2 * i))
  else Fin.ofNat 4 (fld (h.hdr.getN 5 0) (2 * (i - 16) + 1) (2 * (i - 16)))

/-- R170: the cell's lockout, and S of every open disagreement in its masks moved to the current B time. Each settling is reported (DESIGN CHOICE, log 127). -/
def guardSettle (e : Fin 64) (s : State) : State :=
  let s1 := bReport 0x20 e.val <| s.onHld fun h => { h with ev := h.ev.upd e EvCell.setLock }
  each (List.range 20) (fun i s =>
    if bit s.hld.ev[e].affects i && (disAt s.hld i).isSome then disSet (itemOwner s.hld i) i (some (s.t.cyc * 400)) s
    else s) s1

/-- Check 8 of one item (R169, R170): `a` is what channel A demands, `b` what the history shows at B time `m`. -/
def agreeItem (c : Fin 4) (i : Nat) (a b : Bool) (m : Int) (s : State) : State :=
  let per := scanPeriod s.hld c
  if s.hld.devFault || s.hld.fatal then s
  else if a == b then disSet c i none s
  else
    match (if !a && b then guardCell s.hld i m per else none) with
    | some e => guardSettle e s
    | none =>
      match disAt s.hld i with
      | none => disSet c i (some m.toNat) s
      | some st =>
        if ((fld (s.hld.hdr.getN 3 0) 2 0 * per * 2000 : Nat) : Int) ≤ m - (st : Int) then bDevice 0x01 c.val s else s

/-- CRC and version of a record (check 1). -/
def recOk (w : List Word) : Bool :=
  w.length == 5 && crcWords (w.take 4) == w.getD 4 0 && fld (w.getD 0 0) 7 4 == 1

/-- Checks 2-8 of a record of core `c` latched in B cycle `at_` (Table 6-6). -/
def recChecks (c : Fin 4) (w : List Word) (at_ : Nat) (s : State) : State :=
  let h := s.hld
  let w2 := w.getD 2 0
  let t := w.getD 1 0
  let seq : Half := BitVec.ofNat 16 (fld (w.getD 0 0) 31 16)
  let own := ownedOut (BitVec.ofNat 16 (fld (h.hdr.getN 3 0) 31 16)) (h.hdr.getN 4 0) c
  let ownP := ownedPort (BitVec.ofNat 4 (fld (h.hdr.getN 3 0) 15 12)) (h.hdr.getN 5 0) c
  let mon := h.mon[c]
  let per := scanPeriod h c
  match mapTime h t with
  | none => s
  | some m =>
    if !hosts h c then bDevice 0x06 c.val s
    else if ((w2.truncate 16 : Half) &&& ~~~own) != 0 || ((w2.extractLsb' 16 4) &&& ~~~ownP) != 0 then bDevice 0x07 c.val s
    else if mon.ref && seq != mon.seq + 1 then bDevice 0x03 c.val s
    else if mon.ref && t - mon.time != BitVec.ofNat 32 (per * 10000) then bDevice 0x04 c.val s
    else if ((per * 2000 + 800 : Nat) : Int) < (at_ * 400 : Nat) - m then bDevice 0x05 c.val s
    else if w.getD 3 0 != h.hdr.getN (10 + c.val) 0 then bDevice 0x08 c.val s
    else
      let s1 := onMon c (fun x => { x with ref := true, seq := seq, time := t, since := at_, armed := true }) s
      if s.hld.devFault || s.hld.fatal then s1
      else
        let hist := histAt s (m / 400).toNat
        let mine := (List.range 20).filter fun i => if i < 16 then bit own i else bit ownP (i - 16)
        let shown := fun (i : Nat) => decide (0 ≤ m) && bit hist i
        let s2 := each mine (fun i s => agreeItem c i (bit w2 i) (shown i) m s) s1
        let clean := mine.all fun i => bit w2 i == shown i
        s2.onSys fun x => if clean then { x with crossCores := setBit x.crossCores c.val true } else x

/-- The core a record comes from (R111). -/
def ScanRec.core (r : ScanRec) : Fin 4 := Fin.ofNat 4 (fld (r.words.getD 0 0) 1 0)

/-- Checks 1-8 of a record latched in B cycle `at_` (R167). -/
def checkRecord (w : List Word) (at_ : Nat) (s : State) : State :=
  let c : Fin 4 := Fin.ofNat 4 (fld (w.getD 0 0) 1 0)
  if recOk w then recChecks c w at_ s
  else bReport 0x30 c.val <| onMon c (fun x => { x with discarded := satInc x.discarded }) s

/-- Channel B latches one record (R166, R167): it is checked, or held while no exchange pair exists. -/
def latchRecord (w : List Word) (s : State) : State :=
  if s.hld.loadMode then s
  else if s.hld.pairs.isEmpty then s.onHld fun h =>
    if (h.waiting.filter fun r => r.core == (⟨w, 0⟩ : ScanRec).core).length < 8 then { h with waiting := h.waiting ++ [⟨w, s.t.cyc⟩] } else h
  else checkRecord w s.t.cyc s

/-- Held records are checked in arrival order once a pair exists (R166). -/
def checkHeld (s : State) : State :=
  if s.hld.pairs.isEmpty then s
  else
    each s.hld.waiting (fun r => checkRecord r.words r.at_) (s.onHld fun h => { h with waiting := [] })

/-- The limit of R168 in B cycles. -/
def missLimit (h : HldS) (c : Fin 4) : Nat := 2 * (scanPeriod h c * 5) + (if h.mon[c].ref then 2 else 20)

/-- A core's record is missing once the limit has passed (R168). It is placed once until the next accepted record (DESIGN CHOICE, log 129). -/
def recordMissing (c : Fin 4) (s : State) : State :=
  let m := s.hld.mon[c]
  if m.armed && decide (missLimit s.hld c < s.t.cyc - m.since) then
    bDevice 0x02 c.val <| onMon c (fun x => { x with armed := false }) s
  else s

/-- No exchange has arrived for 200 B cycles (R171). It is placed once until the next (DESIGN CHOICE, log 129). -/
def tbLost (s : State) : State :=
  if s.hld.exchArmed && decide (200 < s.t.cyc - s.hld.lastExch) then bDevice 0x0A 0 <| s.onHld fun h => { h with exchArmed := false } else s

/-! ## Initial cell states (R155) and pattern check -/

/-- Every cell at its initial state (R155). -/
def HldS.initCells (h : HldS) : HldS :=
  { h with
    ev := h.ev.map fun c => { valid := c.valid, w1 := c.w1, w2 := c.w2, w3 := c.w3 }
    rel := h.rel.map fun c => { valid := c.valid, input := c.input, high := c.high, filter := c.filter }
    win := h.win.map fun c => { valid := c.valid, w1 := c.w1 }
    lg := h.lg.map fun c =>
      { valid := c.valid, w1 := c.w1, w2 := c.w2, w3 := c.w3, w4 := c.w4
        c := if fld c.w1 3 0 == 4 then fld c.w4 23 0 else 0
        prev := fld c.w1 3 0 == 5 }
    out := h.out.map fun c => { valid := c.valid, w1 := c.w1 }
    gate := h.gate.map fun c => { valid := c.valid, w1 := c.w1 }
    recent := []
    srcSince := Tab.fill 8 12, srcWhole := Tab.fill 8 0, srcBefore := Tab.fill 8 0, srcSample := Tab.fill 8 0
    history := [], waiting := []
    disStart := Tab.fill 16 none, disPortStart := Tab.fill 4 none
    req := Tab.fill 16 []
    mon := h.mon.map fun m => { seq := m.seq, discarded := m.discarded } }

/-- The monitor's limits run from now: the start of CROSS, or a wake (R168, R171). -/
def armMonitor (s : State) : State :=
  s.onHld fun h =>
    { h with
      exchArmed := true, lastExch := s.t.cyc, pairs := [], waiting := []
      inbox := []
      mon := Tab.gen 4 fun c => { h.mon[c] with ref := false, armed := hosts h c, since := s.t.cyc } }

end Sys2Proof.Machine
end

