-- ==== Sys2Proof/Machine/Sin.lean ====
section
/-! DEFINITION. The safe inputs as channel A evaluates them (file 07): presented and counted levels, connections with
their guard passes and band lockouts, forcing, test pulses, release slots and the SINLVL and SINPAIR words. The commands
stand in Inputs.lean. -/

namespace Sys2Proof.Machine

/-! ## Words (Table 7-9) -/

/-- Mode of an input: 0 OFF, 1 PULSED, 2 CONTINUOUS. -/
def InA.mode (i : InA) : Nat := fld i.cfg 1 0
/-- Test-pulse source of an input; 8 or above for none. -/
def InA.source (i : InA) : Nat := fld i.cfg 7 4
/-- Connection of a pair: 0 unused, 1 two singles, 2 equivalent, 3 antivalent, 4 OSSD-type. -/
def PairA.conn (p : PairA) : Nat := fld p.cfg 2 0
/-- Discrepancy time in ticks. -/
def PairA.disc (p : PairA) : Nat := fld p.cfg 29 16 * 200000
/-- The pair is one two-input connection. -/
def PairA.two (p : PairA) : Bool := decide (2 ≤ p.conn) && decide (p.conn ≤ 4)

/-- The even input of pair `k`. -/
def evenIn (k : Fin 16) : Fin 32 := ⟨2 * k.val, by omega⟩
/-- The odd input of pair `k`. -/
def oddIn (k : Fin 16) : Fin 32 := ⟨2 * k.val + 1, by omega⟩
/-- The pair of input `n`. -/
def pairOf (n : Fin 32) : Fin 16 := ⟨n.val / 2, by omega⟩

/-- Input `n` presents its safe-side level when forced: high for IN2k+1 of an antivalent pair, low for every other (R188). -/
def safeLevel (s : SinS) (n : Fin 32) : Bool := s.pair[pairOf n].conn == 3 && n.val % 2 == 1

/-- A level of input `n` stands on the enabling side of its connection (Table 7-3). -/
def enSide (s : SinS) (n : Fin 32) (lvl : Bool) : Bool := lvl != safeLevel s n

/-- The level of input `n` channel A counts; 0 in OFF mode (R189). -/
def counted (s : SinS) (n : Fin 32) : Bool := if s.i[n].mode == 0 then false else s.i[n].level

/-- The presented level of input `n`: OFF presents low, a forced input its safe side (R184, R188), every input low while PD-FDIG is
off (R516). -/
def presented (s : SinS) (n : Fin 32) : Bool :=
  if s.i[n].mode == 0 && !s.i[n].forced then false else s.i[n].present

/-- Input `n` lies in a test mask: that of its own source (R200). -/
def inMask (s : SinS) (n : Fin 32) : Bool := (s.tp.getN s.i[n].source {}).mask

/-- A connection's lockout holds. -/
def ConnA.locked (c : ConnA) : Bool := c.disc || c.tp || c.settle

/-- ENABLE of a connection: ENABLED with no lockout, and no guard delay (R193, R196). -/
def ConnA.enable (c : ConnA) : Bool := c.started && c.st == .enabled && !c.locked && !c.guardPend

/-- The SINPAIR word of pair `k`. Bits [4:2] of two singles are those of both (DESIGN CHOICE, log 131). -/
def pairWord (s : SinS) (k : Fin 16) : Word :=
  let p := s.pair[k]
  let a := evenIn k
  let b := oddIn k
  let safeA := !enSide s a (counted s a)
  let safeB := !enSide s b (counted s b)
  if p.conn == 0 then 0
  else
    flag p.lo.enable 0 ||| flag p.lo.locked 1 |||
    flag (p.lo.disc || (p.conn == 1 && p.hi.disc)) 2 ||| flag (p.lo.tp || (p.conn == 1 && p.hi.tp)) 3 |||
    flag (p.lo.settle || (p.conn == 1 && p.hi.settle)) 4 ||| flag p.lo.band 5 |||
    flag (p.two && (p.lo.st == .waitOn || p.lo.st == .waitOff)) 6 ||| flag (safeA && safeB) 7 |||
    flag (p.conn == 1 && p.hi.enable) 8 ||| flag (p.conn == 1 && p.hi.locked) 9 ||| flag p.lo.guardPend 10 |||
    at_ p.d01.toNat 16

/-- The SINLVL word of input `n` without its RELEASE bit (R207 sets it per core). -/
def levelWord (s : SinS) (n : Fin 32) : Word :=
  let i := s.i[n]
  flag (counted s n) 0 ||| flag (presented s n) 2 ||| flag i.forced 3 ||| flag (inMask s n) 4 ||| flag i.testPulse 5 |||
  flag i.crossShort 6 ||| flag i.settleFault 7

/-- The slot, if any, whose input is `n`. -/
def slotOfInput (s : SinS) (n : Fin 32) : Option (Fin 8) :=
  (List.finRange 8).find? fun r => s.slot[r].cell.valid && s.slot[r].cell.input == n

/-- Events EV16 + k for every pair whose SINPAIR [9:0] differs from before (R211). -/
def notePairs (old : SinS) (s : State) : State :=
  each (List.finRange 16) (fun k s =>
    if (pairWord old k).truncate 10 != (pairWord s.sin k : Word).truncate 10 then raise (16 + k.val) s else s) s

/-! ## Lockouts of connections -/

/-- Changes the connection of input `n`: the two-input connection of its pair, or its own single connection (R191). -/
def onConn (n : Fin 32) (f : ConnA → ConnA) (s : State) : State :=
  s.onPair (pairOf n) fun p =>
    if p.conn == 1 && n.val % 2 == 1 then { p with hi := f p.hi } else { p with lo := f p.lo }

/-- The connection of input `n`. -/
def connOf (s : SinS) (n : Fin 32) : ConnA :=
  let p := s.pair[pairOf n]
  if p.conn == 1 && n.val % 2 == 1 then p.hi else p.lo

/-- Mirror cell of the connection of input `n`. -/
def mirrorOf (s : SinS) (n : Fin 32) : Fin 64 :=
  let p := s.pair[pairOf n]
  if p.conn == 1 && n.val % 2 == 1 then Fin.ofNat 64 (fld p.cfg2 5 0) else Fin.ofNat 64 (fld p.cfg 13 8)

/-- The inputs of the connection of input `n`. -/
def connInputs (s : SinS) (n : Fin 32) : List (Fin 32) :=
  let p := s.pair[pairOf n]
  if p.conn == 0 then [] else if p.conn == 1 then [n] else [evenIn (pairOf n), oddIn (pairOf n)]

/-- The times of an input's changes with a new one: every change of the 50 µs before it, and at least the latest four (R183, R201). -/
def consEdge (now : DWord) (l : List DWord) : List DWord :=
  now :: (l.take 3 ++ (l.drop 3).filter fun e => decide ((now - e).toNat ≤ usec 50))

/-- Sets an ordinary DISCREPANCY lockout and reports it (R197). -/
def discLock (n : Fin 32) (s : State) : State :=
  report (locRep 0x60 3 (evenIn (pairOf n)).val) <|
    onConn n (fun c =>
      { c with
        st := .locked, disc := true, band := false, guardPend := false, guardRun := false, clearRel := false, clearSafe := false }) s

/-- Sets the lockout of a test-pulse fault. -/
def tpLock (n : Fin 32) (s : State) : State :=
  onConn n (fun c => { c with st := .locked, tp := true, guardPend := false, clearRel := false, clearSafe := false }) s

/-- A change starts to run through the filter (R189). -/
def InA.startFilter (now : DWord) (i : InA) : InA := { i with running := true, edge := now, countFrom := now }

/-- A presented level of an input. A change is timestamped by the edge timestamp unit (R183) and reaches the timer channels that capture
it (R254). Inside the test mask of the input's own source it is a test sample, which neither advances nor restarts the filter (R200),
and is looked at when the mask has ended; elsewhere a level that is not the counted one starts the filter, and so does the first
level presented (R194). -/
def presentEdge (n : Fin 32) (lvl : Bool) (s : State) : State :=
  let now := s.t.tbA
  let mask := inMask s.sin n
  if s.sin.i[n].present == lvl then
    s.onI n fun i => if !i.primed && !i.running && !mask then i.startFilter now else i
  else captureEdge (0x20 + n.val) (!lvl) <| s.onI n fun i =>
    let i := { i with present := lvl, edges := consEdge now i.edges }
    if mask then { i with masked := true }
    else if lvl != i.level || !i.primed then { i.startFilter now with masked := false }
    else { i with running := false, masked := false }

/-- The first level `lvl` of an input after a test mask in which its presented level changed (R189, R200): a change that ran
through the filter before the mask goes on, if the level still stands; a level that is new starts the filter now. -/
def InA.relook (i : InA) (lvl : Bool) (now : DWord) : InA :=
  let i := if i.present == lvl then i else { i with present := lvl, edges := consEdge now i.edges }
  let i := { i with masked := false }
  if i.primed && lvl == i.level then { i with running := false }
  else if i.running && i.primed then i
  else i.startFilter now

/-- Forces the inputs of a connection and locks it (R188, R202). -/
def forceConn (n : Fin 32) (s : State) : State :=
  let s1 := each (connInputs s.sin n) (fun m s =>
    let lvl := safeLevel s.sin m && bit s.pwr.domains 7 && !s.sin.checking
    (presentEdge m lvl s).onI m fun i => { i with forced := true }) s
  if (connInputs s.sin n).isEmpty then s
  else onConn n (fun c => { c with st := .locked, settle := true, guardPend := false, clearRel := false, clearSafe := false }) s1

/-! ## Counted changes and verdicts (R193 to R197) -/

/-- Records a check in SINPAIR [31:16] and SIN_PAIRk_LASTD. -/
def recordCheck (k : Fin 16) (d : Nat) (fail guard band toSafe : Bool) (s : State) : State :=
  s.onPair k fun p =>
    { p with
      d01 := BitVec.ofNat 16 (min (d / 20000) 0xFFFF)
      lastd := at_ (min (d / 200) 0xFFFFFF) 0 ||| flag fail 24 ||| flag guard 25 ||| flag band 26 ||| flag toSafe 27 }

/-- Ticks between two moments of timebase A, in either order (R195). -/
def interval (a b : DWord) : Nat := min (a - b).toNat (b - a).toNat

/-- The verdict of a two-input connection in channel A (Table 7-5): pass, guard pass, band fail or fail. -/
def verdict (k : Fin 16) (c : Check) (s : State) : State :=
  let tt := s.sin.pair[k].disc
  let n := evenIn k
  let guard := c.pass && decide (tt < c.d + 4000)
  let band := !c.pass && decide (c.d ≤ tt + 4000)
  let s1 := recordCheck k c.d (!c.pass) guard band c.toSafe s
  if guard then
    if s.sin.pair[k].lo.reported then discLock n s1
    else onConn n (fun x => { x with guardPend := true, guardRun := true, guardAt := s.t.tbA }) s1
  else if c.pass then s1
  else onConn n (fun x => { x with bandWait := band, bandAt := s.t.tbA, unclassed := false }) (discLock n s1)

/-- Classifies a timed-out DISCREPANCY when its second edge is counted (R197). -/
def classify (k : Fin 16) (edge : DWord) (s : State) : State :=
  let p := s.sin.pair[k]
  let d := interval edge p.lo.e1
  let band := decide (d ≤ p.disc + 4000)
  onConn (evenIn k) (fun c => { c with unclassed := false, bandWait := band, bandAt := s.t.tbA }) <|
    recordCheck k d true false band (bit p.lastd 27) s

/-- A connection that reaches its safe level ends a band lockout at the clear decision (R197, R198). -/
def noteSafe (n : Fin 32) (s : State) : State :=
  let c := connOf s.sin n
  let safe := (connInputs s.sin n).all fun m => !enSide s.sin m (counted s.sin m)
  if c.band && c.disc && safe then onConn n (fun x => { x with clearSafe := true, safeAt := if x.clearSafe then x.safeAt else s.t.tbA }) s else s

/-- One counted move of input `n` in the state machine of its connection (R193). -/
def connMove (n : Fin 32) (lvl : Bool) (edge : DWord) (s : State) : State :=
  let k := pairOf n
  let p := s.sin.pair[k]
  let isB := n.val % 2 == 1
  if p.conn == 0 then s
  else if p.conn == 1 then
    onConn n (fun c => if c.locked then c else { c with started := true, st := if lvl then .enabled else .safe }) s
  else
    let c := p.lo
    let s1 :=
      if c.unclassed && isB != c.firstB then classify k edge s else s
    if !c.started then s1
    else
      let toEn := enSide s.sin n lvl
      let (x, v) := Cx.move isB toEn edge.toNat (fun e => interval (BitVec.ofNat 64 e) c.e1) p.disc
        ⟨c.st, c.e1.toNat, c.firstB⟩
      let fresh := x.st != c.st && (x.st == .waitOn || x.st == .waitOff)
      let s2 := onConn n (fun y =>
        { y with st := x.st, e1 := BitVec.ofNat 64 x.e1, firstB := x.firstB
                 reported := if fresh then false else y.reported
                 guardPend := if fresh then false else y.guardPend }) s1
      match v with
      | some ck => verdict k ck s2
      | none => s2

/-- The first counted levels of a connection give its state (R194). -/
def connStart (n : Fin 32) (s : State) : State :=
  let k := pairOf n
  let p := s.sin.pair[k]
  let ready := (connInputs s.sin n).all fun m => s.sin.i[m].primed
  if !p.two || p.lo.started || !ready then s
  else
    let a := evenIn k
    let b := oddIn k
    let x := Cx.fromLevels (enSide s.sin a (counted s.sin a)) (enSide s.sin b (counted s.sin b)) s.t.tbA.toNat
    onConn n (fun c =>
      if c.locked then { c with started := true }
      else { c with started := true, st := x.st, e1 := BitVec.ofNat 64 x.e1, firstB := x.firstB, reported := false }) s

/-- A presented level of input `n` has held for F in channel A (R189): it is counted, and the connection acts. -/
def countA (n : Fin 32) (s : State) : State :=
  let i := s.sin.i[n]
  if i.mode == 0 then s
  else
    let lvl := i.present
    let first := !i.primed
    let s1 := s.onI n fun i => { i with level := lvl, primed := true, running := false, masked := false }
    let s2 := if first then connStart n (if s.sin.pair[pairOf n].conn == 1 then connMove n lvl i.edge s1 else s1)
      else if i.level != lvl then connMove n lvl i.edge s1 else s1
    noteSafe n s2

/-! ## Clearing of lockouts (R198, R206) -/

/-- The lockout of the connection of input `n` clears, by its kind (Table 7-4, last row); forcing ends with it, and the
real levels are presented. -/
def clearConn (n : Fin 32) (s : State) : State :=
  let c := connOf s.sin n
  let ins := connInputs s.sin n
  let p := s.sin.pair[pairOf n]
  let en := fun m => enSide s.sin m (counted s.sin m)
  let x := if p.two && c.band then Cx.fromLevels (en (evenIn (pairOf n))) (en (oddIn (pairOf n))) s.t.tbA.toNat
    else ⟨.safe, s.t.tbA.toNat, false⟩
  let s1 := onConn n (fun c =>
    { c with disc := false, tp := false, settle := false, band := false, unclassed := false, bandWait := false
             guardRun := false, reported := false, st := x.st, e1 := BitVec.ofNat 64 x.e1, firstB := x.firstB }) s
  each ins (fun m s =>
    presentEdge m s.sin.i[m].sampled (s.onI m fun i => { i with forced := false, testPulse := false, crossShort := false })) s1

/-- Every input of the connection of `n` is on its safe side (R206). -/
def connSafe (s : SinS) (n : Fin 32) : Bool := (connInputs s n).all fun m => !enSide s m (counted s m)

/-- The conditions that raised a lockout of the connection of `n` have ended, those that the safe level itself ends interval
(R206). -/
def connEnded (s : SinS) (n : Fin 32) : Bool :=
  (connInputs s n).all fun m => !s.i[m].settleFault && !(s.tp.getN s.i[m].source {}).cond

/-- What R206 asks of the connection of `n` for a release event to clear its lockout, channel B's cell interval. -/
def connClears (s : SinS) (n : Fin 32) : Bool :=
  let c := connOf s n
  c.locked && (c.band && !c.tp && !c.settle || connSafe s n && connEnded s n)

/-- The clear decision of one connection, 50 µs after the release event or level change that would clear it (R198, R206). -/
def clearDecide (n : Fin 32) (s : State) : State :=
  let c := connOf s.sin n
  let bLock := s.hld.ev[mirrorOf s.sin n].lock
  let rel := c.clearRel && past s c.relAt 50
  let safe := c.clearSafe && past s c.safeAt 50
  let s1 := onConn n (fun c => { c with clearRel := c.clearRel && !rel, clearSafe := c.clearSafe && !safe }) s
  if !(rel || safe) || !c.locked then s1
  else if bLock then onConn n (fun c => { c with band := false }) s1
  else if c.band && !c.tp && !c.settle then clearConn n s1
  else if rel && connSafe s.sin n && connEnded s.sin n then clearConn n s1
  else s1

/-- The release slots of channel A in the initial states that channel B's release cells take with them (R152, R155, R205). -/
def slotsFresh (x : SinS) : SinS :=
  { x with slot := x.slot.map fun y =>
      { y with cell := { valid := y.cell.valid, input := y.cell.input, high := y.cell.high, filter := y.cell.filter } } }

/-- Connections of pair `k`: the inputs that name them. -/
def pairConns (s : SinS) (k : Fin 16) : List (Fin 32) :=
  if s.pair[k].conn == 0 then [] else if s.pair[k].conn == 1 then [evenIn k, oddIn k] else [evenIn k]

/-- Every clear decision that is due is taken (R198, R207). -/
def decideDue (s : State) : State := each (List.finRange 16) (fun k s => each (pairConns s.sin k) clearDecide s) s

/-- A release event of slot `r` asks every connection that names it for a clear decision, where the lockout could clear now;
elsewhere the event is spent (R197, R198, R206). -/
def relConns (r : Fin 8) (s : State) : State :=
  each (List.finRange 16) (fun k s =>
    let p := s.sin.pair[k]
    if bit p.cfg 7 && fld p.cfg 6 4 == r.val then
      each (pairConns s.sin k) (fun n s => onConn n (fun c => if connClears s.sin n then { c with clearRel := true, relAt := s.t.tbA } else c) s) s
    else s) s

/-- A DISCREPANCY report of channel B's cell `m` reaches channel A (R196, R197). -/
def mirrorReport (m : Nat) (s : State) : State :=
  each (List.finRange 16) (fun k s =>
    each (pairConns s.sin k) (fun n s =>
      if (mirrorOf s.sin n).val == m then
        let s1 := onConn n (fun c => { c with reported := true }) s
        if (connOf s.sin n).guardRun then discLock n s1 else s1
      else s) s) s

/-! ## Settle tracking (R187, R188) -/

/-- One settle measurement of input `n` in µs: the tracking loop, which raises the delay at once and lowers it by at most 1 µs, and INPUT_SETTLE after three in a row above the
maximum. -/
def settle (n : Fin 32) (t : Nat) (s : State) : State :=
  let i := s.sin.i[n]
  let mx := fld i.cfg 13 8
  let list := consCap 16 t i.settles
  let want := min mx (max 4 (list.foldl max 0 + 3))
  let delay := if i.settleDelay.toNat ≤ want then want else max want (i.settleDelay.toNat - 1)
  let overN := if mx < t then min 3 (i.overN + 1) else 0
  let within := if mx < t then 0 else min 3 (i.within + 1)
  let raised := overN == 3 && !i.settleFault
  let s1 := s.onI n fun i =>
    { i with settles := list, settleMeas := BitVec.ofNat 6 (min t 63), settleDelay := BitVec.ofNat 6 delay
             overN := overN, within := within
             settleFault := if raised then true else if within == 3 then false else i.settleFault }
  if raised then forceConn n (report (locRep 0x63 3 n.val) s1) else s1

/-! ## Test pulses (R199 to R202) -/

/-- Inputs high at moment `t` of timebase A and since. -/
def wasHigh (s : SinS) (n : Fin 32) (t : DWord) : Bool :=
  let i := s.i[n]
  let later := (i.edges.filter fun e => decide (t < e)).length
  if later % 2 == 0 then i.present else !i.present

/-- Input `n` was high for the whole 50 µs up to now. -/
def wholeHigh (s : SinS) (now : DWord) (n : Fin 32) : Bool :=
  s.i[n].present && (match s.i[n].edges.head? with | some e => decide (usec 50 ≤ (now - e).toNat) | none => true)

/-- Falling edge of a source's readback: the mask begins, or goes on (R200). -/
def maskStart (j : Fin 8) (s : State) : State :=
  let now := s.t.tbA
  s.onTp j fun x =>
    { x with rb := false, rbAt := now, mask := true, maskAt := if x.mask then x.maskAt else now
             whole := maskOf 32 fun n => if h : n < 32 then wholeHigh s.sin now ⟨n, h⟩ else false
             before := maskOf 32 fun n => if h : n < 32 then wasHigh s.sin ⟨n, h⟩ (now - BitVec.ofNat 64 (usec 50)) else false }

/-- Rising edge of source `j`'s readback: each input of its own is judged for TEST_PULSE, and the foreign-low check is
due 50 µs after the mask (R201). -/
def judgeOwn (j : Fin 8) (s : State) : State :=
  let src := s.sin.tp[j]
  let s1 := s.onTp j fun x =>
    { x with rb := true, rbAt := s.t.tbA
             low := maskOf 32 fun n => if h : n < 32 then !(s.sin.i[(⟨n, h⟩ : Fin 32)]).present else false
             due := some (s.t.tbA + BitVec.ofNat 64 (usec 100)) }
  each (List.finRange 32) (fun n s =>
    let i := s.sin.i[n]
    if i.mode != 0 && i.source == j.val && bit src.whole n.val then
      if i.present then
        if i.tpFail then
          tpLock n <| report (locRep 0x61 3 n.val) <| s.onI n fun i => { i with testPulse := true }
        else s.onI n fun i => { i with tpFail := true }
      else s.onI n fun i => { i with tpFail := false }
    else s) s1

/-- The foreign-low check of source `j`, 50 µs after its mask at moment `t` (R201, last row of Table 7-7). -/
def judgeForeign (j : Fin 8) (t : DWord) (s : State) : State :=
  let src := s.sin.tp[j]
  each (List.finRange 32) (fun n s =>
    let i := s.sin.i[n]
    if i.mode != 0 && decide (i.source < 8) && i.source != j.val then
      let low := bit src.before n.val && wasHigh s.sin n t && bit src.low n.val
      if low && bit i.forOnce j.val then
        tpLock n <| report (locRep 0x62 3 n.val) <| s.onI n fun i =>
          { i with crossShort := true, foreign := BitVec.ofNat 3 j.val }
      else s.onI n fun i => { i with forOnce := setBit i.forOnce j.val low }
    else s) (s.onTp j fun x => { x with due := none })

/-- Inputs assigned to source `j`. -/
def srcInputs (s : SinS) (j : Fin 8) : List (Fin 32) :=
  (List.finRange 32).filter fun n => s.i[n].mode != 0 && s.i[n].source == j.val

/-- TP_SOURCE on source `j` (R202): the report, and every connection on the source forced and locked. -/
def tpSourceFault (j : Fin 8) (s : State) : State :=
  let s1 := report (locRep 0x64 3 (0x100 + j.val)) <| s.onTp j fun x => { x with cond := true, okSince := none }
  each (srcInputs s.sin j) forceConn s1

/-- Test period in ticks. -/
def tpPeriod (s : SinS) : Nat := fld s.tpCfg 9 0 * 200000

/-- The condition of TP_SOURCE ends once the readback has followed the command for a full test period (R202). -/
def tpRecover (j : Fin 8) (s : State) : State :=
  let x := s.sin.tp[j]
  if tpDiffers s j then s.onTp j fun x => { x with okSince := none }
  else match x.okSince with
  | some t => if x.cond && come s t && decide (tpPeriod s.sin ≤ since s t) then s.onTp j fun x => { x with cond := false } else s
  | none => s

end Sys2Proof.Machine
end

