-- ==== Sys2Proof/Machine/Sout.lean ====
section
/-! DEFINITION. The safe outputs as channel A drives and judges them (file 08): the OUTRB word, lockouts and their clear,
off-pulses and their verdicts, feeds, feedback contacts. The commands stand in Outputs.lean. -/

namespace Sys2Proof.Machine

/-! ## The OUTRB word (Table 8-9) -/

/-- Coding of a lockout cause in OUTRB [7:4]; SWITCH_TEST_FAIL, to which Table 8-9 gives no code, reads as reserved code
10 (DESIGN CHOICE, log entry 19). -/
def OutCause.code : OutCause → Nat
  | .externalFeed => 1 | .crossConnect => 2 | .overload => 3 | .overtemp => 4 | .outLow => 5 | .feedback => 6
  | .bankSupply => 7 | .bound => 8 | .remote => 9 | .switchTest => 10

/-- Maximum width in 10 µs units. -/
def OutA.wmax (o : OutA) : Nat := fld o.cfg 13 8

/-- The width in force: the trimmed width, or the maximum with trim disabled or before the first pass (R226). -/
def OutA.curWidth (o : OutA) : Nat := if bit o.cfg 3 && o.width != 0 then o.width.toNat else o.wmax

/-- WIDTH of OUTRB and SOUT_CHk_TRIM: the width in force, 0 where the output has no off-pulses. -/
def OutA.shownWidth (o : OutA) : Nat := if bit o.cfg 0 && bit o.cfg 2 then o.curWidth else 0

/-- Off-pulse period P in ticks (R221). -/
def pulsePeriod (s : SoutS) : Nat := fld s.pulseCfg 9 0 * 200000

/-- The off-pulse period now running has odd number n, so its slots open switch B (R222). -/
def oddPeriod (s : State) : Bool :=
  if pulsePeriod s.sout = 0 then false else (s.t.tbA.toNat / pulsePeriod s.sout) % 2 == 1

/-- The next off-pulse of output `k` opens switch B: a repeat as the pulse it repeats, else by the parity of the period of its next
slot (R221, R222); false where it has no pulses. -/
def nextB (s : State) (k : Fin 16) : Bool :=
  let o := s.sout.o[k]
  let P := pulsePeriod s.sout
  let e := if bit o.cfg 1 then k.val - k.val % 2 else k.val
  let n := s.t.tbA.toNat / P
  bit o.cfg 0 && bit o.cfg 2 && P != 0 &&
    o.again.getD ((if s.t.tbA.toNat % P < (2 * (e % 8) + e / 8) * P / 16 then n else n + 1) % 2 == 1)

/-- The counted level of the feedback input of an output; false where it has none. -/
def fbLevel (s : State) (o : OutA) : Bool := bit o.fb 7 && counted s.sin (Fin.ofNat 32 (fld o.fb 4 0))

/-- The OUTRB word of output `k`. -/
def outWord (s : State) (k : Fin 16) : Word :=
  let o := s.sout.o[k]
  let c := o.causes.head?
  let cause := match c with | some x => x.1.code | none => 0
  let partner := match c with
    | some (.crossConnect, p) => p.val
    | some (.bound, p) => p.val
    | _ => 0
  flag o.rb 0 ||| flag o.demand 1 ||| flag o.swa 2 ||| flag (!o.causes.isEmpty) 3 ||| at_ cause 4 ||| flag o.limit 8 |||
  flag o.suspect 9 ||| flag (nextB s k) 10 ||| flag (fbLevel s o) 11 ||| at_ partner 12 |||
  at_ o.shownWidth 16

/-- Events EV32 + k for every output whose OUTRB bits [1], [3] or [7:4] differ from before (R237). -/
def noteOuts (old : State) (s : State) : State :=
  let key := fun (s : State) (k : Fin 16) => outWord s k &&& 0xFA
  each (List.finRange 16) (fun k s => if key old k != key s k then raise (32 + k.val) s else s) s

/-! ## Pairs, banks, sets -/

/-- The other output of a parallel pair (R217). -/
def parallelOf (s : SoutS) (k : Fin 16) : Option (Fin 16) :=
  if bit s.o[k].cfg 1 then some ⟨k.val + 1 - 2 * (k.val % 2), by omega⟩ else none

/-- The output and its parallel partner. -/
def both (s : SoutS) (k : Fin 16) : List (Fin 16) :=
  match parallelOf s k with | some m => [k, m] | none => [k]

/-- Bank of an output (R214). -/
def bankOf (k : Fin 16) : Fin 2 := ⟨k.val / 8, by omega⟩

/-- Source field of a report about an output (Table 14-1): the output, and its bank in [8]. -/
def outSrc (k : Fin 16) : Nat := k.val + 256 * (bankOf k).val

/-- Bind-off set of an output (R229). -/
def bindSet (o : OutA) : List (Fin 16) := (List.finRange 16).filter fun j => bit o.cfg2 j.val

/-- The output is commanded energised (R220). -/
def cmdEnergised (s : State) (k : Fin 16) : Bool :=
  let o := s.sout.o[k]
  bit o.cfg 0 && o.demand && o.causes.isEmpty && (o.swa || o.pulse.isSome && !o.hold) &&
    (s.hld.out[k].closed || (match o.pulse with | some p => p.swB | none => false))

/-- A switch of the output is commanded open other than for an off-pulse (Table 8-2). -/
def openOutside (s : State) (k : Fin 16) : Bool :=
  let o := s.sout.o[k]
  let swB := match o.pulse with | some p => some p.swB | none => none
  !o.swa && !(swB == some false && o.asked) || !s.hld.out[k].closed && swB != some true

/-- The moment from which a condition has held, kept while it holds. -/
def sinceWhen (now : DWord) (cond : Bool) (t : Option DWord) : Option DWord :=
  if cond then (match t with | some t => some t | none => some now) else none

/-- What channel A measures of each output over time: since when it has been good (R223), low (R220) or open (R220, R227), and the
feedback check's view of its commanded state (R233). A watch ends when both switches are commanded closed. -/
def trackOuts (s : State) : State :=
  s.onSout fun x => { x with o := Tab.gen 16 fun k =>
    let o := x.o[k]
    let en := cmdEnergised s k
    let now := s.t.tbA
    let seen := fbLevel s o == (en == bit o.fb 5)
    { o with
      goodSince := if o.pulse.isSome then o.goodSince else sinceWhen now (en && o.rb) o.goodSince
      lowSince := sinceWhen now (en && o.pulse.isNone && !o.limit && !o.rb) o.lowSince
      openSince := sinceWhen now (openOutside s k) o.openSince
      watch := o.watch && openOutside s k
      fbSettled := if en != o.energised then seen else o.fbSettled || seen
      enAt := if en != o.energised then now else o.enAt
      energised := en } }

/-! ## Lockouts (R228, R229, R235, R236) -/

/-- Adds a lockout cause to one output, those of several origins or partners each on its own; a pulse or switch test in progress
ends without a verdict. -/
def addCause (k : Fin 16) (c : OutCause) (p : Fin 16) (s : State) : State :=
  driveA <| s.onO k fun o =>
    if o.causes.any (fun x => x.1 == c && (c != .bound && c != .crossConnect || x.2 == p)) then o
    else { o with
      causes := o.causes ++ [(c, p)]
      pulse := o.pulse.map fun q => { q with void := true }
      suspect := false, found := none, test := false }

/-- Locks out an output and its parallel partner (R217). -/
def lockOut (k : Fin 16) (c : OutCause) (p : Fin 16) (s : State) : State :=
  each (both s.sout k) (fun j => addCause j c p) s

/-- BOUND lockouts of a bind-off set, without output `skip` (R228, R229). A lockout of either output of a parallel pair applies to
both (R217). -/
def bindOff (k : Fin 16) (skip : Option (Fin 16)) (s : State) : State :=
  let not := both s.sout k ++ (match skip with | some b => both s.sout b | none => [])
  each (bindSet s.sout.o[k]) (fun j s => if not.contains j then s else lockOut j .bound k s) s

/-- A local output fault: the report and the lockout (Table 8-8). -/
def outFault (code : Half) (c : OutCause) (k : Fin 16) (s : State) : State :=
  lockOut k c k <| report (locRep code 4 (outSrc k)) s

/-- The start gate of one output: a demanded output that nothing else keeps off closes switch A only where the feedback shows the
de-energised state; else FEEDBACK is raised at once (R234). -/
def gateOne (k : Fin 16) (s : State) : State :=
  let o := s.sout.o[k]
  if o.startGate && o.gated && o.asked then
    if fbLevel s o == bit o.fb 5 then outFault 0x6B .feedback k s else s.onO k fun o => { o with gated := false }
  else s

/-- Switch A of every output, with the start gates of those that may close (R234). -/
def energise (s : State) : State :=
  trackOuts <| driveA <| each (List.finRange 16) gateOne (driveA s)

/-- Channel A asks channel B for an off-pulse of `w` B cycles, which channel B latches and judges at the next clock 0 (R146,
R157). -/
def askB (k : Fin 16) (w : Nat) (s : State) : State := s.onHld fun h => { h with req := h.req.upd k fun l => l ++ [w] }

/-- A switch B request at the maximum width for an output and its parallel partner (R228). -/
def askBoth (k : Fin 16) (s : State) : State :=
  each (both s.sout k) (fun j s => askB j (fld s.sout.o[j].cfg 13 8) s) s

/-- Reaction to a feed of output `a`, `partner` named for CROSS_CONNECT (R227, R228): channel B is asked while it holds switch B
closed, but not for a CROSS_CONNECT of an output that was watched as switched off. -/
def feedFault (a : Fin 16) (partner : Option (Fin 16)) (s : State) : State :=
  let src := fun p => outSrc a + 4096 * p
  let asks := ((both s.sout a).any fun j => s.hld.out[j].closed) && !(s.sout.o[a].watch && partner.isSome)
  let s1 := match partner with
    | none => lockOut a .externalFeed a <| report (grpRep 0x90 4 (src 0)) s
    | some b => lockOut a .crossConnect b <| report (grpRep 0x91 4 (src b.val)) s
  let s2 := bindOff a partner s1
  let s3 := s2.onO a fun o => { o with suspect := false, found := none, watch := false, again := none }
  match partner with
  | some b =>
    if asks then
      (askBoth a s3).onO a fun o => { o with isol := some ⟨1, some b, s.t.tbA⟩ }
    else bindOff b none <| lockOut b .crossConnect a s3
  | none => if asks then (askBoth a s3).onO a fun o => { o with isol := some ⟨1, none, s.t.tbA⟩ } else s3

/-- A cause whose clear is the common clear of Table 8-8 (R236). -/
def OutCause.table : OutCause → Bool
  | .bound | .remote => false
  | _ => true

/-- The condition of a cause has ended (Table 8-8). -/
def causeEnded (s : State) (k : Fin 16) (c : OutCause × Fin 16) : Bool :=
  let o := s.sout.o[k]
  match c.1 with
  | .externalFeed => !o.rb
  | .crossConnect => !o.rb && !s.sout.o[c.2].rb
  | .bankSupply => !s.sout.bankCond[bankOf k]
  | .overtemp => !o.hot
  | .feedback => fbLevel s o == !bit o.fb 5
  | _ => true

/-- Removes the Table 8-8 causes of output `k`, and the BOUND lockouts that it caused (R229, R236). -/
def dropCauses (k : Fin 16) (s : State) : State :=
  let s1 := s.onO k fun o => { o with causes := o.causes.filter fun c => !c.1.table }
  s1.onSout fun x => { x with o := x.o.map fun o =>
    { o with causes := o.causes.filter fun c => !(c.1 == .bound && c.2 == k) } }

/-- The feedback of an output breaks its rule: it misses its expected value within the feedback time, or has left it (R233). -/
def feedbackBad (s : State) (k : Fin 16) : Bool :=
  let o := s.sout.o[k]
  bit o.fb 7 && bit o.cfg 0 && fbLevel s o != (o.energised == bit o.fb 5) &&
    (o.fbSettled || past s o.enAt (1000 * fld o.fb 18 8))

/-- FEEDBACK of an output comes in this evaluation: its feedback breaks its rule, or the start gate would refuse its demand
(R233, R234). -/
def newFeedback (s : State) (k : Fin 16) : Bool :=
  let o := s.sout.o[k]
  feedbackBad s k || o.startGate && o.demand && bit o.cfg 0 && !o.hold && fbLevel s o == bit o.fb 5

/-- Every Table 8-8 cause of an output has ended with the readback low, and no new fault of it comes (R236). -/
def mayClear (s : State) (k : Fin 16) : Bool :=
  let o := s.sout.o[k]
  !o.rb && (o.causes.filter fun c => c.1.table).all (causeEnded s k) && !newFeedback s k

/-- A release event of slot `r` clears the lockouts of the outputs that name it (R236); one event of either output of a
CROSS_CONNECT clears both, and with an output its parallel partner (R217). A cleared output whose demand is on energises at once. -/
def relOuts (r : Fin 8) (s : State) : State :=
  energise <| each (List.finRange 16) (fun k s =>
    let o := s.sout.o[k]
    let mine := bit o.cfg 7 && fld o.cfg 6 4 == r.val
    if mine && o.causes.any (fun c => c.1.table) then
      let partners := (o.causes.filter fun c => c.1 == .crossConnect).map Prod.snd
      let group := (k :: partners).flatMap (both s.sout)
      if group.all (mayClear s) then each group dropCauses s else s
    else s) s

/-! ## Off-pulses (R221 to R227) -/

/-- A slot of output `k` is skipped (R223). -/
def slotSkipped (s : State) (k : Fin 16) : Bool :=
  let o := s.sout.o[k]
  !bit o.cfg 2 || !o.causes.isEmpty || o.limit || o.test ||
    match o.goodSince with | some t => decide (since s t < usec 1000) | none => true

/-- A switch B request timed for a slot: channel B has latched it in the cycle that now ends, so that switch B opens at the first
clock 0 from here (R157, R222). -/
def askSlot (k : Fin 16) (w : Nat) (s : State) : State :=
  if s.hld.loadMode then s
  else s.onHld fun h =>
    let q := if h.out[k].valid then h.out[k].requests (h.out[k].p == 0) [w] else (h.out[k], 1)
    { h with
      out := h.out.upd k fun _ => { q.1 with closed := q.1.wantB h.h }
      ignored := if q.2 = 0 then h.ignored else satInc h.ignored }

/-- Starts one off-pulse: switch A opens, or channel B is asked (R222). -/
def startPulse (k : Fin 16) (swB : Bool) (w : Nat) (joint : Option (Fin 16)) (s : State) : State :=
  let s1 := driveA <| s.onO k fun o => { o with pulse := some { swB := swB, start := s.t.tbA, width := w, joint := joint } }
  if swB then askSlot k w s1 else s1

/-- The switch that the next pulse of an output and its parallel partner repeats, if any (R217, R222). -/
def againOf (s : State) (k : Fin 16) : Option Bool := (both s.sout k).findSome? fun j => s.sout.o[j].again

/-- A number of an output and its parallel partner taken as one output: the larger (R217). -/
def widest (s : State) (k : Fin 16) (f : OutA → Nat) : Nat := (both s.sout k).foldl (fun m j => max m (f s.sout.o[j])) 0

/-- The off-pulse slot of output `k` begins (R222, R223, R227): its own pulse, with that of its parallel partner in one (R217), and
the joint pulses of outputs in their locate period. After a skipped slot the period's parity decides again, and a locate period ends
with the slot. -/
def outSlot (k : Fin 16) (s : State) : State :=
  if s.sin.checking || (bit s.sout.o[k].cfg 1 && k.val % 2 == 1) || (both s.sout k).any (fun j => s.sout.o[j].pulse.isSome) then s
  else if (both s.sout k).any (slotSkipped s) then
    each (both s.sout k) (fun j s => s.onO j fun o => { o with again := none, suspect := false, found := none }) s
  else
    let swB := (againOf s k).getD (oddPeriod s)
    let w := widest s k fun o => if (againOf s k).isSome then o.wmax else o.curWidth
    let s1 := each (both s.sout k) (fun j => startPulse j swB w none) s
    each (List.finRange 16) (fun a s =>
      let x := s.sout.o[a]
      if x.suspect && a != k && x.pulse.isNone && x.causes.isEmpty then startPulse a false w (some k) s else s) s1

/-- Trim after a pass with fall time `t` µs (R226). -/
def OutA.trim (o : OutA) (t : Nat) : OutA :=
  if bit o.cfg 3 then
    let c := max 6 ((t + 9) / 10 + 4)
    { o with width := BitVec.ofNat 6 (min o.wmax (max c (o.curWidth - 1))) }
  else o

/-- A falter: the count, the maximum width, and the repeat of the same switch (Table 8-4, R226). -/
def OutA.falter (o : OutA) (swB : Bool) : OutA :=
  { o with falters := satInc o.falters, width := BitVec.ofNat 6 o.wmax, again := some swB }

/-- A falter of an output (Table 8-4). -/
def falterOne (swB : Bool) (k : Fin 16) (s : State) : State := s.onO k fun o => o.falter swB

/-- The verdict of an off-pulse of output `k` at its end (Table 8-4), with t_f in whole µs, rounded up as Table 8-5 reads an edge of
89.3 µs. The outputs of a parallel pair have one verdict: their readback is low where both are, and a fault names the one that is
high (R217). -/
def pulseVerdict (k : Fin 16) (p : Pulse) (s : State) : State :=
  let g := both s.sout k
  let wmax := widest s k OutA.wmax
  let high := g.find? fun j => s.sout.o[j].rb
  let wasSuspect := g.any fun j => s.sout.o[j].suspect
  if p.void then each g (fun j s => s.onO j fun o => { o with again := none, suspect := false, found := none }) s
  else match high with
  | none =>
    let t := match p.fell with | some f => ((f - p.start).toNat + 199) / 200 | none => 0
    let s1 := each g (fun j s => s.onO j fun o => { (o.trim t) with lastFall := BitVec.ofNat 9 (min t 511), again := none }) s
    let s2 := if p.width * 10 < t + 20 then each g (falterOne p.swB) s1 else s1
    if wasSuspect then
      report (cntRep 0xA0 4 (outSrc k)) <| each g (fun j s => s.onO j fun o => { o with suspect := false, found := none }) s2
    else s2
  | some a =>
    if p.width < wmax then each g (falterOne p.swB) s
    else if !wasSuspect then
      each g (fun j s => s.onO j fun o => { o with suspect := true, found := none, again := some p.swB }) s
    else feedFault a (g.findSome? fun j => s.sout.o[j].found) s

/-- The later of two moments of a fall. -/
def laterFall (start : DWord) : Option DWord → Option DWord → Option DWord
  | some a, some b => some (if (a - start).toNat < (b - start).toNat then b else a)
  | a, none => a
  | none, b => b

/-- Two pulses of a parallel pair as the one pulse they are (R217): void if either is, fallen when both have. -/
def Pulse.joinPair (p q : Pulse) : Pulse := { p with void := p.void || q.void, fell := laterFall p.start p.fell q.fell }

/-- An output a that is switched off and watched names output b as its partner where its readback fell during b's pulse and is low at
its end; else the watch goes on (R227). -/
def watched (b : Fin 16) (p : Pulse) (a : Fin 16) (s : State) : State :=
  let o := s.sout.o[a]
  if o.watch && a != b && !o.rb && decide ((o.rbAt - p.start).toNat < 2 ^ 63) then feedFault a (some b) s else s

/-- The off-pulse of output `k` ends (R224) once its width has passed: joint pulses name a partner, its own pulse gets its verdict,
watched outputs see whether their readback follows (R227). A parallel pair's pulse ends with that of its even output. -/
def endPulse (k : Fin 16) (s : State) : State :=
  match s.sout.o[k].pulse with
  | none => s
  | some p =>
    if !past s p.start (p.width * 10) then s
    else match p.joint with
    | some b =>
      let s1 := driveA <| s.onO k fun o => { o with pulse := none }
      if s1.sout.o[k].rb then s1 else s1.onO k fun o => { o with found := if o.found.isSome then o.found else some b }
    | none =>
      if bit s.sout.o[k].cfg 1 && k.val % 2 == 1 then s
      else
        let q := ((parallelOf s.sout k).bind fun m => s.sout.o[m].pulse).getD p
        let s1 := driveA <| each (both s.sout k) (fun j s => s.onO j fun o => { o with pulse := none }) s
        pulseVerdict k (p.joinPair q) (each (List.finRange 16) (watched k p) s1)

/-! ## Demands (R109, R112, R233, R234) -/

/-- The demand of one output as SEAL gives it: a demand that goes off makes a pulse void (Table 8-4) and ends a locate period, one that
comes on ends a switch test. -/
def OutA.take (want : Bool) (o : OutA) : OutA :=
  if want then { o with demand := true, test := false } else { o.off with suspect := false }

/-- The stitch engines take the demands of a core at SEAL: its owned outputs follow, under the start gate (R112, R234). -/
def takeDemands (c : Fin 4) (d : Half) (s : State) : State :=
  let own := ownedOut s.sout.used s.sout.owners c
  energise <| s.onSout fun x => { x with o := Tab.gen 16 fun k => if bit own k.val then x.o[k].take (bit d k.val) else x.o[k] }

end Sys2Proof.Machine
end

