-- ==== Sys2Proof/Machine/Tmr.lean ====
section
/-! DEFINITION. The timer channels (file 09): counts, compares, captures with lock and hold, snapshots, status words and
trigger destinations. The commands stand in Timers.lean and in the TMR instructions. -/

namespace Sys2Proof.Machine

/-- Changes one timer channel. -/
def State.onTc (n : Fin 32) (f : TmrCh → TmrCh) (s : State) : State := s.onTmr fun x => { x with ch := x.ch.upd n f }

/-- The counter that channel `n` shows advances in the tick of timebase A `t` (R240, Table 9-1). -/
def advances (x : TmrS) (t : DWord) (n : Fin 32) : Bool :=
  let c := x.ch[govern x n]
  let p := 2 ^ fld c.cfg 7 4
  c.run && (if c.mode == 1 then ((t - c.base).toNat + 1) % p == 0 else c.mode == 2 && t.toNat % p == 0)

/-- The half of a count that channel `n` shows. -/
def pairHalf (x : TmrS) (n : Fin 32) (v : Nat) : Word := BitVec.ofNat 32 (if linked x n && n.val % 2 == 1 then v / 2 ^ 32 else v)

/-- The half of the count of the tick `t` that channel `n` shows. -/
def halfAt (x : TmrS) (t : DWord) (n : Fin 32) : Word := pairHalf x n (countAt x t n)

/-- Owner of a channel (Table 9-2). -/
def tmrOwner (x : TmrS) (n : Fin 32) : Nat := fld x.ch[n].cfg 12 8

/-- The status word of a channel (TMR_CHn_STAT). -/
def statWord (c : TmrCh) : Word :=
  flag c.run 0 ||| flag c.armed 1 ||| flag c.cmpf 2 ||| flag c.wrapf 3 ||| flag c.caprf 4 ||| flag c.capff 5 |||
  flag c.paired 6 ||| flag c.lock 7 ||| flag c.hold.isSome 8 |||
  flag (match c.hold with | some (k, _) => k | none => false) 9 ||| flag c.err 10 ||| at_ c.lost.toNat 16

/-- The read-clear fields clear on an owner's read. -/
def statClear (c : TmrCh) : TmrCh := { c with cmpf := false, wrapf := false, err := false, lost := 0 }

/-- The status word of channel `n`: the odd half of a linked pair counts while the pair does (R247). -/
def statOf (x : TmrS) (n : Fin 32) : Word := statWord { x.ch[n] with run := x.ch[govern x n].run }

/-- The channel's event for a cause of EVSEL bit `b`, one for all causes of one tick (R253). -/
def tmrEvent (n : Fin 32) (b : Nat) (s : State) : State :=
  if bit s.tmr.ch[n].cfg b && s.tmr.ch[n].evAt != some s.t.tbA then
    raise (48 + n.val) (s.onTc n fun c => { c with evAt := some s.t.tbA })
  else s

/-! ## Capture (R254 to R256) -/

/-- One half of a capture that enters CAPR or CAPF, or the hold, or counts as LOST. -/
def TmrCh.capture (falling : Bool) (v : Word) (c : TmrCh) : TmrCh :=
  if c.lock then
    match c.hold with
    | none => { c with hold := some (falling, v), holdPaired := falling && c.prev == 1, prev := if falling then 0 else 2 }
    | some _ => { c with lost := satInc c.lost, prev := 0 }
  else if falling then { c with capf := v, capff := true, paired := c.prev == 1, prev := 0 }
  else { c with capr := v, caprf := true, paired := false, prev := 1 }

/-- The hold moves into the pair and the pair unlocks (R116, R256). -/
def TmrCh.unlock (c : TmrCh) : TmrCh :=
  match c.hold with
  | none => { c with lock := false }
  | some (true, v) => { c with lock := false, hold := none, capf := v, capff := true, paired := c.holdPaired }
  | some (false, v) =>
    { c with lock := false, hold := none, capr := v, caprf := true, paired := false
             prev := if c.prev == 2 then 1 else c.prev }

/-- A capture of the count `v` on channel `n`; a linked pair stores both halves, whichever half is named (R249). -/
def captureAs (n : Fin 32) (falling : Bool) (v : Nat) (s : State) : State :=
  let x := s.tmr
  let one := fun (k : Fin 32) (s : State) => tmrEvent k (if falling then 29 else 28) (s.onTc k (TmrCh.capture falling (pairHalf x k v)))
  if x.ch[govern x n].mode == 0 then s
  else if linked x n then one (oddCh n) (one (evenCh n) s)
  else one n s

/-- The falling edges of a counting input reach its captures alone, with no row of their own (R208, R254). -/
def cntFalling (c : TmrCh) (falling : Bool) : Bool :=
  falling && bit c.cfg 25 && decide (1 ≤ fld c.cfg 23 16) && decide (fld c.cfg 23 16 ≤ 4)

/-- The earliest edge of kind `falling` in channel `n`'s synchroniser that has passed its two ticks, `lag` of them or more, is captured
with the count of the tick in which it arrived (R254, Table 9-6). -/
def captureDue (n : Fin 32) (falling : Bool) (lag : Nat) (s : State) : State :=
  match s.tmr.ch[n].sync with
  | (k, t, v) :: q =>
    if k == falling && come s t && decide (lag ≤ since s t) then
      captureAs n falling (edgeCount s.tmr n (k, t, v)) (s.onTc n fun c => { c with sync := q })
    else s
  | [] => s

/-- An edge of channel `n`'s capture source is captured. The falling edges of a counting input have no row that tells of their arrival:
the first CAPTURE of such an edge is its arrival at the synchroniser, and a later one, two ticks on, captures it. Without an edge, or
with CAPSRC none, nothing is captured. -/
def captureOn (n : Fin 32) (falling : Bool) (s : State) : State :=
  let c := s.tmr.ch[n]
  if oddHalf s.tmr n then s
  else if cntFalling c falling && !c.sync.any (fun e => e.1 && come s e.2.1 && decide (2 ≤ since s e.2.1)) then
    s.onTc n fun c => if c.mode == 0 then c else { c with sync := c.sync ++ [(true, s.t.tbA, none)] }
  else captureDue n falling 2 s

/-- Every edge that has passed `lag` ticks of the synchroniser, in the order of their arrival. -/
def captureEach (n : Fin 32) (lag : Nat) : Nat → State → State
  | 0, s => s
  | k + 1, s => captureEach n lag k (captureDue n false lag (captureDue n true lag s))

/-- A capture trigger that has come for channel `n`, or for the pair of which it is half (R252, Table 9-4). -/
def captureAsked (n : Fin 32) (s : State) (e : Nat × Nat × DWord) : Bool :=
  e.1 == 4 && govern s.tmr (Fin.ofNat 32 e.2.1) == n && come s e.2.2 && e.2.2 != s.t.tbA

/-- The captures of this tick on channel `n` and those before it, which precede a read of the capture pair in it: edges of earlier ticks,
capture triggers, then the edges of this tick (R116, Table 9-3, ranks 4 and 5). -/
def captures (n : Fin 32) (s : State) : State :=
  let g := govern s.tmr n
  let s1 := captureEach g 3 (s.tmr.ch[g].sync.length) s
  let asked := s1.tmr.trigQ.filter (captureAsked g s1)
  let s2 := asked.foldl (fun s _ => captureAs g false (countAt s.tmr s.t.tbA g) s)
    (s1.onTmr fun x => { x with trigQ := x.trigQ.filter fun e => !captureAsked g s1 e })
  captureEach g 2 (s2.tmr.ch[g].sync.length) s2

/-- RDCAPR and RDCAPF on the even channel lock and unlock both halves of a linked pair, on the odd channel neither (R249). -/
def onLock (n : Fin 32) (f : TmrCh → TmrCh) (s : State) : State :=
  if oddHalf s.tmr n then s
  else if linked s.tmr n then (s.onTc n f).onTc (oddCh n) f
  else s.onTc n f

/-- A lock ends without an RDCAPF: the hold moves in on re-evaluation and on wake (R257). -/
def unlockOwned (e : Nat) (s : State) : State :=
  s.onTmr fun x =>
    { x with ch := Tab.gen 32 fun n =>
        let c := x.ch[n]
        if c.lock && fld x.ch[govern x n].cfg 12 8 == e then c.unlock else c }

/-! ## Snapshots (R245, R246) -/

/-- Latches every channel of group `g`, both halves of linked pairs included. -/
def snapGroup (g : Fin 16) (s : State) : State :=
  let x := s.tmr
  let t := s.t.tbA
  let m := x.grp[g].mask
  let hit := fun (n : Fin 32) => bit m n.val || (linked x n && (bit m (evenCh n).val || bit m (oddCh n).val))
  s.onTmr fun x =>
    { x with
      ch := Tab.gen 32 fun n => if hit n then { x.ch[n] with snap := halfAt x t n } else x.ch[n]
      grp := x.grp.upd g fun y => { y with time := t.truncate 32 } }

/-! ## Compares (R248, R250, R251) -/

/-- CMP and ARMED of the start of the tick stay in force in it (R251). -/
def TmrCh.keepCmp (now : DWord) (c : TmrCh) : TmrCh :=
  { c with cmpWas := some (now, c.cmpIn now) }

/-- CMP of channel `n` changes at rank 7 of the tick (R251). -/
def setCmp (n : Fin 32) (f : TmrCh → TmrCh) (s : State) : State := s.onTc n fun c => f (c.keepCmp s.t.tbA)

/-- A write of CMP: a value at or above a non-zero MOD disarms and sets ERR; on a linked pair the low word disarms and the
high word arms. -/
def writeCmp (n : Fin 32) (v : Word) (s : State) : State :=
  let x := s.tmr
  if linked x n then
    if n.val % 2 == 0 then setCmp n (fun c => { c with cmp := v, armed := false }) s
    else setCmp (evenCh n) (fun c => { c with armed := true }) (setCmp n (fun c => { c with cmp := v }) s)
  else if x.ch[n].modv != 0 && !v.ult x.ch[n].modv then setCmp n (fun c => { c with cmp := v, armed := false, err := true }) s
  else setCmp n (fun c => { c with cmp := v, armed := true }) s

/-- Auto-advance of CMP, which a write in the same tick replaces, each half of a pair for itself (R251). -/
def TmrCh.advanceTo (now : DWord) (v : Word) (c : TmrCh) : TmrCh :=
  if c.cmpWas.any fun p => p.1 == now then c else { c with cmp := v }

/-- CMP in force in this tick, all 64 bits of it on a pair (R248, R250). -/
def cmpNow (n : Fin 32) (s : State) : Nat :=
  let x := s.tmr
  let w := (x.ch[n].cmpIn s.t.tbA).1
  if linked x n then ((x.ch[oddCh n].cmpIn s.t.tbA).1 ++ w).toNat else w.toNat

/-- Auto-advance after a match (R248, R250). -/
def advanceCmp (n : Fin 32) (s : State) : State :=
  let x := s.tmr
  let c := x.ch[n]
  let v := (cmpNow n s + c.step.toNat) % modulus x n
  if c.step = 0 then s
  else if linked x n then
    (s.onTc n (TmrCh.advanceTo s.t.tbA (BitVec.ofNat 32 v))).onTc (oddCh n) (TmrCh.advanceTo s.t.tbA (BitVec.ofNat 32 (v / 2 ^ 32)))
  else s.onTc n (TmrCh.advanceTo s.t.tbA (BitVec.ofNat 32 v))

/-- A start that reaches a channel, or the pair of which it is half (R241, R247, R252). -/
def startCh (n : Fin 32) (s : State) : State := s.onTc (govern s.tmr n) fun _ => startAt s.tmr s.t.tbA (govern s.tmr n)

/-- A running FREE channel stops where it stands; the edges on their way keep their counts (R241, R254). -/
def stopAt (x : TmrS) (now : DWord) (n : Fin 32) : TmrCh :=
  { x.ch[n] with run := false, count := BitVec.ofNat 64 (stopCount x now n), sync := edgesKept x now false n }

/-- A stop that reaches a channel, or the pair of which it is half (R241, R247, R252); the count stands where it is. -/
def stopCh (n : Fin 32) (s : State) : State :=
  s.onTc (govern s.tmr n) fun c => if c.mode == 1 && c.run then stopAt s.tmr s.t.tbA (govern s.tmr n) else { c with err := true }

/-- Stops every FREE channel without an error, as at entry to DORMANT (R467). -/
def stopFree (s : State) : State :=
  s.onTmr fun x =>
    { x with ch := Tab.gen 32 fun n =>
        let c := x.ch[n]
        if c.mode == 1 && c.run && !oddHalf x n then stopAt x s.t.tbA n else c }

end Sys2Proof.Machine
end

