-- ==== Sys2Proof/Machine/Alp.lean ====
section
/-! DEFINITION. The current-loop channels (file 10): words, comparators, faults and forcing, gauge, trims and modems. The
commands stand in Analog.lean. -/

namespace Sys2Proof.Machine

/-- Changes one current-loop channel. -/
def State.onA (n : Fin 8) (f : AlpCh → AlpCh) (s : State) : State := s.onAlp fun x => { x with ch := x.ch.upd n f }

/-- Mode of a channel: 0 OFF, 1 IN_POWERED, 2 IN_EXTERNAL, 3 OUT. -/
def AlpCh.mode (c : AlpCh) : Nat := fld c.cfg 1 0

/-- PD-FAN is on (R461). -/
def fanOn (s : State) : Bool := bit s.pwr.domains 8

/-- The converters and modems of PD-FAN run: they are clocked by CK-ALP, from the PLL (R34). -/
def alpClock (s : State) : Bool := fanOn s && s.pwr.pllLock

/-- Code of a current in nA (R265). -/
def codeOf (nA : Nat) : Half := BitVec.ofNat 16 (min ((nA * 65536 + 12000000) / 24000000) 0xFFFF)

/-- Current in nA of a code (R265). -/
def currentOf (c : Half) : Nat := c.toNat * 24000000 / 65536

/-- A lockout or a gauge test forces the channel, and a test that has not passed since cast-on keeps it forced (R274,
R276). -/
def AlpCh.forced (c : AlpCh) : Bool := c.mode != 0 && (!c.causes.isEmpty || c.gaugeRun || !c.passed)

/-- The comparator levels presented to both channels (R270 to R274, R153). -/
def presentedCmp (s : State) (n : Fin 8) (k : Nat) : Bool :=
  let c := s.alp.ch[n]
  fanOn s && !c.forced && bit c.cmp k

/-- Comparator k of ALPn as window cell 2n + k latches it. -/
def comparators (s : State) : Half :=
  maskOf 16 fun w => if h : w / 2 < 8 then presentedCmp s ⟨w / 2, h⟩ (w % 2) else false

/-- Comparator `k` of channel `c` for a current (R270). -/
def comparatorStep (c : AlpCh) (k : Fin 2) (nA : Nat) : Bool :=
  let lo := fld c.win[k] 11 0 * 10000
  let hi := fld c.win[k] 27 16 * 10000
  if lo + 50000 ≤ nA ∧ nA + 50000 ≤ hi then true
  else if nA + 50000 < lo ∨ hi + 50000 < nA then false
  else bit c.cmp k.val

/-- Coding of a cause in ALPSTAT [9:6]. -/
def AlpCause.code : AlpCause → Nat
  | .complianceLow => 1 | .openLoop => 2 | .loopShort => 3 | .windowMismatch => 4 | .gaugeFail => 5 | .gaugeDrift => 6
  | .vanLow => 7

/-- A trim of an OUT channel runs: the device drives the trim's point (R266, R278). -/
def trimDrives (s : State) (n : Fin 8) : Bool :=
  s.alp.ch[n].mode == 3 && s.sys.runState == .service && s.alp.armed == some n

/-- An OUT channel drives its fail value (R266). -/
def failValue (s : State) (n : Fin 8) : Bool :=
  let c := s.alp.ch[n]
  let rs := s.sys.runState
  c.mode == 3 && !trimDrives s n && (c.timedOut || rs == .castOn || rs == .lockout || rs == .halt || rs == .service)

/-- Setpoint in force of an OUT channel: the point of a running trim, its fail value, or the code its owner wrote (R266, R278). -/
def setInForce (s : State) (n : Fin 8) : Half :=
  let c := s.alp.ch[n]
  if trimDrives s n then codeOf (if s.alp.drive then 20000000 else 4000000)
  else if failValue s n then
    match fld c.cfg 7 6 with | 1 => codeOf 3200000 | 2 => codeOf 22000000 | _ => 0
  else c.set

/-- Field trim of a raw code (R279, ALP_CHn_TRIM). The spec gives the fields and not the arithmetic: a trimmed code is a
free value of the code and the fields. -/
def trimmed (c : AlpCh) (raw : Half) : Half := if c.gain = 0 then raw else Config.fieldTrim raw c.zero c.gain

/-- Code of the current that the driver of an OUT channel is set to: none while a gauge test has the loop disconnected (R276), else
the setpoint in force, which a field trim corrects where the owner wrote it (R279). -/
def driven (s : State) (n : Fin 8) : Half :=
  let c := s.alp.ch[n]
  if c.mode != 3 || c.gaugeRun || !fanOn s then 0
  else if trimDrives s n || failValue s n then setInForce s n else trimmed c c.set

/-- The ALPVAL word. -/
def alpVal (s : State) (n : Fin 8) : Word :=
  let c := s.alp.ch[n]
  at_ c.code.toNat 0 ||| at_ c.seq.toNat 16

/-- The ALPSTAT word. It shows NE43_LOW for CODE 0 at reset too (DEDUCED, log 134). -/
def alpStat (s : State) (n : Fin 8) : Word :=
  let c := s.alp.ch[n]
  flag (c.wf[0].primed && c.wf[0].lvl) 0 ||| flag (c.wf[1].primed && c.wf[1].lvl) 1 |||
  flag (presentedCmp s n 0) 2 ||| flag (presentedCmp s n 1) 3 ||| flag c.forced 4 ||| flag (!c.causes.isEmpty) 5 |||
  at_ (match c.causes.head? with | some x => x.code | none => 0) 6 ||| flag c.compliance 10 ||| flag c.openLoop 11 |||
  flag c.short 12 ||| flag (c.code.ult 0x2666) 13 ||| flag ((0xE000 : Half).ult c.code) 14 ||| flag c.stale 15 |||
  flag (failValue s n) 16 ||| flag c.gaugeOk 17 ||| flag (c.gain != 0) 18

/-- The ALP_MDMn_STAT word. -/
def mdmStat (c : AlpCh) : Word :=
  at_ c.rx.length 0 ||| at_ (16 - c.tx.length) 5 ||| flag c.cd 10 ||| flag c.txOn 11 ||| flag c.txOvf 12 |||
  at_ c.errors.toNat 13 ||| at_ c.dropped.toNat 20

/-- Events EV80 + n for every channel whose ALPSTAT [1:0], [5:4], [9:6] or [14:13] differs from before (R285). -/
def noteAlp (old : State) (s : State) : State :=
  let key := fun (s : State) (n : Fin 8) => alpStat s n &&& 0x63F3
  each (List.finRange 8) (fun n s => if key old n != key s n then raise (80 + n.val) s else s) s

/-- A switch test that was under way ends (R373, R377): EV5, and its command is done. -/
def noteTest (old s : State) : State :=
  if (old.sout.o.any fun o => o.test) && !(s.sout.o.any fun o => o.test) then
    raise 5 (s.onDiag fun d => { d with result := if d.result = 1 then 0 else d.result })
  else s

/-- Runs `f` and raises the events of the input pairs, outputs and analog channels whose words it changed (R211, R237,
R285), and that of a switch test it ends. -/
def noting (f : State → State) (s : State) : State :=
  let s' := f s
  noteTest s (noteAlp s (noteOuts s (notePairs s.sin s')))

/-- A channel fault (R274): the report; on a SAFETY channel the lockout and its forcing. -/
def alpFault (c : AlpCause) (n : Fin 8) (s : State) : State :=
  (report (locRep (BitVec.ofNat 16 (0x6F + c.code)) 6 n.val) s).onA n fun x =>
    if bit x.cfg 4 && !x.causes.contains c then { x with causes := x.causes ++ [c] } else x

/-- The condition of a cause is still present (Table 10-6). -/
def AlpCh.cond (x : AlpCh) : AlpCause → Bool
  | .complianceLow => x.compliance
  | .openLoop => x.openLoop
  | .loopShort => x.short
  | .windowMismatch => x.mismatch
  | .gaugeFail => x.gaugeBad
  | .gaugeDrift => x.drift
  | .vanLow => x.vanLow

/-- A release event of slot `r` clears the lockouts of the channels that name it (R275). -/
def relAlp (r : Fin 8) (s : State) : State :=
  s.onAlp fun x =>
    { x with ch := x.ch.map fun c =>
        if bit c.cfg 11 && fld c.cfg 10 8 == r.val && !c.causes.any c.cond then { c with causes := [] } else c }

/-- One toggle of fault line B: channel A's entry and leave filters of every comparator, those of the same window cell
(R271). -/
def windowsA (s : State) : State :=
  s.onAlp fun x => { x with ch := Tab.gen 8 fun n =>
    let c := x.ch[n]
    let step := fun (k : Fin 2) =>
      let cell := s.hld.win.getN (2 * n.val + k.val) {}
      let v := presentedCmp s n k.val
      if cell.valid then c.wf[k].tick (if v then fld cell.w1 11 0 else fld cell.w1 27 16) s.t.cyc v else c.wf[k]
    { c with wf := Tab.gen 2 step } }

/-- A conversion trigger (R264). -/
def convTrigger (n : Fin 8) (s : State) : State :=
  s.onA n fun c =>
    if c.mode == 0 then c
    else if bit c.cfg 3 || c.conv then { c with ovr := satInc c.ovr } else { c with conv := true }

/-- Entry j of the check of R273 disagrees with a converted value: comparator j / 2 presents 0 while the value lies 0.25 mA or more
inside its window (j even), or 1 while it lies 0.25 mA or more outside (j odd). -/
def mismatched (c : AlpCh) (j : Fin 4) (nA : Nat) : Bool :=
  let w := c.win.getN (j.val / 2) 0
  let lo := fld w 11 0 * 10000
  let hi := fld w 27 16 * 10000
  let inside := decide (lo + 250000 ≤ nA) && decide (nA + 250000 ≤ hi)
  let outside := decide (nA + 250000 ≤ lo) || decide (hi + 250000 ≤ nA)
  bit w 31 && if j.val % 2 = 0 then inside && !bit c.cmp (j.val / 2) else outside && bit c.cmp (j.val / 2)

/-- The converter-comparator check of one conversion (R273). -/
def mismatchCheck (n : Fin 8) (s : State) : State :=
  let c := s.alp.ch[n]
  let v := currentOf c.code
  let now := s.t.tbA
  let mm := Tab.gen 4 fun k =>
    if mismatched c k v then (if c.mm[k].1 = 0 then (1, now) else (min 3 (c.mm[k].1 + 1), c.mm[k].2)) else (0, now)
  let bad := (List.finRange 4).any fun k => mm[k].1 == 3 && decide (usec 15000 ≤ (now - mm[k].2).toNat)
  let ok := (List.finRange 4).all fun k => mm[k].1 == 0
  let mmOk := if ok then min 3 (c.mmOk + 1) else 0
  let s1 := s.onA n fun c => { c with mm := mm, mmOk := mmOk, mismatch := if bad then true else if mmOk == 3 then false else c.mismatch }
  if bad && !c.mismatch then alpFault .windowMismatch n s1 else s1

/-! ## Modem transmitter (R280) -/

/-- Ticks of timebase A that one character takes: 11 bits of 3072 CK-ALP clocks at 1200 bit/s (Table 10-4). -/
def charTicks : Nat := 1833333

/-- Characters whose time on the line has passed since the present one began (R280). -/
def charsSent (s : State) (c : AlpCh) : Nat :=
  if c.txOn && come s c.txAt then since s c.txAt / charTicks else 0

/-- The transmitter runs: a character whose time has passed leaves the FIFO; the last one leaves it at MODEM_TX_EMPTY (R280,
R285). -/
def modemsRun (s : State) : State :=
  if !alpClock s then s
  else s.onAlp fun x =>
    { x with ch := x.ch.map fun c =>
        let k := min (charsSent s c) (c.tx.length - 1)
        if k = 0 then c else { c with tx := c.tx.drop k, txAt := c.txAt + BitVec.ofNat 64 (k * charTicks) } }

end Sys2Proof.Machine
end

