-- ==== Sys2Proof/Machine/Csl.lean ====
section
/-! DEFINITION. The session unit (file 11): telegrams and their context (R292, R293), sessions (R294 to R306), data built
at SEAL (R311), remote links (R312, R313) and the host-link queues (R315). -/

namespace Sys2Proof.Machine

/-! ## Telegrams -/

/-- The context block (Table 11-3). -/
def cslContext (snd rcv : Word) (inc hi : Half) : List Byte := wordBytes snd ++ wordBytes rcv ++ halfBytes inc ++ halfBytes hi

/-- A telegram (Table 11-1) with its CRC over context and bytes (R293). -/
def telegram (snd rcv : Word) (inc hi : Half) (ty : Nat) (conn seq echo : Half) (pl : List Byte) : List Byte :=
  let body := [BitVec.ofNat 8 (0x10 + ty)] ++ halfBytes conn ++ halfBytes seq ++ halfBytes echo ++
    [BitVec.ofNat 8 pl.length] ++ pl
  body ++ wordBytes (crc32c (cslContext snd rcv inc hi ++ body))

/-- Low 16 bits of a sequence. -/
def lo16 (w : Word) : Half := w.extractLsb' 0 16
/-- Upper 16 bits of a sequence. -/
def hi16 (w : Word) : Half := w.extractLsb' 16 16

/-- The candidate sequence of a received field (R295), with d. -/
def candidate (l : Word) (win : Nat) (q : Half) : Word × Nat :=
  let d := (q - lo16 l).toNat
  (if 1 ≤ d ∧ d ≤ win then l + BitVec.ofNat 32 d else hi16 l ++ q, d)

/-- The own sequence an echo names (R296). -/
def echoSeq (t : Word) (e : Half) : Word := t - (lo16 t - e).zeroExtend 32

/-! ## Session fields -/

/-- TRANSPORT. -/
def Sess.transport (x : Sess) : Nat := fld x.cfg 1 0
/-- IF. -/
def Sess.iface (x : Sess) : Fin 2 := if bit x.cfg 2 then 1 else 0
/-- ROLE: the device is the responder. -/
def Sess.responder (x : Sess) : Bool := bit x.cfg 3
/-- OWNER. -/
def Sess.owner (x : Sess) : Nat := fld x.cfg 7 6
/-- TX_LEN. -/
def Sess.txLen (x : Sess) : Nat := fld x.cfg 14 8
/-- USED. -/
def Sess.present (x : Sess) : Bool := bit x.cfg 15
/-- RX_LEN. -/
def Sess.rxLen (x : Sess) : Nat := fld x.cfg 22 16
/-- CONN_ID. -/
def Sess.conn (x : Sess) : Half := lo16 x.cfg2
/-- TE in ticks of timebase A. -/
def Sess.te (x : Sess) : Nat := fld x.cfg2 29 16 * 200000
/-- WIN. -/
def Sess.win (x : Sess) : Nat := fld x.cfg3 15 8

/-- Changes one session. -/
def State.onS (n : Fin 256) (f : Sess → Sess) (s : State) : State := s.onCsl fun x => { x with s := x.s.upd n f }

/-- Received data is valid (R297). -/
def Sess.valid (now : DWord) (x : Sess) : Bool :=
  x.st == .run && match x.accAt with | some t => decide ((now - t).toNat ≤ x.te) | none => false

/-- Coding of a session state (Table 11-8). -/
def SessSt.code : SessSt → Nat
  | .closed => 0 | .quarantine => 1 | .opening => 2 | .run => 3 | .fault => 4

/-- The status word of Table 11-8. -/
def sessWord (now : DWord) (x : Sess) : Word :=
  at_ x.st.code 0 ||| flag (x.valid now) 3 ||| flag x.fresh 4 ||| flag x.quar 5 ||| at_ x.cause.toNat 8 |||
  at_ (match x.accAt with | some t => min ((now - t).toNat / 50000) 0xFFFF | none => 0) 16

/-- Word `i` of the received data: 0 while it is not valid (R309). -/
def dataWord (now : DWord) (x : Sess) (i : Nat) : Word :=
  if x.valid now then bytesWord ((x.payload.drop (4 * i)).take 4) else 0

/-- A received payload bit; 0 beyond the received length (R312). -/
def payloadBit (x : Sess) (b : Nat) : Bool := bit (x.payload.getD (b / 8) 0) (b % 8)

/-- Changes a session; a change of STATE raises EV96 (R318). -/
def sessSet (n : Fin 256) (f : Sess → Sess) (s : State) : State :=
  let s1 := s.onS n f
  if s1.csl.s[n].st = s.csl.s[n].st then s1 else raise 96 s1

/-- The session unit sends and accepts in SAFE-HOLD, RUN, LOCKOUT and SERVICE only (R307). -/
def cslAwake (s : State) : Bool :=
  match s.sys.runState with
  | .safeHold | .run | .lockout | .service => true
  | .castOn | .halt | .dormant => false

/-! ## Transports (R314) -/

/-- A list of what was handed to an interface keeps its latest 16 entries (the model's own record). -/
def consOut {α : Type} (x : α) (l : List α) : List α := consCap 16 x l

/-- Work of the session unit on which its two checkers agree or not: under a disagreement nothing of it is accepted or sent, and the
device fault CSL_CHECK follows (R288). -/
def checked (agree : Bool) (f : State → State) (s : State) : State := if agree then f s else devFault (devRep 0x45 0 0) s

/-- Hands a telegram of session `n` to its transport. -/
def sendTele (n : Fin 256) (bs : List Byte) (s : State) : State :=
  let x := s.csl.s[n]
  if !cslAwake s then s
  else match x.transport with
  | 0 => s.onLink fun l => { l with
      ethOut := consOut (x.iface, ⟨x.addr, x.addr2.extractLsb' 0 16, s.csl.udpPort, bs, false⟩) l.ethOut }
  | 1 => s.onLink fun l => { l with
      canOut := consOut (x.iface, { ext := bit x.addr 31, id := x.addr.extractLsb' 0 29, fd := true,
                                    data := bs ++ List.replicate (64 - bs.length) 0 }) l.canOut }
  | 2 => if s.csl.hlTx.length < 16 then raise 99 (s.onCsl fun c => { c with hlTx := c.hlTx ++ [bs] }) else s
  | _ => s

/-- Sends OPEN (1) or OPEN_ACK (2) of a session (R299, R301). -/
def sendOpen (ty : Nat) (n : Fin 256) (s : State) : State :=
  let x := s.csl.s[n]
  sendTele n (telegram s.csl.id x.peer x.inc 0 ty x.conn 0 0 (halfBytes x.inc ++ [0, 0] ++ wordBytes x.param)) s

/-- Sends the next sequenced telegram of a session: DATA (3) or CLOSE (4) (R294, R296). -/
def sendNext (ty : Nat) (n : Fin 256) (pl : List Byte) (s : State) : State :=
  let s1 := s.onS n fun x => { x with tx := x.tx + 1, times := consCap 32 s.t.tbA x.times }
  let x := s1.csl.s[n]
  sendTele n (telegram s.csl.id x.peer x.inc (hi16 x.tx) ty x.conn (lo16 x.tx) (lo16 x.acc) pl) s1

/-! ## Remote links (R312, R313) -/

/-- Output `k` is named by a link in remote lockout. -/
def remoteHeld (s : State) (k : Nat) : Bool := s.csl.link.any fun l => l.locked && bit l.mask k
/-- Port `p` is named by a link in remote lockout. -/
def remotePort (s : State) (p : Nat) : Bool := s.csl.link.any fun l => l.locked && bit l.mask (16 + p)

/-- Every output holds the cause REMOTE exactly while a link in lockout names it or its parallel partner (R217, R236, R312). -/
def applyRemote (s : State) : State :=
  each (List.finRange 16) (fun k s =>
    if (both s.sout k).any fun j => remoteHeld s j.val then addCause k .remote 0 s
    else driveA <| s.onO k fun o => { o with causes := o.causes.filter fun c => c.1 != .remote }) s

/-- Sets the remote lockouts of the links of session `n` whose bit satisfies `f`. -/
def linkLock (n : Fin 256) (f : Nat → Bool) (s : State) : State :=
  let hit := fun (l : LinkC) => bit l.cfg 27 && fld l.cfg 23 16 == n.val && !l.locked && f (fld l.cfg 8 0)
  if s.csl.link.any hit then
    raise 101 <| applyRemote <| s.onCsl fun c =>
      { c with link := c.link.map fun l => if hit l then { l with locked := true } else l }
  else s

/-- A release event of slot `r` clears the remote lockouts whose conditions hold in the same evaluation (R313). A cleared output
whose demand is on energises at once (R313, R234). -/
def relLinks (r : Fin 8) (s : State) : State :=
  let hit := fun (l : LinkC) =>
    let x := s.csl.s[(Fin.ofNat 256 (fld l.cfg 23 16))]
    bit l.cfg 27 && l.locked && fld l.cfg 26 24 == r.val && x.valid s.t.tbA && payloadBit x (fld l.cfg 8 0) &&
      (List.finRange 16).all fun k => !(bit l.mask k.val && s.sout.o[k].rb)
  if s.csl.link.any hit then
    raise 101 <| energise <| applyRemote <| s.onCsl fun c =>
      { c with link := c.link.map fun l => if hit l then { l with locked := false } else l }
  else s

/-! ## Session states (R299 to R306) -/

/-- An incarnation of the device is about to be used: the settings store is written first where it would reach the next
epoch (R300). -/
def useInc (inc : Half) (s : State) : State :=
  if inc = (s.upd.epoch + 1).zeroExtend 16 * 256 then s.keepRec (.epoch (s.upd.epoch + 1)) else s

/-- Entry to OPENING: an initiator takes its next incarnation and sends OPEN; a responder waits (R299 to R301). -/
def startOpening (n : Fin 256) (s : State) : State :=
  let x := s.csl.s[n]
  if x.responder then sessSet n (fun x => { x with st := .opening, pend := false }) s
  else
    let inc := if x.used then x.inc + 1 else x.inc
    let s1 := sessSet n (fun x => { x with
      st := .opening, pend := false, inc := inc, used := true, tx := 0, l := 0, acc := 0, eAcc := 0
      times := [s.t.tbA], accAt := none }) (useInc inc s)
    sendOpen 1 n s1

/-- Entry to RUN (R297, R311): the last accepted telegram counts as that of the own OPEN or OPEN_ACK. -/
def enterRunSess (n : Fin 256) (s : State) : State :=
  sessSet n (fun x => { x with st := .run, eAcc := 0, accAt := x.times.getLast?, divs := 0, payload := [] }) s

/-- A session leaves RUN: the connection ID is released into quarantine and the data is no longer valid (R302, R312). -/
def leaveRunSess (n : Fin 256) (st : SessSt) (pend : Bool) (s : State) : State :=
  linkLock n (fun _ => true) <| sessSet n (fun x => { x with st := st, quar := true, quarAt := s.t.tbA, pend := pend }) s

/-- A session fault (R305, Table 11-7): reported, and in RUN the session leaves for FAULT. -/
def sessFault (n : Fin 256) (c : Nat) (s : State) : State :=
  let s1 := raise 97 <| report (locRep (BitVec.ofNat 16 (0x77 + c)) 7 n.val) <|
    s.onS n fun x => { x with cause := BitVec.ofNat 4 c }
  if s.csl.s[n].st = .run then leaveRunSess n .fault false s1 else s1

/-- A dropped stitch (R306, R318). -/
def droppedStitch (n : Fin 256) (s : State) : State :=
  let s1 := s.onS n fun x => { x with dropped := satInc x.dropped, run := satInc x.run, hourNow := x.hourNow + 1 }
  let x := s1.csl.s[n]
  let due := match s.csl.ev98At with | some t => decide (since s t ≥ 2000000) | none => true
  let s2 := if due then raise 98 (s1.onCsl fun c => { c with ev98At := some s.t.tbA }) else s1
  if x.run.toNat == fld x.cfg 27 24 || x.hourNow + x.hourPrev > fld x.cfg3 23 16 then sessFault n 2 s2 else s2

/-- An OPEN command (R304). -/
def sessOpen (n : Fin 256) (s : State) : State :=
  let x := s.csl.s[n]
  if x.st = .closed then
    if x.quar then sessSet n (fun x => { x with st := .quarantine, pend := true }) s else startOpening n s
  else s

/-- A CLOSE command (R304): CLOSE is sent once. -/
def sessClose (n : Fin 256) (s : State) : State :=
  if s.csl.s[n].st = .run then leaveRunSess n .quarantine false (sendNext 4 n [0] s) else s

/-- A RESTART command (R305). -/
def sessRestart (n : Fin 256) (s : State) : State :=
  let x := s.csl.s[n]
  if x.st = .fault then
    if x.quar then sessSet n (fun x => { x with st := .quarantine, pend := true }) s else startOpening n s
  else s

/-- The length of a quarantine has passed: max(2 × TE, 1 s) (R302). -/
def quarPassed (s : State) (x : Sess) : Bool := come s x.quarAt && decide (max (2 * x.te) (usec 1000000) ≤ since s x.quarAt)

/-- The quarantine of a connection ID ends (R302, R304, R305). -/
def quarEnd (n : Fin 256) (s : State) : State :=
  let x := s.csl.s[n]
  if !x.quar || !quarPassed s x then s
  else
    let s1 := s.onS n fun x => { x with quar := false }
    match x.st with
    | .quarantine => if x.pend then startOpening n s1 else sessSet n (fun x => { x with st := .closed }) s1
    | .fault => if bit x.cfg 5 then startOpening n s1 else s1
    | .closed | .opening | .run => s1

/-- At a cast-on every connection ID starts in quarantine, and a session with AUTO_OPEN holds a pending OPEN, which waits in
QUARANTINE (R303, R304). -/
def Sess.castOn (inc : Half) (x : Sess) : Sess :=
  if x.present then { x with inc := inc, quar := true, pend := bit x.cfg 4, st := if bit x.cfg 4 then .quarantine else .closed }
  else { x with inc := inc }

/-- Entry to SAFE-HOLD after a cast-on or a wake: every connection ID is in quarantine, counted from now (R303); a session waits in
QUARANTINE where an OPEN is pending, else it is CLOSED. -/
def quarAll (s : State) : State :=
  let s1 := s.onCsl fun c => { c with s := c.s.map fun x =>
    if x.present then { x with quar := true, quarAt := s.t.tbA, st := if x.pend then .quarantine else .closed } else x }
  if s.csl.s.any fun x => x.present && x.st != (if x.pend then .quarantine else .closed) then raise 96 s1 else s1

/-- On SLEEP every session in RUN sends CLOSE and counts as CLOSED (R307). -/
def closeAll (s : State) : State :=
  each (List.finRange 256) (fun n s =>
    if s.csl.s[n].st = .run then leaveRunSess n .closed false (sendNext 4 n [0] s)
    else if s.csl.s[n].present then sessSet n (fun x => { x with st := .closed, pend := false }) s else s) s

/-- The CLOSE telegrams of a SLEEP are built with a disagreement of the checkers (R288). -/
def closeFails (agree : Bool) (s : State) : Bool := !agree && s.csl.s.any fun x => x.st == .run

/-- Ticks of timebase A in a whole hour. -/
def hourTicks : Nat := 720000000000

/-! ## Receiving (R298 to R301) -/

/-- The state of a received telegram before its session is judged. -/
def wellFormedTele (bs : List Byte) : Bool :=
  let n := (bs.getD 7 0).toNat
  decide (12 ≤ bs.length) && (bs.getD 0 0).toNat / 16 == 1 && n ≤ 64 && bs.length == 12 + n

/-- An OPEN or OPEN_ACK that passed its CRC (R299, R301). -/
def recvOpen (n : Fin 256) (ty : Nat) (inc : Half) (param : Word) (s : State) : State :=
  let x := s.csl.s[n]
  if x.quar then s
  else if ty == 2 then
    if !x.responder && x.st == .opening && inc == x.inc && param == x.param then enterRunSess n s else s
  else if !x.responder then s
  else
    let newer := match x.lastInc with | none => true | some l => decide (1 ≤ (inc - l).toNat ∧ (inc - l).toNat ≤ 32767)
    match x.st with
    | .opening =>
      if param ≠ x.param then sessFault n 6 s
      else if newer then
        sendOpen 2 n <| enterRunSess n <| s.onS n fun x => { x with
          inc := inc, lastInc := some inc, tx := 0, l := 0, acc := 0, eAcc := 0, times := [s.t.tbA] }
      else s
    | .run =>
      if newer then sessFault n 5 s
      else if inc == x.inc && param == x.param then sendOpen 2 n s else s
    | .closed | .quarantine | .fault => s

/-- A telegram of session `n`, in the order of R298. -/
def recvSess (n : Fin 256) (bs : List Byte) (s : State) : State :=
  if !wellFormedTele bs then droppedStitch n s
  else
    let x := s.csl.s[n]
    let len := (bs.getD 7 0).toNat
    let ty := (bs.getD 0 0).toNat % 16
    let q := bytesHalf ((bs.drop 3).take 2)
    let echo := bytesHalf ((bs.drop 5).take 2)
    let pl := (bs.drop 8).take len
    let isOpen := ty == 1 || ty == 2
    let cd := candidate x.l x.win q
    let pInc := bytesHalf (pl.take 2)
    let ctx := cslContext x.peer s.csl.id (if isOpen then pInc else x.inc) (if isOpen then 0 else hi16 cd.1)
    if crc32c (ctx ++ bs.take (8 + len)) ≠ bytesWord (bs.drop (8 + len)) then droppedStitch n s
    else
      let s1 := s.onS n fun x => { x with run := 0 }
      if isOpen then (if len == 8 then recvOpen n ty pInc (bytesWord (pl.drop 4)) s1 else s1)
      else if x.st != .run || (ty != 3 && ty != 4) then s1.onS n fun x => { x with unexpected := satInc x.unexpected }
      else if !(decide (1 ≤ cd.2) && decide (cd.2 ≤ x.win)) then s1.onS n fun x => { x with stale := satInc x.stale }
      else
        let s2 := s1.onS n fun x => { x with l := cd.1 }
        if ty == 4 then sessFault n 4 s2
        else if len ≠ x.rxLen then sessFault n 3 s2
        else
          let e := echoSeq x.tx echo
          let age := (x.tx - e).toNat
          if e < x.eAcc then sessFault n 3 s2
          else
            match x.times[age]? with
            | some t =>
              if since s t ≤ x.te then
                let s3 := s2.onS n fun x => { x with
                  eAcc := e, accAt := some t, acc := cd.1, payload := pl, fresh := true }
                linkLock n (fun b => !payloadBit s3.csl.s[n] b) s3
              else s2.onS n fun x => { x with aged := satInc x.aged }
            | none => s2.onS n fun x => { x with aged := satInc x.aged }

/-- An unknown telegram on transport `t` (R298). -/
def unknownTele (t : Fin 3) (s : State) : State := s.onCsl fun c => { c with unknown := c.unknown.upd t satInc }

/-- Connection ID of a unit, if it holds one. -/
def teleConn (bs : List Byte) : Option Half := if bs.length < 3 then none else some (bytesHalf ((bs.drop 1).take 2))

/-- A received unit: its transport address and connection ID select the session (R298); the two checkers may disagree
(R288). A unit of another form than its transport's is a dropped stitch of the session it names (R314). -/
def recvUnit (t : Fin 3) (addr : Sess → Bool) (form : Bool) (bs : List Byte) (agree : Bool) (s : State) : State :=
  if !cslAwake s then s
  else checked agree (fun s =>
    match (List.finRange 256).find? fun n =>
        let x := s.csl.s[n]
        x.present && x.transport == t.val && addr x && teleConn bs == some x.conn with
    | some n => if form then recvSess n bs s else droppedStitch n s
    | none => unknownTele t s) s

/-- A datagram at CSL_UDP_PORT of interface `i`; one that came in fragments is discarded unread (Table 11-9). -/
def recvUdp (i : Fin 2) (d : Datagram) (agree : Bool) (s : State) : State :=
  if d.frag then s
  else recvUnit 0 (fun x => x.iface == i && x.addr == d.ip && x.addr2.extractLsb' 0 16 == d.port) true d.data agree s

/-- A session of controller `c` takes frames of identifier `f.id`. -/
def canSession (s : State) (c : Fin 2) (f : CanFrame) : Bool :=
  s.csl.s.any fun x => x.present && x.transport == 1 && x.iface == c && x.addr2.extractLsb' 0 29 == f.id && bit x.addr2 31 == f.ext

/-- A CAN frame on a session identifier (Table 11-9): one FD frame with 64 data bytes; a classic frame counts as unknown, padding is
not checked. -/
def recvCan (c : Fin 2) (f : CanFrame) (agree : Bool) (s : State) : State :=
  if !cslAwake s then s
  else if !f.fd then unknownTele 1 s
  else
    let bs := f.data.take (12 + (f.data.getD 7 0).toNat)
    recvUnit 1 (fun x => x.iface == c && x.addr2.extractLsb' 0 29 == f.id && bit x.addr2 31 == f.ext) (f.data.length == 64) bs agree s

/-- The session unit takes the telegrams that wait in the host-link receive queue, in each B cycle (R315, R318). -/
def hlDrain (agree : Bool) (s : State) : State :=
  if !cslAwake s || s.csl.hlRx.isEmpty then s
  else
    let s1 := each s.csl.hlRx (fun bs s => recvUnit 2 (fun _ => true) true bs agree s) (s.onCsl fun c => { c with hlRx := [] })
    if s.csl.hlRx.length < 16 then s1 else raise 100 s1

/-- A write frame at CSL_HL_RX submits one telegram to the receive queue (R315). -/
def hlSubmit (ws : List Word) (s : State) : State :=
  let len := fld (ws.getD 0 0) 6 0
  if ws.length ≠ 1 + (len + 3) / 4 then unknownTele 2 s
  else if s.csl.hlRx.length < 16 then
    s.onCsl fun c => { c with hlRx := c.hlRx ++ [((ws.drop 1).flatMap wordBytes).take len] }
  else s.onCsl fun c => { c with rxOvf := true }

/-- A 20-word read at CSL_HL_TX: the oldest telegram, which leaves the queue (R315). -/
def hlTake (s : State) : List Word × State :=
  match s.csl.hlTx with
  | [] => (List.replicate 20 0, s)
  | bs :: rest =>
    let ws := bytesWords bs
    (((at_ bs.length 0 ||| at_ 1 7) :: ws ++ List.replicate (19 - ws.length) 0), s.onCsl fun c => { c with hlTx := rest })

/-! ## SEAL (R310, R311) -/

/-- Staged bytes of session `n`: each staged word at its place, the rest 0; the latest write of a word holds. -/
def stagedPayload (staged : List (Nat × Word)) (n : Fin 256) : List Byte :=
  (List.range 16).flatMap fun i =>
    wordBytes ((staged.filter fun w => w.1 == 0x6000 + 16 * n.val + i).getLast? |>.map Prod.snd |>.getD 0)

/-- A CSLSESS command word reaches the session unit; any other value is ignored (R310). -/
def sessCommand (n : Fin 256) (w : Word) (s : State) : State :=
  match w.toNat with
  | 1 => sessOpen n s
  | 2 => sessClose n s
  | 3 => sessRestart n s
  | _ => s

/-- Sessions of core `c` that build a DATA telegram at this SEAL. -/
def dataDue (s : State) (c : Fin 4) : List (Fin 256) :=
  (List.finRange 256).filter fun n =>
    let x := s.csl.s[n]
    x.present && x.owner == c.val && x.st == .run && (x.divs + 1) % (max 1 (fld x.cfg3 7 0)) == 0

/-- The session unit at a SEAL of core `c` (R310, R311): the staged commands in program order, then one DATA telegram of
every session whose divider is due; outside RUN its payload is all zero (R307), and while the unit sleeps none is built. Where the
two checkers disagree, no command acts, nothing is sent and CSL_CHECK follows (R288). -/
def cslSeal (c : Fin 4) (staged : List (Nat × Word)) (agree : Bool) (s : State) : State :=
  let cmds := staged.filter fun w => 0x7000 ≤ w.1 && w.1 < 0x7100
  let s1 := if cmds.isEmpty || s.sys.runState == .halt then s
    else checked agree (each cmds fun w s => sessCommand (Fin.ofNat 256 (w.1 - 0x7000)) w.2 s) s
  let due := dataDue s1 c
  let s2 := s1.onCsl fun x => { x with s := x.s.map fun y =>
    if y.present && y.owner == c.val && y.st == .run then { y with divs := y.divs + 1 } else y }
  if due.isEmpty || !cslAwake s then s2
  else checked agree (each due fun n s =>
    let len := s.csl.s[n].txLen
    sendNext 3 n (if s.sys.runState == .run then (stagedPayload staged n).take len else List.replicate len 0) s) s2

/-- FRESH refers to the owning core's latest release (Table 11-8). -/
def clearFresh (c : Fin 4) (s : State) : State :=
  s.onCsl fun x => { x with s := x.s.map fun y => if y.owner == c.val then { y with fresh := false } else y }

end Sys2Proof.Machine
end

