-- ==== Sys2Proof/Machine/Mem.lean ====
section
/-! DEFINITION. The memories of the engines (R68 to R72): the windows of Table 3-3, the rights of shared blocks, byte reads
and writes in one canonical form, and the check bits of words. -/

namespace Sys2Proof.Machine

/-! ## Engine classes (Table 3-1) -/

/-- Engine classes. -/
inductive Cls where
  | sc | hart | se | ce | bc | uc
  deriving DecidableEq, Repr

/-- Class of an owner code of Table 9-2. -/
def clsOf (e : Fin 24) : Cls :=
  if e.val < 4 then .sc else if e.val < 12 then .se else if e.val < 14 then .ce
  else if e.val = 14 then .bc else if e.val = 15 then .uc else .hart

/-- Memory of an engine: its own, or that of the safety core a hart belongs to. -/
def memOf (e : Fin 24) : Fin 16 := if h : e.val < 16 then ⟨e.val, h⟩ else ⟨(e.val - 16) / 2, by omega⟩

/-- Safety core of an engine code below 4, or of a hart. -/
def coreOf (e : Fin 24) : Fin 4 := if h : e.val < 4 then ⟨e.val, h⟩ else Fin.ofNat 4 ((e.val - 16) / 2)

/-- Index of the code size C of a stitch, carrier or update engine. -/
def sizeIdx (e : Fin 24) : Nat := if e.val = 15 then 10 else e.val - 4

/-- Code size C in bytes. -/
def codeBytes (m : MemS) (e : Fin 24) : Nat := (m.codeSize.getN (sizeIdx e) 0).toNat * 4096

/-- Bytes of code and data memory together of a stitch, carrier or update engine. -/
def bothBytes (e : Fin 24) : Nat := match clsOf e with | .se => 32768 | .ce => 98304 | _ => 122880

/-! ## Windows (Table 3-3) -/

/-- Code window: base and size. -/
def codeWin (m : MemS) (e : Fin 24) : Nat × Nat :=
  match clsOf e with
  | .sc => (0, 0x40000)
  | .hart => (if e.val % 2 = 0 then 0 else 0x20000, 0x20000)
  | .bc => (0, 0x10000)
  | .se | .ce | .uc => (0, codeBytes m e)

/-- Data window: base and size. -/
def dataWin (m : MemS) (e : Fin 24) : Nat × Nat :=
  match clsOf e with
  | .sc | .bc => (0x10000000, 0x20000)
  | .hart => (if e.val % 2 = 0 then 0x10000000 else 0x10010000, 0x10000)
  | .se | .ce | .uc => (0x10000000, bothBytes e - codeBytes m e)

/-- `n` bytes from `a` lie in a window. -/
def within (w : Nat × Nat) (a n : Nat) : Bool := decide (w.1 ≤ a) && decide (a + n ≤ w.1 + w.2)

/-- The code window, and the boot core's executable RAM. -/
def inCode (m : MemS) (e : Fin 24) (a n : Nat) : Bool :=
  within (codeWin m e) a n || (clsOf e == .bc && within (dataWin m e) a n)
/-- The data window. -/
def inData (m : MemS) (e : Fin 24) (a n : Nat) : Bool := within (dataWin m e) a n
/-- The shared window. -/
def inShared (a n : Nat) : Bool := within (0x20000000, 0x200000) a n

/-- Assignment word of the shared block of an address (R69). -/
def blockOf (m : MemS) (a : Nat) : Word := m.block.getN ((a - 0x20000000) / 0x8000) 0x1F

/-- A load of `n` bytes at `a` is permitted (R68, R69). -/
def mayLoad (m : MemS) (e : Fin 24) (a n : Nat) : Bool :=
  inCode m e a n || inData m e a n ||
    (inShared a n && (fld (blockOf m a) 4 0 == e.val || bit (blockOf m a) (8 + e.val)))

/-- A store of `n` bytes at `a` is permitted (R68, R69). -/
def mayStore (m : MemS) (e : Fin 24) (a n : Nat) : Bool :=
  inData m e a n || (inShared a n && fld (blockOf m a) 4 0 == e.val)

/-! ## Bytes -/

/-- A byte as engine `e` sees it at `a`. -/
def readByte (m : MemS) (e : Fin 24) (a : Nat) : Byte :=
  if inShared a 1 then Sparse.get 0 m.shared a
  else if clsOf e == .bc && a < 0x10000 then Config.bootRom a
  else Sparse.get 0 m.own[memOf e] a

/-- Writes a byte where engine `e` sees it. -/
def writeByte (e : Fin 24) (a : Nat) (b : Byte) (m : MemS) : MemS :=
  if inShared a 1 then { m with shared := Sparse.put 0 m.shared a b }
  else { m with own := m.own.upd (memOf e) fun l => Sparse.put 0 l a b }

/-- Reads `n` bytes from `a`. -/
def readBytes (m : MemS) (e : Fin 24) (a n : Nat) : List Byte := (List.range n).map fun i => readByte m e (a + i)

/-- Writes bytes from `a` upward. -/
def writeBytes (e : Fin 24) : Nat → List Byte → MemS → MemS
  | _, [], m => m
  | a, b :: t, m => writeBytes e (a + 1) t (writeByte e a b m)

/-- A word at a multiple of 4. -/
def readWord (m : MemS) (e : Fin 24) (a : Nat) : Word := bytesWord (readBytes m e a 4)

/-! ## Check bits (R72) -/

/-- What the check bits of the word at `a` show. -/
def eccAt (m : MemS) (e : Fin 24) (a : Nat) : Option Bool :=
  if inShared a 1 then Sparse.get none m.eccShared (a - a % 4) else Sparse.get none (m.eccOwn[memOf e]) (a - a % 4)

/-- Sets what the check bits of the word at `a` show. -/
def eccSet (e : Fin 24) (a : Nat) (x : Option Bool) (m : MemS) : MemS :=
  if inShared a 1 then { m with eccShared := Sparse.put none m.eccShared (a - a % 4) x }
  else { m with eccOwn := m.eccOwn.upd (memOf e) fun l => Sparse.put none l (a - a % 4) x }

/-- Source of a memory report (Table 14-1). -/
def memSrc (e : Fin 24) (a : Nat) : Nat := if inShared a 1 then 0x1E else (memOf e).val

/-- Reports a corrected single-bit error of the word at `a` (R72). -/
def eccCorrected (e : Fin 24) (a : Nat) (s : State) : State := report (cntRep 0xA7 11 (memSrc e a)) s

end Sys2Proof.Machine
end

