-- ==== Sys2Proof/Machine/Csc.lean ====
section
/-! DEFINITION. The string carrier (file 12): frames and their modulation (R321, R322), row telegrams (R325, R326), skein
states (R328 to R330), the order of a row period (R324), searches (R338 to R342), polling and pairing (R333 to R337). -/

namespace Sys2Proof.Machine

/-! ## Physical layer (R321, R322) -/

/-- CRC-16 with polynomial 0x1021 and initial value 0xFFFF (R322). -/
def crc16 (l : List Byte) : Half :=
  l.foldl (fun s b => (List.range 8).foldl (fun x _ => if x.getLsbD 15 then (x <<< 1) ^^^ 0x1021 else x <<< 1)
    (s ^^^ (b ++ (0 : Byte)))) 0xFFFF

/-- A frame: header, body and CRC-16, low byte first (R322). -/
def cscFrame (ty : Nat) (addr : Half) (body : List Byte) : List Byte :=
  let h := [BitVec.ofNat 8 ty, BitVec.ofNat 8 body.length] ++ halfBytes addr ++ body
  h ++ halfBytes (crc16 h)

/-- Symbols of a frame with a body of `b` bytes (R322). -/
def frameSymbols (b : Nat) : Nat := 2 + (8 * (6 + b) + 6 + 47) / 48

/-- Bits of a list of bytes, least significant first. -/
def byteBits (l : List Byte) : List Bool := l.flatMap fun b => (List.range 8).map fun i => b.getLsbD i

/-- The scrambler x^7 + x^4 + 1, seeded 0x7F (Table 12-1). -/
def scramble : BitVec 7 → List Bool → List Bool
  | _, [] => []
  | s, b :: t =>
    let f := s.getLsbD 6 ^^ s.getLsbD 3
    (b ^^ f) :: scramble ((s <<< 1) ||| (if f then 1 else 0)) t

/-- The convolutional code of constraint length 7, generators 133 and 171 octal: the pair of every input bit. -/
def convolve : BitVec 7 → List Bool → List (Bool × Bool)
  | _, [] => []
  | s, b :: t =>
    let r := (s >>> 1) ||| (if b then 0x40#7 else 0)
    (parity (r &&& 0x5B#7), parity (r &&& 0x79#7)) :: convolve r t

/-- Puncturing to rate 3/4: A0, B0, A1, B2 of every three input bits (Table 12-1). -/
def puncture : List (Bool × Bool) → List Bool
  | x :: y :: z :: t => x.1 :: x.2 :: y.1 :: z.2 :: puncture t
  | _ => []

/-- Quarter turns of a dibit (Table 12-1). -/
def dibitStep (a b : Bool) : BitVec 2 := match a, b with
  | false, false => 0 | false, true => 1 | true, true => 2 | true, false => 3

/-- The steps of one symbol: dibit j on tone 13 j modulo 32 (R322). -/
def symbolSteps (c : List Bool) : Tab (BitVec 2) 32 :=
  (List.finRange 32).foldl (fun t j =>
    t.upd (Fin.ofNat 32 (13 * j.val)) fun _ => dibitStep (c.getD (2 * j.val) false) (c.getD (2 * j.val + 1) false))
    (Tab.fill 32 0)

/-- Symbols of coded bits, 64 each. -/
def toSymbols : Nat → List Bool → List (Tab (BitVec 2) 32)
  | 0, _ => []
  | n + 1, l => symbolSteps (l.take 64) :: toSymbols n (l.drop 64)

/-- The phase steps of the data symbols of a frame, tone by tone (R322). -/
def modulate (f : List Byte) : List (Tab (BitVec 2) 32) :=
  let bits := scramble 0x7F (byteBits f) ++ List.replicate 6 false
  let n := (bits.length + 47) / 48
  toSymbols n (puncture (convolve 0 (bits ++ List.replicate (48 * n - bits.length) false)))

/-- The frequency of tone `k` in steps of 1.5625 kHz, the bin of a 256-point transform at 400 kHz (Table 12-1). -/
def toneBin (k : Fin 32) : Nat := 61 + k.val

/-- One symbol at 400 kHz (R321): the 256 samples of the transform of its tones behind the last 32 of them as cyclic prefix. A sample is
the sum of 32 unit tones, each given by its angle in 1/256 turns. -/
def symbolSamples (t : Tones) : List (Tab (BitVec 8) 32) :=
  (List.range 288).map fun i => Tab.gen 32 fun k => BitVec.ofNat 8 (toneBin k * (i + 224) + 4 * t[k].toNat)

/-- The dibit of a received phase step in units of 5.625°, decided to the nearest quarter turn (Table 12-1). -/
def stepDibit (d : BitVec 6) : Bool × Bool :=
  match ((d.toNat + 8) / 16) % 4 with
  | 0 => (false, false) | 1 => (false, true) | 2 => (true, true) | _ => (true, false)

/-- The 64 coded bits of a received symbol, from its tones and those of the symbol before it (R321, R322). -/
def demodulate (prev now : Tones) : List Bool :=
  (List.range 32).flatMap fun j =>
    let k : Fin 32 := Fin.ofNat 32 (13 * j)
    let q := stepDibit (now[k] - prev[k])
    [q.1, q.2]

/-- The SYNC symbol: tone k at k² × 5.625° (R322). -/
def syncSymbol : Tones := Tab.gen 32 fun k => BitVec.ofNat 6 (k.val * k.val)

/-- The REF symbol: every odd tone shifted by 180° (R322). -/
def refSymbol : Tones := Tab.gen 32 fun k => syncSymbol[k] + (if k.val % 2 = 1 then 32 else 0)

/-- Data symbols, each differential to the symbol before it; a step is a quarter turn (Table 12-1, R322). -/
def dataSymbols : Tones → List (Tab (BitVec 2) 32) → List Tones
  | _, [] => []
  | prev, d :: t =>
    let now : Tones := Tab.gen 32 fun k => prev[k] + BitVec.ofNat 6 (16 * d[k].toNat)
    now :: dataSymbols now t

/-- The symbols of a frame on the line: SYNC, REF, data (R322). -/
def frameWave (f : List Byte) : List Tones := syncSymbol :: refSymbol :: dataSymbols refSymbol (modulate f)

/-- Tone sets of the flag symbols LO, HI and URGENT, which carry REF phases (R322). -/
inductive FlagSet where
  | lo | hi | urgent
  deriving DecidableEq, Repr

/-- The tones of a flag symbol. -/
def FlagSet.has (f : FlagSet) (k : Nat) : Bool :=
  match f with | .lo => decide (k < 16) | .hi => decide (16 ≤ k) | .urgent => true

/-- A flag symbol on the line: REF phases on the named tones, the others silent (R322). -/
def flagSymbol (f : FlagSet) : Tab (Option (BitVec 6)) 32 :=
  Tab.gen 32 fun k => if f.has k.val then some refSymbol[k] else none

/-- A flag on a tone set: its mean energy exceeds 8 times the mean energy of those tones in the gap symbol before (R338). -/
def flagSeen (f : FlagSet) (e : ToneEnergy) : Bool :=
  let sum := fun (l : List Nat) => (((List.range 32).filter f.has).map fun k => l.getD k 0).foldl (· + ·) 0
  decide (8 * sum e.gap < sum e.flag)

/-- Bytes of a list of bits, least significant first. -/
def bitsBytes (l : List Bool) : List Byte := (List.range (l.length / 8)).map fun i => maskOf 8 fun k => l.getD (8 * i + k) false

/-- A frame as the decoder delivers it, still scrambled: the four bytes of its header, its body and its CRC-16 (R321, R322). -/
def rxBytes (head : Word) (body : List Byte) (crc : Half) : List Byte := wordBytes head ++ body ++ halfBytes crc

/-- A received frame, from the bytes that the decoder of the convolutional code delivers: descrambled, of its stated length, and with
its CRC-16 (R321, R322): type, address and body. -/
def rxFrame (raw : List Byte) : Option (Nat × Half × List Byte) :=
  let f := bitsBytes (scramble 0x7F (byteBits raw))
  let b := (f.getD 1 0).toNat
  if f.length = 6 + b ∧ crc16 (f.take (4 + b)) = bytesHalf (f.drop (4 + b)) then
    some ((f.getD 0 0).toNat % 16, bytesHalf ((f.drop 2).take 2), (f.drop 4).take b)
  else none

/-! ## Ports -/

/-- Changes one port. -/
def State.onP (p : Fin 4) (f : CscPort → CscPort) (s : State) : State := s.onCsc fun x => { x with p := x.p.upd p f }

/-- CSC_ABSENT: the carrier is absent (R320, R381). -/
def cscAbsent (s : State) : Bool := bit s.otp.tap 1

/-- The transmit enable of a port (R160). -/
def txEn (s : State) (p : Fin 4) : Bool := s.hld.gate[p].tx

/-- P_R in 10 ms units. -/
def CscPort.period (x : CscPort) : Nat := fld x.cfg 14 8

/-- An item of `d` symbols fits in what is left of the row period (R324). -/
def CscPort.fits (x : CscPort) (d : Nat) : Bool := decide ((x.pos + d + 1) * 144000 ≤ x.period * 2000000)

/-- Source of a report of a port and address (Table 14-1). -/
def skeinSrc (p : Fin 4) (a : Nat) : Nat := p.val * 1024 + a

/-- The group whose range holds an address (R333). -/
def groupOf (x : CscPort) (a : BitVec 10) : Option (Fin 64) :=
  (List.finRange 64).find? fun g =>
    bit x.grp[g] 31 && decide (fld x.grp[g] 9 0 ≤ a.toNat) && decide (a.toNat ≤ fld x.grp[g] 25 16)

/-- The entry of an address. -/
def CscPort.entry (x : CscPort) (a : BitVec 10) : Partner := Sparse.get {} x.tab a.toNat

/-- Addresses with a pairing record, ascending. -/
def CscPort.paired (x : CscPort) : List Nat := (x.tab.filter fun e => e.2.entry != 0).map Prod.fst

/-- Entries in MISSING. -/
def CscPort.missing (x : CscPort) : Nat := (x.tab.filter fun e => e.2.entry == 2).length

/-- What CSC_Pp_PTABa shows of a record; the equaliser record and the serial stand elsewhere. -/
def Partner.shown (e : Partner) : Partner := { e with eq := false, eqFail := false, sn := 0 }

/-- Changes a partner-table entry; a change of what the entry shows raises EV105 + 2p (R345). -/
def setEntry (p : Fin 4) (a : BitVec 10) (f : Partner → Partner) (s : State) : State :=
  let e := s.csc.p[p].entry a
  if f e = e then s
  else
    let s1 := s.onP p fun x => { x with tab := Sparse.put {} x.tab a.toNat (f e) }
    if (f e).shown = e.shown then s1 else raise (105 + 2 * p.val) s1

/-- Where the equaliser records of a port stand: 64 KiB of the shared blocks that the image assigns to the port's carrier engine, in
ascending order, the engine's lower port first (R343); none where the image assigns too few. -/
def eqBase (s : State) (p : Fin 4) : Option Nat :=
  let mine := (List.range 64).filter fun b => fld (s.mem.block.getN b 0x1F) 4 0 == 12 + p.val / 2
  match mine.drop (2 * (p.val % 2)) with
  | a :: b :: _ => if b = a + 1 then some (0x20000000 + 0x8000 * a) else none
  | _ => none

/-- Stores the equaliser record of address `a`: 64 bytes, their words with good check bits (R72, R343). -/
def eqStore (p : Fin 4) (a : BitVec 10) (rec : List Byte) (s : State) : State :=
  match eqBase s p with
  | none => s
  | some base =>
    let at0 := base + 64 * a.toNat
    { s with mem := (List.range 16).foldl (fun m i => eccSet 12 (at0 + 4 * i) none m) (writeBytes 12 at0 (rec.take 64) s.mem) }

/-- A skein changes state: EV104 + 2p (R345). -/
def setSkein (p : Fin 4) (st : SkeinSt) (s : State) : State :=
  if s.csc.p[p].st = st then s else raise (104 + 2 * p.val) (s.onP p fun x => { x with st := st })

/-- Ends the host's pairing or unpairing command of a port with a result, and EV105 + 2p (R345). -/
def endJob (p : Fin 4) (r : BitVec 4) (s : State) : State :=
  raise (105 + 2 * p.val) <| (s.onP p fun x => { x with job := none }).onCsc fun c => { c with result := r }

/-- A pairing or unpairing command of the device is in progress (R333, R334). -/
def cscBusy (s : State) : Bool := s.csc.p.any fun x => x.job.isSome

/-- Ends the host's POLL of a port; a pairing or unpairing command in progress keeps RESULT. -/
def endPoll (p : Fin 4) (r : BitVec 4) (s : State) : State :=
  (s.onP p fun x => { x with pollJob := none }).onCsc fun c => { c with result := if cscBusy s then c.result else r }

/-- The rotation goes on from the first address of a batch that has not been judged (R337). -/
def CscPort.backTo (x : CscPort) : BitVec 11 :=
  match x.wait with
  | .poll (a :: _) true _ => a.zeroExtend 11
  | _ => x.next

/-- What ends when a port stops sending: a search (R345), the wait for an answer, a polling command, and a pairing command without
answer. -/
def stopItems (p : Fin 4) (s : State) : State :=
  let x := s.csc.p[p]
  let s1 := s.onP p fun x => { x with
    active := false, sets := [], polls := [], wait := .idle, next := x.backTo, built := none, repair := x.repair.map fun r => (r.1, 0) }
  let s2 := if x.active then raise (105 + 2 * p.val) s1 else s1
  let s3 := if x.pollJob.isSome then endPoll p 5 s2 else s2
  match x.job with
  | some (.pair _ _ _) => endJob p 5 s3
  | some (.unpair _ _ _) | none => s3

/-- Entry to START (R329): the next incarnation of the row connection ID; the sequence restarts at 0. -/
def goStart (p : Fin 4) (s : State) : State :=
  let x := s.csc.p[p]
  let inc := if x.used then x.inc + 1 else x.inc
  setSkein p .start <| (useInc inc s).onP p fun x => { x with inc := inc, used := true, seq := 0, starts := 0, built := none }

/-- START of a skein that is OFF (R328). -/
def skeinStart (p : Fin 4) (s : State) : State := if txEn s p then goStart p s else setSkein p .silent s

/-- The transmit enable of a port has changed (R328, R329). -/
def txChange (p : Fin 4) (inFrame : Bool) (s : State) : State :=
  let x := s.csc.p[p]
  if txEn s p then (if x.st = .silent then goStart p s else s)
  else match x.st with
    | .start | .run =>
      setSkein p .silent <| stopItems p <| s.onP p fun x =>
        { x with rowCut := if inFrame then satInc x.rowCut else x.rowCut }
    | .off | .silent => s

/-! ## The row telegram (R325, R326) -/

/-- The owning core of a port. -/
def portOwner (s : State) (p : Fin 4) : Fin 4 := Fin.ofNat 4 (fld s.sout.portOwners (2 * p.val + 1) (2 * p.val))

/-- Permits of the latest scan record of the owning core whose SEAL completed before this tick, less what a HOLD, a remote lockout or
a skein lockout withdraws (R49, R325). -/
def rowPermits (s : State) (p : Fin 4) : DWord :=
  let c := portOwner s p
  if remotePort s p.val || s.csc.p[p].locked || (s.sys.holding && bit s.sys.holdPassed c.val) then 0
  else if s.eng.c[c].sealAt = some s.t.tbA then s.eng.c[c].permitPrev[p]
  else s.eng.c[c].sealedPermit[p]

/-- The row telegram of a port (Table 12-3). -/
def rowTelegram (s : State) (p : Fin 4) (permits : DWord) (openFollows : Bool) : List Byte :=
  let x := s.csc.p[p]
  let q := x.seq + 1
  telegram s.csl.id x.skein x.inc (hi16 q) 5 x.conn (lo16 q) 0
    (wordBytes s.csl.id ++ halfBytes (hi16 q) ++ wordBytes (BitVec.ofNat 32 (s.t.tbA.toNat / 200)) ++
     wordBytes (permits.extractLsb' 0 32) ++ wordBytes (permits.extractLsb' 32 32) ++
     [BitVec.ofNat 8 x.period, (if openFollows then 1 else 0) ||| (if x.common then 2 else 0)])

/-- A row slot of the port begins `ahead` ticks from now: t modulo P_R is p × P_R / 4 (R324). -/
def rowTick (p : Fin 4) (ahead : Nat) (s : State) : Bool :=
  let len := s.csc.p[p].period * 2000000
  (s.t.tbA.toNat + ahead) % len == p.val * len / 4

/-- Builds the row telegram of the next row slot, 1 ms before it (R325); none is built outside RUN of the skein. -/
def rowBuild (p : Fin 4) (s : State) : State :=
  if s.csc.p[p].st = .run && cslAwake s && rowTick p 200000 s then
    let pm := rowPermits s p
    s.onP p fun x => { x with built := some (rowTelegram s p pm (x.rows % 16 == 15), pm) }
  else s

/-- The OPEN telegram of a port (R327). -/
def openTelegram (s : State) (p : Fin 4) : List Byte :=
  let x := s.csc.p[p]
  telegram s.csl.id x.skein x.inc 0 1 x.conn 0 0 (halfBytes x.inc ++ [0, 0] ++ wordBytes x.param)

/-! ## Items of a row period (R324) -/

/-- Hands a frame to the transmit pair and takes its symbols, with `extra` symbols for answers and gaps; nothing is sent without the
transmit enable (R160). -/
def emit (p : Fin 4) (ty : Nat) (addr : Half) (body : List Byte) (extra : Nat) (s : State) : State :=
  if !txEn s p then s
  else s.onP p fun x => { x with
    sent := x.sent ++ [cscFrame ty addr body], wave := x.wave ++ frameWave (cscFrame ty addr body)
    pos := x.pos + frameSymbols body.length + extra }

/-- Symbols of a poll of `n` partners (Table 12-8). -/
def pollSymbols (n : Nat) : Nat := 5 + 7 * n

/-- Sends POLL for `n` addresses from `a` (R337). -/
def sendPoll (p : Fin 4) (a : BitVec 10) (n : Nat) (rotation search : Bool) (s : State) : State :=
  (emit p 3 0xFFFF (halfBytes (a.zeroExtend 16) ++ [BitVec.ofNat 8 n, 0]) (1 + 7 * n) s).onP p fun x =>
    { x with wait := .poll ((List.range n).map fun i => a + BitVec.ofNat 10 i) rotation search }

/-- The 48-bit serial as bytes. -/
def snBytes (sn : BitVec 48) : List Byte := (List.range 6).map fun i => sn.extractLsb' (8 * i) 8

/-- The group a PAIR names: that of a paired entry when it is paired again (R336), else that of the address's range (R333). -/
def pairGroup (x : CscPort) (a : BitVec 10) : BitVec 6 :=
  if (x.entry a).entry = 0 then BitVec.ofNat 6 ((groupOf x a).map Fin.val |>.getD 0) else (x.entry a).group

/-- Body of PAIR (Table 12-2). -/
def pairBody (s : State) (p : Fin 4) (a : BitVec 10) (sn : BitVec 48) : List Byte :=
  let x := s.csc.p[p]
  snBytes sn ++ halfBytes (a.zeroExtend 16) ++ [(pairGroup x a).zeroExtend 8, BitVec.ofNat 8 (fld x.cfg 19 16)] ++
    halfBytes x.conn ++ halfBytes x.inc ++ wordBytes s.csl.id ++ wordBytes x.skein ++ [BitVec.ofNat 8 x.period, 0]

/-- Ends a search (R339, R345). -/
def endSearch (p : Fin 4) (common : Bool) (s : State) : State :=
  raise (105 + 2 * p.val) <| s.onP p fun x => { x with active := false, sets := [], polls := [], endedCommon := common }

/-- A rotation ends: its duration, and the end of a common-cause event whose rotation it was (R337, R342). -/
def endRotation (p : Fin 4) (s : State) : State :=
  s.onP p fun x => { x with
    rotOn := false, next := 0
    lastCycle := BitVec.ofNat 16 (min 0xFFFF (since s x.rotAt / 20000000))
    common := x.common && x.commonRot != 1, commonRot := 0 }

/-- Every paired address of the rotation under way has had its poll (R337). -/
def CscPort.rotated (x : CscPort) : Bool := x.paired.all fun a => decide (a < x.next.toNat)

/-- Pairing frames, the host's poll and rotation batches, steps 5 and 6 of R324. -/
def jobItem (p : Fin 4) (s : State) : State :=
  let x := s.csc.p[p]
  match x.job with
  | some (.pair a sn t) =>
    if x.fits 15 then
      (emit p 5 0xFFFF (pairBody s p a sn) 7 s).onP p fun y => { y with wait := .pair true, job := some (.pair a sn (t + 1)) }
    else s
  | some (.unpair a true k) =>
    if x.fits 6 then
      pollNext p <| (emit p 7 0xFFFF (snBytes (x.entry a).sn ++ wordBytes s.csl.id) 1 s).onP p fun y =>
        { y with job := some (.unpair a false k) }
    else s
  | some (.unpair _ false _) | none =>
    match x.repair with
    | (a, t) :: rest =>
      if x.fits 15 then
        (emit p 5 0xFFFF (pairBody s p a (x.entry a).sn) 7 s).onP p fun y =>
          { y with wait := .pair false, repair := (a, t + 1) :: rest }
      else s
    | [] => pollNext p s
where
  /-- The host's poll, or the next rotation batch. -/
  pollNext (p : Fin 4) (s : State) : State :=
    let x := s.csc.p[p]
    match x.pollJob with
    | some a => if x.fits (pollSymbols 1) then sendPoll p a 1 false false s else s
    | none => rotate p (if !x.paired.isEmpty && x.rotated then endRotation p s else s)
  /-- The next rotation batch (R337). -/
  rotate (p : Fin 4) (s : State) : State :=
    let x := s.csc.p[p]
    match x.paired.find? fun a => decide (x.next.toNat ≤ a) with
    | none => s
    | some a =>
      let top := x.paired.getLast?.getD 0
      let most := ((List.range 17).filter fun n => x.fits (pollSymbols n)).getLast?.getD 0
      let n := min most (top + 1 - a)
      if n = 0 then s
      else
        (sendPoll p (BitVec.ofNat 10 a) n true false s).onP p fun y => { y with
          next := BitVec.ofNat 11 (a + n)
          rotOn := true
          rotAt := if x.rotOn then x.rotAt else s.t.tbA
          commonRot := if !x.rotOn && x.common then 1 else x.commonRot }

/-- Starts the next item of steps 4 to 6 of R324, once nothing is awaited. -/
def nextItem (p : Fin 4) (s : State) : State :=
  let x := s.csc.p[p]
  if x.st != .run || x.wait != .idle || !txEn s p then s
  else if x.active then
    match x.polls, x.sets with
    | a :: rest, _ =>
      if x.fits (pollSymbols 1) then (sendPoll p a 1 false true s).onP p fun y => { y with polls := rest } else s
    | [], [] => jobItem p (endSearch p false s)
    | [], sets =>
      let k := sets.length
      if x.fits (frameSymbols (2 + 2 * k) + 2 + k) then
        let r := x.rounds + 1
        (emit p 2 0xFFFF ([BitVec.ofNat 8 r.toNat, BitVec.ofNat 8 k] ++
          sets.flatMap fun q => halfBytes (BitVec.ofNat 16 (q.1 * 4096 + q.2.toNat))) (2 + k) s).onP p fun y =>
            { y with wait := .query, rounds := r }
      else s
  else jobItem p s

/-! ## Searches (R338 to R342) -/

/-- The sets of round 1 (R339). -/
def firstSets (q : Nat) : List (Nat × BitVec 10) :=
  (List.range (2 ^ (q - 1))).map fun i => (q - 1, BitVec.ofNat 10 (i * 2 ^ (11 - q)))

/-- A flag in the urgent slot (R338): it starts a search, or is only counted. -/
def urgentFlag (p : Fin 4) (s : State) : State :=
  let x := s.csc.p[p]
  if x.active || x.common then s.onP p fun y => { y with flags := satInc y.flags }
  else s.onP p fun y => { y with
    active := true, endedCommon := false, rounds := 0, located := 0, polls := [], sets := firstSets (fld y.cfg 4 2) }

/-- SEARCH_EMPTY (R339). -/
def searchEmpty (p : Fin 4) (a : Nat) (s : State) : State :=
  report (cntRep 0xA4 8 (skeinSrc p a)) <| s.onP p fun y => { y with empty := satInc y.empty }

/-- The halves of the sets that flagged, as (prefix length of the half, first address) in ascending address. -/
def flaggedHalves (sets : List (Nat × BitVec 10)) (flags : List (Bool × Bool)) : List (Nat × Nat) :=
  (sets.zip flags).flatMap fun q =>
    let w := 2 ^ (9 - q.1.1)
    (if q.2.1 then [(q.1.1 + 1, q.1.2.toNat)] else []) ++ (if q.2.2 then [(q.1.1 + 1, q.1.2.toNat + w)] else [])

/-- The address range of a half holds a paired address. -/
def halfPaired (x : CscPort) (h : Nat × Nat) : Bool :=
  x.paired.any fun a => decide (h.2 ≤ a) && decide (a < h.2 + 2 ^ (10 - h.1))

/-- Every group of round 1 with a paired partner flags, and at least two hold one (R342). -/
def allFlag (x : CscPort) (halves : List (Nat × Nat)) : Bool :=
  let q := fld x.cfg 4 2
  let occ := ((List.range (2 ^ q)).map fun g => (q, g * 2 ^ (10 - q))).filter (halfPaired x)
  decide (2 ≤ occ.length) && occ.all fun h => halves.contains h

/-- The flag symbols after a QUERY are judged (R339, R342). -/
def judgeRound (p : Fin 4) (flags : List (Bool × Bool)) (s : State) : State :=
  let x := s.csc.p[p]
  let halves := flaggedHalves x.sets flags
  let s0 := s.onP p fun y => { y with wait := .idle }
  if x.rounds = 1 && allFlag x halves then
    jobItem p <| endSearch p true <| report (cntRep 0xA1 8 (skeinSrc p 0)) <| s0.onP p fun y =>
      { y with common := true, commonRot := 0, commons := satInc y.commons }
  else
    let live := halves.filter (halfPaired x)
    let dead := halves.filter fun h => !halfPaired x h
    let kept := live.take 16
    let loc := kept.filter fun h => h.1 == 10
    let s1 := each dead (fun h s => searchEmpty p h.2 s) s0
    nextItem p <| s1.onP p fun y => { y with
      sets := (kept.filter fun h => h.1 != 10).map fun h => (h.1, BitVec.ofNat 10 h.2)
      polls := loc.map fun h => BitVec.ofNat 10 h.2
      located := loc.foldl (fun n _ => satInc n) y.located
      lastLoc := match loc.getLast? with | some h => BitVec.ofNat 10 h.2 | none => y.lastLoc }

/-! ## Polling (R337) -/

/-- The poll slot under way ends; the next one begins, or the next item. A rotation ends with the slot of its highest address. -/
def slotDone (p : Fin 4) (s : State) : State :=
  let x := s.csc.p[p]
  match x.wait with
  | .poll (_ :: a :: rest) r q => s.onP p fun y => { y with wait := .poll (a :: rest) r q }
  | .poll _ r _ =>
    let s1 := s.onP p fun y => { y with wait := .idle }
    nextItem p (if r && x.rotated then endRotation p s1 else s1)
  | .idle | .query | .pair _ => s

/-- The pairing records of a port are written to the settings store (R335). -/
def storeTab (p : Fin 4) (s : State) : State :=
  let t := s.csc.p[p].tab.filterMap fun (e : Nat × Partner) =>
    if e.2.entry == 0 then none
    else some (e.1, ({ entry := if e.2.entry = 3 then 3 else 1, group := e.2.group, sn := e.2.sn } : Partner))
  s.keepRec (.table p t)

/-- A log record of a pairing, unpairing or re-pairing (R335, R336); the spec states no code of kind 3, so the code is a
free value. -/
def logPairing (p : Fin 4) (a : BitVec 10) (s : State) : State :=
  let q := s.takeFree
  logPut 3 .counted 8 (lo16 (Config.freeWord q.1)) (BitVec.ofNat 32 (skeinSrc p a.toNat)) q.2

/-- No answer in a poll slot (R334, R337, R339). -/
def noAnswer (p : Fin 4) (s : State) : State :=
  let x := s.csc.p[p]
  match x.wait with
  | .poll (a :: _) rotation search =>
    let s1 :=
      if search then searchEmpty p a.toNat s
      else if !rotation then (if x.pollJob.isSome then endPoll p 5 s else s)
      else if (x.entry a).entry = 0 then s
      else
        let s2 := setEntry p a (fun e => { e with silent := satInc e.silent }) s
        let s3 := if (x.entry a).silent = 2 && (x.entry a).entry = 1 then
            report (cntRep 0xA2 8 (skeinSrc p a.toNat)) (setEntry p a (fun e => { e with entry := 2 }) s2)
          else s2
        match x.job with
        | some (.unpair b false k) =>
          if a ≠ b then s3
          else if k + 1 < 3 then s3.onP p fun y => { y with job := some (.unpair b false (k + 1)) }
          else endJob p 0 <| logPairing p b <| storeTab p <| setEntry p b (fun _ => {}) s3
        | _ => s3
    slotDone p s1
  | _ => s

/-- A frame in a poll slot (R334, R336, R337, R341, R343). A frame that fails its CRC-16, is no REPORT, or comes from another address
than the slot's, is no answer. -/
def gotReport (p : Fin 4) (raw : List Byte) (snr : Byte) (s : State) : State :=
  let x := s.csc.p[p]
  match x.wait, rxFrame raw with
  | .poll (b :: _) _ _, none => noAnswer p <| (eqFail b s).onP p fun y => { y with frameErr := satInc y.frameErr }
  | .poll (a :: _) rotation search, some (ty, addr, body) =>
    if ty ≠ 4 || addr ≠ a.zeroExtend 16 || body.length ≠ 16 then noAnswer p s
    else
      let s0 := s.onP p fun y => { y with reports := satInc y.reports }
      let e := x.entry a
      let s1 := if e.entry = 0 then s0 else judge e a body snr s0
      let s2 := match x.job with
        | some (.unpair c false _) =>
          if c = a && rotation then s1.onP p fun y => { y with job := some (.unpair c true 0) } else s1
        | _ => s1
      let s3 := if x.pollJob == some a && !rotation && !search then endPoll p 0 s2 else s2
      slotDone p s3
  | _, _ => s
where
  /-- The equaliser record after a failed REPORT: discarded after two in a row (R343). -/
  eqFail (b : BitVec 10) (s : State) : State :=
    let e := s.csc.p[p].entry b
    if e.entry = 0 then s
    else s.onP p fun y => { y with tab := Sparse.put {} y.tab b.toNat { e with
      eq := e.eq && !e.eqFail, eqFail := !e.eqFail } }
  /-- What the REPORT of a paired partner changes; its reports are entered in ascending code (R369). -/
  judge (e : Partner) (a : BitVec 10) (body : List Byte) (snr : Byte) (s : State) : State :=
    let by_ := fun i => body.getD i 0
    let fault := bytesHalf [by_ 2, by_ 3]
    let lost := (bytesHalf [by_ 4, by_ 5]).toNat
    let inc := bytesHalf [by_ 14, by_ 15]
    let x := s.csc.p[p]
    let bad := (by_ 12).toNat % 64 != e.group.toNat || (by_ 13).toNat % 16 != fld x.cfg 19 16
    let again := (by_ 0).toNat % 4 == 1 && !(decide (1 ≤ (x.inc - inc).toNat) && decide ((x.inc - inc).toNat ≤ 32767))
    let q := s.takeFree
    let s1 := setEntry p a (fun e => { e with
      entry := if bad then 3 else if e.entry = 2 then 1 else e.entry
      state := (by_ 0).extractLsb' 0 2, fault := fault, silent := 0, snr := snr
      missed := BitVec.ofNat 8 (min lost 0xFF), eqFail := false, eq := true }) <|
        eqStore p a ((List.range 16).flatMap fun i => wordBytes (Config.freeWord (q.1 + i))) { q.2 with fresh := q.1 + 16 }
    let restart := again && !(x.repair.any fun r => r.1 == a)
    let pairing := when bad (report (cntRep 0xA3 8 (skeinSrc p a.toNat))) ∘
      when restart (report (cntRep 0xA3 8 (skeinSrc p a.toNat)))
    let partner := when (fault != 0) (report (cntRep fault 9 (skeinSrc p a.toNat)))
    let s2 := if fault.toNat < 0xA3 then pairing (partner s1) else partner (pairing s1)
    if restart then logPairing p a (s2.onP p fun y => { y with repair := y.repair ++ [(a, 0)] }) else s2

/-! ## Pairing (R333, R334) -/

/-- A PAIR_ACK of address `a` with serial and CRC-32C (R333, R336). -/
def ackPair (p : Fin 4) (a : BitVec 10) (sn : BitVec 48) (crc : Word) (s : State) : State :=
  let x := s.csc.p[p]
  match x.wait with
  | .pair true =>
    match x.job with
    | some (.pair b n _) =>
      if a = b && sn = n && crc = crc32c (pairBody s p b n) then
        nextItem p <| endJob p 0 <| logPairing p b <| storeTab p <|
          setEntry p b (fun _ => { entry := 1, group := pairGroup x b, sn := n }) <|
          s.onP p fun y => { y with wait := .idle }
      else s
    | _ => s
  | .pair false =>
    match x.repair with
    | (b, _) :: rest =>
      if a = b && sn = (x.entry b).sn && crc = crc32c (pairBody s p b sn) then
        nextItem p (s.onP p fun y => { y with wait := .idle, repair := rest })
      else s
    | [] => s
  | .idle | .query | .poll _ _ _ => s

/-- A frame in the answer slot of a PAIR (R322, R333): only a PAIR_ACK counts; one that fails its CRC-16 is counted and ignored. -/
def pairAck (p : Fin 4) (raw : List Byte) (s : State) : State :=
  match s.csc.p[p].wait, rxFrame raw with
  | .pair _, none => s.onP p fun y => { y with frameErr := satInc y.frameErr }
  | .pair _, some (ty, addr, body) =>
    if ty = 6 ∧ addr.toNat < 1024 ∧ body.length = 10 then
      ackPair p (addr.truncate 10) ((bytesHalf (body.drop 4)) ++ (bytesWord (body.take 4))) (bytesWord (body.drop 6)) s
    else s
  | _, _ => s

/-- What was still awaited when the next row slot begins: a PAIR without acknowledgement ends after three tries (R333). -/
def expireWait (p : Fin 4) (s : State) : State :=
  let x := s.csc.p[p]
  let s1 := s.onP p fun y => { y with wait := .idle, next := y.backTo }
  match x.wait, x.job, x.repair with
  | .pair true, some (.pair _ _ t), _ => if 3 ≤ t then endJob p 5 s1 else s1
  | .pair false, _, (_, t) :: rest => if 3 ≤ t then s1.onP p fun y => { y with repair := rest } else s1
  | .query, _, _ => s1.onP p fun y => { y with rounds := y.rounds - 1 }
  | _, _, _ => s1

/-! ## The row slot (R324) -/

/-- The level of a ROW frame in 0.1 V peak to peak, below 70 % of the level set for the port, in 0.5 V steps (R344, R505, Table
12-10). -/
def rowLevel (p : Fin 4) (level : Byte) (s : State) : State :=
  let x := s.csc.p[p]
  if 2 * level.toNat < 7 * x.level.toNat then
    let s1 := s.onP p fun y => { y with lowOnce := true, okRows := 0 }
    if x.lowOnce && !x.locked then
      raise (104 + 2 * p.val) <| report (grpRep 0x93 8 (skeinSrc p 0)) (s1.onP p fun y => { y with locked := true })
    else if x.lowOnce then report (grpRep 0x93 8 (skeinSrc p 0)) s1
    else s1
  else s.onP p fun y => { y with lowOnce := false, okRows := min 10 (y.okRows + 1) }

/-- A release event of slot `r` ends a skein lockout once the level has been in tolerance for 10 row periods
(Table 12-10). -/
def relSkeins (r : Fin 8) (s : State) : State :=
  each (List.finRange 4) (fun p s =>
    let x := s.csc.p[p]
    if x.locked && bit x.cfg 23 && fld x.cfg 22 20 == r.val && x.okRows == 10 then
      raise (104 + 2 * p.val) (s.onP p fun y => { y with locked := false })
    else s) s

/-- The row slot of a port begins (R324, R327, R328), with the level of its ROW frame and what its urgent slot receives (R338). -/
def rowSlot (p : Fin 4) (level : Byte) (urgent : ToneEnergy) (s : State) : State :=
  let s0 := (expireWait p s).onP p fun y => { y with pos := 0, slotAt := s.t.tbA, sent := [], wave := [] }
  if !txEn s p || !cslAwake s then s0
  else match s.csc.p[p].st with
  | .off | .silent => s0
  | .start =>
    let s1 := (emit p 1 0xFFFF (openTelegram s0 p) 0 s0).onP p fun y => { y with starts := y.starts + 1 }
    if s1.csc.p[p].starts < 2 then s1 else setSkein p .run (s1.onP p fun y => { y with rows := 0 })
  | .run =>
    match s0.csc.p[p].built with
    | none => s0
    | some (t, pm) =>
      let due := s0.csc.p[p].rows % 16 == 15
      let s1 := (emit p 1 0xFFFF t 3 s0).onP p fun y =>
        { y with built := none, seq := y.seq + 1, permits := pm, rows := (y.rows + 1) % 16
                 common := y.common && !y.paired.isEmpty }
      let s2 := rowLevel p level s1
      let s3 := if flagSeen .urgent urgent then urgentFlag p s2 else s2
      let s4 := if due then emit p 1 0xFFFF (openTelegram s3 p) 0 s3 else s3
      nextItem p s4

/-! ## CSCST (R346) -/

/-- Coding of a skein state (Table 12-11). -/
def SkeinSt.code : SkeinSt → Nat
  | .off => 0 | .start => 1 | .run => 2 | .silent => 3

/-- The CSCST word of a port (Table 12-11). -/
def cscWord (s : State) (p : Fin 4) : Word :=
  let x := s.csc.p[p]
  at_ x.st.code 0 ||| flag (txEn s p) 3 ||| flag x.locked 4 ||| flag (remotePort s p.val) 5 ||| flag x.common 6 |||
  flag x.active 7 ||| at_ (x.seq.toNat % 256) 8 ||| at_ x.missing 16

/-! ## Commands (CSC_CMD) -/

/-- RESULT of CSC_CMD. -/
def cscResult (r : BitVec 4) (s : State) : State := s.onCsc fun c => { c with result := r }

/-- The latest record of the owning core permits a group of the port (R330). -/
def permitsAny (s : State) (p : Fin 4) : Bool := s.eng.c[portOwner s p].sealedPermit[p] != 0

/-- CSC_CMD STOP (R328, R330). -/
def cscStop (p : Fin 4) (s : State) : State :=
  if cscAbsent s then s
  else if permitsAny s p then cscResult 3 s
  else match s.csc.p[p].st with
    | .run | .silent => cscResult 0 (setSkein p .off (stopItems p s))
    | .start | .off => cscResult 2 s

/-- The conditions of PAIR and UNPAIR (R333, R334). -/
def pairRefused (p : Fin 4) (s : State) : Option (BitVec 4) :=
  if s.sys.runState != .run || s.csc.p[p].st != .run then some 2 else if cscBusy s then some 6 else none

/-- CSC_CMD PAIR (R333). -/
def cscPair (p : Fin 4) (a : BitVec 10) (s : State) : State :=
  if cscAbsent s then s
  else match pairRefused p s with
  | some r => cscResult r s
  | none =>
    if (s.csc.p[p].entry a).entry = 0 && (groupOf s.csc.p[p] a).isSome then
      cscResult 1 (s.onP p fun x => { x with job := some (.pair a s.csc.pairSn 0) })
    else cscResult 4 s

/-- CSC_CMD UNPAIR (R334). -/
def cscUnpair (p : Fin 4) (a : BitVec 10) (s : State) : State :=
  if cscAbsent s then s
  else match pairRefused p s with
  | some r => cscResult r s
  | none =>
    if (s.csc.p[p].entry a).entry = 0 then cscResult 4 s
    else cscResult 1 (s.onP p fun x => { x with job := some (.unpair a true 0) })

/-- CSC_CMD POLL: one address outside the rotation. -/
def cscPoll (p : Fin 4) (a : BitVec 10) (s : State) : State :=
  if cscAbsent s then s
  else if s.csc.p[p].st != .run then cscResult 2 s
  else if cscBusy s || s.csc.p.any (fun x => x.pollJob.isSome) then cscResult 6 s
  else cscResult 1 (s.onP p fun x => { x with pollJob := some a })

end Sys2Proof.Machine
end

