-- ==== Sys2Proof/Machine/Latch.lean ====
section
/-! DEFINITION. The port words of classes 0x0 to 0x8 (Table 3-14), the latch of a safety core (R75, R76), the start of INIT
(R77), and what a release does to its core (R75). -/

namespace Sys2Proof.Machine

/-- Engine of a safety core. -/
def engOf (c : Fin 4) : Fin 24 := ⟨c.val, by omega⟩

/-- The word of a latched port class as it stands now; none where the index is beyond the range, or on a carrier class where
the carrier is absent (Table 3-14). `core` is the safety core that reads, which alone reaches its own sessions. -/
def liveWord (s : State) (cls ix : Nat) : Option Word :=
  match cls with
  | 0 => if h : ix < 32 then some (levelWord s.sin ⟨ix, h⟩) else none
  | 1 => if h : ix < 16 then some (pairWord s.sin ⟨ix, h⟩) else none
  | 2 => if h : ix < 4 then some (s.sin.cnt[ix]).count else none
  | 3 => if h : ix < 16 then some (outWord s ⟨ix, h⟩) else none
  | 4 => if h : ix < 8 then some (alpVal s ⟨ix, h⟩) else none
  | 5 => if h : ix < 8 then some (alpStat s ⟨ix, h⟩) else none
  | 6 => if h : ix / 16 < 256 then some (dataWord s.t.tbA s.csl.s[ix / 16] (ix % 16)) else none
  | 7 => if h : ix < 256 then some (sessWord s.t.tbA s.csl.s[ix]) else none
  | 8 => if h : ix < 4 then (if cscAbsent s then none else some (cscWord s ⟨ix, h⟩)) else none
  | _ => none

/-- A release event is due for core `c` on input `n`: accepted at least 50 µs ago and not yet latched (R207). -/
def relDue (s : State) (c : Fin 4) (n : Nat) : Bool :=
  if h : n < 32 then
    match slotOfInput s.sin ⟨n, h⟩ with
    | some r => bit s.sin.slot[r].due c.val && decide (usec 50 ≤ since s s.sin.slot[r].accepted)
    | none => false
  else false

/-- Sessions that core `c` owns (R310). -/
def ownSessions (s : State) (c : Fin 4) : List (Fin 256) :=
  (List.finRange 256).filter fun n => s.csl.s[n].present && s.csl.s[n].owner == c.val

/-- Selectors that core `c` latches, rising. -/
def latchSels (s : State) (c : Fin 4) : List Nat :=
  let run := fun (cls n : Nat) => (List.range n).map fun i => cls * 0x1000 + i
  let own := (ownSessions s c).map fun n => n.val
  run 0 32 ++ run 1 16 ++ run 2 4 ++ run 3 16 ++ run 4 8 ++ run 5 8 ++
  (own.flatMap fun n => (List.range 16).map fun i => 0x6000 + 16 * n + i) ++ own.map (0x7000 + ·) ++ run 8 4

/-- The word that core `c` latches for a selector, with RELEASE in SINLVL [1] (R207). -/
def latchWord (s : State) (c : Fin 4) (sel : Nat) : Word :=
  (liveWord s (sel / 0x1000) (sel % 0x1000)).getD 0 ||| (if sel < 32 then flag (relDue s c sel) 1 else 0)

/-- Core `c` latches its input ports, after the clear decisions that fall due in the same moment; release events it latches are
delivered (R75, R77, R207). -/
def latchPorts (c : Fin 4) (s0 : State) : State :=
  let s := decideDue s0
  let m := (latchSels s c).foldl (fun (m : Sparse Word) sel => Sparse.put 0 m sel (latchWord s c sel)) []
  let done := fun (y : SlotA) => bit y.due c.val && decide (usec 50 ≤ since s y.accepted)
  (s.onC c fun x => { x with ports := m }).onSin fun x =>
    { x with slot := x.slot.map fun y => if done y then { y with due := setBit y.due c.val false } else y }

/-- The start of INIT on core `c` (R77). -/
def startInit (c : Fin 4) (s : State) : State :=
  let s1 := s.onE (engOf c) fun e =>
    { e with on := true, task := some 0, bankS := {}, inTrap := false
             pc := e.pc.upd 0 fun _ => e.entry[0], purlPc := e.purlPc.upd 0 fun _ => ~~~e.entry[0]
             steps := e.steps.upd 0 fun _ => 0
             tbHi := e.tbHi.upd 0 fun _ => 0 }
  latchPorts c <| s1.onC c fun x =>
    { x with mode := 1, sig := x.seed, purlSig := ~~~x.seed, initDone := false, inScan := false, staged := [], first := false, firstDue := true }

/-- Scan period and phase of a core in 50 µs units (SC_COREn_SCANCFG). -/
def Core.periodU (x : Core) : Nat := fld x.scanCfg 10 0

/-- Steps TEST may spend in one scan period: 5 % of the steps it holds at 250 M steps/s (R81). -/
def Core.testCap (x : Core) : Nat := x.periodU * 50 * 250 / 20

/-- What every release does to the core (R75). -/
def releaseCore (c : Fin 4) (s : State) : State :=
  let s1 := latchPorts c s
  let s2 := s1.onE (engOf c) fun e =>
    { e with task := some 1, bankS := {}, latched := e.flags, flags := 0
             pc := e.pc.upd 1 fun _ => e.entry[1], purlPc := e.purlPc.upd 1 fun _ => ~~~e.entry[1]
             steps := e.steps.upd 1 fun _ => 0
             tbHi := e.tbHi.upd 1 fun _ => 0 }
  clearFresh c <| s2.onC c fun x =>
    { x with release := s.t.tbA, seq := x.seq + 1, first := x.firstDue, firstDue := false, sig := x.seed, purlSig := ~~~x.seed
             demand := 0, permit := Tab.fill 4 0, staged := [], inScan := true, testSteps := 0, testCapped := false }

end Sys2Proof.Machine
end

