-- ==== Sys2Proof/Machine/Pattern.lean ====
section
/-! DEFINITION. The channel B pattern: its structural check (R172 to R176, R148, R154) and its transfer into the cells. -/

namespace Sys2Proof.Machine

/-- One cell record: type, cell index, body. -/
structure PatRec where
  /-- Type of Table 6-9. -/
  ty : Nat
  /-- Cell index. -/
  ix : Nat
  /-- Words after the header word. -/
  body : List Word
  deriving DecidableEq, Repr

/-- Exactly `n` cell records (R173); `none` where a header or a length does not fit. -/
def patRecs : Nat → List Word → Option (List PatRec)
  | 0, [] => some []
  | 0, _ :: _ => none
  | _ + 1, [] => none
  | n + 1, h :: t =>
    let len := fld h 15 8
    if fld h 7 0 = 0 ∧ 1 ≤ len ∧ len ≤ t.length + 1 then
      (patRecs n (t.drop (len - 1))).map (⟨fld h 31 24, fld h 23 16, t.take (len - 1)⟩ :: ·)
    else none

/-- The records configure cell `ix` of type `ty`. -/
def hasCell (rs : List PatRec) (ty ix : Nat) : Bool := rs.any fun r => r.ty == ty && r.ix == ix

/-- Signal `i` may be read by a logic cell of index `l`, or by an output or gate cell with `l = 128` (R148). -/
def signalOk (rs : List PatRec) (l i : Nat) : Bool :=
  if i ≤ 1 then true
  else if 0x40 ≤ i ∧ i < 0x80 then hasCell rs 1 (i - 0x40)
  else if 0xC0 ≤ i ∧ i < 0xC8 then hasCell rs 2 (i - 0xC0)
  else if 0xD0 ≤ i ∧ i < 0xE0 then hasCell rs 3 (i - 0xD0)
  else decide (0x100 ≤ i) && decide (i < 0x100 + l) && hasCell rs 4 (i - 0x100)

/-- A number lies in a range. -/
def inRange (lo x hi : Nat) : Bool := decide (lo ≤ x) && decide (x ≤ hi)

/-- No bit outside `m` is set. -/
def onlyBits (w m : Word) : Bool := (w &&& ~~~m) == 0

/-- One record satisfies Table 6-9, R148, R153 and R154. -/
def recordOk (rs : List PatRec) (r : PatRec) : Bool :=
  let w := fun i => r.body.getD (i - 1) 0
  let rel := fun i => hasCell rs 2 i
  match r.ty with
  | 1 =>
    let conn := fld (w 1) 17 16
    let a := fld (w 1) 4 0
    let b := fld (w 1) 12 8
    let sa := fld (w 1) 23 20
    let sb := fld (w 1) 27 24
    decide (r.body.length = 3) && decide (r.ix < 64) &&
    onlyBits (w 1) 0x0FF31F1F && onlyBits (w 2) 0x3FFF0FFF && onlyBits (w 3) 0x007FFFFF &&
    (sa < 8 || sa == 15) && (sb < 8 || sb == 15) &&
    (if conn = 0 then b == 0 && sb == 0 else a % 2 == 0 && b == a + 1) &&
    inRange 1 (fld (w 2) 11 0) 4000 && inRange 1 (fld (w 2) 29 16) 10000 && rel (fld (w 3) 22 20)
  | 2 =>
    decide (r.body.length = 1) && decide (r.ix < 8) && onlyBits (w 1) 0x000FFF9F && inRange 1 (fld (w 1) 19 8) 4000
  | 3 =>
    decide (r.body.length = 1) && decide (r.ix < 16) && onlyBits (w 1) 0x8FFF0FFF &&
    inRange 1 (fld (w 1) 11 0) 4000 && inRange 1 (fld (w 1) 27 16) 4000
  | 4 =>
    let f := fld (w 1) 3 0
    let n := fld (w 1) 6 4
    let ins := [fld (w 2) 8 0, fld (w 2) 24 16, fld (w 3) 8 0, fld (w 3) 24 16]
    decide (r.body.length = 4) && decide (r.ix < 128) &&
    onlyBits (w 1) 0x00000F7F && onlyBits (w 2) 0x01FF01FF && onlyBits (w 3) 0x01FF01FF &&
    decide (f < 8) && inRange 1 n (if f ≤ 1 then 4 else 1) && decide (fld (w 1) 11 8 < 2 ^ n) &&
    (ins.take n).all (signalOk rs r.ix) && (ins.drop n).all (· == 0) &&
    (match f with
     | 3 | 4 => fld (w 4) 31 24 == 0 && decide (1 ≤ fld (w 4) 23 0)
     | 7 => onlyBits (w 4) 7 && rel (fld (w 4) 2 0)
     | _ => w 4 == 0)
  | 5 =>
    decide (r.body.length = 1) && decide (r.ix < 16) && onlyBits (w 1) 0x07FF71FF && signalOk rs 128 (fld (w 1) 8 0) &&
    inRange 50 (fld (w 1) 26 16) 2000 && rel (fld (w 1) 14 12)
  | 6 => decide (r.body.length = 1) && decide (r.ix < 4) && onlyBits (w 1) 0x000001FF && signalOk rs 128 (fld (w 1) 8 0)
  | _ => false

/-- Records stand in rank order and ascending index, each cell once (R173). -/
def recsSorted : List PatRec → Bool
  | a :: b :: t => decide (a.ty * 256 + a.ix < b.ty * 256 + b.ix) && recsSorted (b :: t)
  | _ => true

/-- Header fields and ranges (Table 6-8, R14, R74). `en` is the TK9640-EN. -/
def headerOk (h : List Word) (bytes : Nat) (rs : List PatRec) (en : Bool) : Bool :=
  let w := fun i => h.getD i 0
  let host := fun c => bit (w 3) (8 + c)
  w 0 == 0xC7B60110 && fld (w 1) 15 0 == bytes && decide (bytes ≤ 16384) && inRange 1 (fld (w 3) 2 0) 4 &&
  (!bit (w 3) 7 || hasCell rs 2 (fld (w 3) 6 4)) &&
  ((List.range 16).all fun k =>
    bit (w 3) (16 + k) == hasCell rs 5 k &&
    if hasCell rs 5 k then host (fld (w 4) (2 * k + 1) (2 * k)) else fld (w 4) (2 * k + 1) (2 * k) == 0) &&
  ((List.range 4).all fun p =>
    bit (w 3) (12 + p) == hasCell rs 6 p &&
    if hasCell rs 6 p then host (fld (w 5) (2 * p + 1) (2 * p)) && !en else fld (w 5) (2 * p + 1) (2 * p) == 0) &&
  fld (w 5) 31 8 == 0 &&
  ((List.range 4).all fun c =>
    if host c then
      inRange 5 (fld (w (6 + c)) 10 0) 2000 && decide (fld (w (6 + c)) 21 11 < fld (w (6 + c)) 10 0) &&
      fld (w (6 + c)) 31 22 == 0
    else w (6 + c) == 0 && w (10 + c) == 0) &&
  w 14 == 0 && w 15 == 0

/-- Steps 2 and 3 of Table 6-11: the check word and the structural check; the records of a sound pattern. -/
def patternCheck (ws : List Word) (en : Bool) : Option (List PatRec) :=
  if ws.length < 17 ∨ crcWords ws.dropLast ≠ ws.getLast?.getD 0 then none
  else
    match patRecs (fld (ws.getD 1 0) 31 16) (ws.dropLast.drop 16) with
    | none => none
    | some rs =>
      if headerOk (ws.take 16) (4 * ws.length) rs en && recsSorted rs && rs.all (recordOk rs) then some rs else none

/-- One record into its cell. -/
def setCell (h : HldS) (r : PatRec) : HldS :=
  let w := fun i => r.body.getD (i - 1) 0
  match r.ty with
  | 1 => { h with ev := h.ev.upd (Fin.ofNat 64 r.ix) fun _ => { valid := true, w1 := w 1, w2 := w 2, w3 := w 3 } }
  | 2 => { h with rel := h.rel.upd (Fin.ofNat 8 r.ix) fun _ =>
      { valid := true, input := Fin.ofNat 32 (fld (w 1) 4 0), high := bit (w 1) 7, filter := BitVec.ofNat 12 (fld (w 1) 19 8) } }
  | 3 => { h with win := h.win.upd (Fin.ofNat 16 r.ix) fun _ => { valid := true, w1 := w 1 } }
  | 4 => { h with lg := h.lg.upd (Fin.ofNat 128 r.ix) fun _ =>
      { valid := true, w1 := w 1, w2 := w 2, w3 := w 3, w4 := w 4 } }
  | 5 => { h with out := h.out.upd (Fin.ofNat 16 r.ix) fun _ => { valid := true, w1 := w 1 } }
  | 6 => { h with gate := h.gate.upd (Fin.ofNat 4 r.ix) fun _ => { valid := true, w1 := w 1 } }
  | _ => h

/-- Step 4 of Table 6-11: the configuration stored, every cell at its initial state, PATTERN_OK set. -/
def storePattern (ws : List Word) (rs : List PatRec) (h : HldS) : HldS :=
  let h1 := rs.foldl setCell
    { h with
      store := ws, loadCrc := crcWords ws.dropLast
      hdr := Tab.gen 16 fun i => ws.getD i.val 0
      ev := Tab.fill 64 {}, rel := Tab.fill 8 {}, win := Tab.fill 16 {}, lg := Tab.fill 128 {}
      out := Tab.fill 16 {}, gate := Tab.fill 4 {} }
  { h1.initCells with patternOk := true }

end Sys2Proof.Machine
end

