-- ==== Sys2Proof/Machine/CvuOps.lean ====
section
/-! DEFINITION. The check-value units (R348 to R355): the value of a unit, its sequence states, and what its owner, its
host owner and its feed channel do to it. DMA elements, which reach register space, stand in Dma.lean. -/

namespace Sys2Proof.Machine

/-! ## The algorithm (R348 to R350) -/

/-- A unit with FIXED set reads, and works with, the CRC-32C values of its configuration (CVU_Un_CFG, R348). -/
def Cvu.fix (u : Cvu) : Cvu :=
  if bit u.cfg 0 then { u with cfg := (u.cfg &&& 0xC0FFFFFF) ||| 0x20000006, poly := 0x1EDC6F41, init := 0xFFFFFFFF, xorout := 0xFFFFFFFF }
  else u

/-- Mask of WIDTH. -/
def Cvu.mask (u : Cvu) : Word := BitVec.ofNat 32 (2 ^ (min 32 (fld u.cfg 29 24)) - 1)

/-- The bits of a value in reverse order within WIDTH. -/
def Cvu.rev (u : Cvu) (v : Word) : Word :=
  let w := fld u.cfg 29 24
  maskOf 32 fun i => decide (i < w) && bit v (w - 1 - i)

/-- The finished check value of a register state, and the register state of a finished value: one exchange both ways. -/
def Cvu.finish (u : Cvu) (r : Word) : Word := ((if bit u.cfg 2 then u.rev r else r) ^^^ u.xorout) &&& u.mask

/-- The register state whose finished value is `v` (R349). -/
def Cvu.unfinish (u : Cvu) (v : Word) : Word :=
  let r := (v ^^^ u.xorout) &&& u.mask
  if bit u.cfg 2 then u.rev r else r

/-- The empty value: the check value of no bytes (R349). -/
def Cvu.empty (u : Cvu) : Word := u.finish (u.init &&& u.mask)

/-- One message bit into the register. -/
def Cvu.bitIn (u : Cvu) (r : Word) (b : Bool) : Word :=
  let top := bit r (fld u.cfg 29 24 - 1)
  ((r <<< 1) ^^^ (if top != b then u.poly else 0)) &&& u.mask

/-- One byte into the register, least significant bit first with REFIN, else most significant first (R350). -/
def Cvu.byteIn (u : Cvu) (r : Word) (b : Byte) : Word :=
  (List.range 8).foldl (fun r i => u.bitIn r (bit b (if bit u.cfg 1 then i else 7 - i))) r

/-- The value after absorbing bytes, with their count and the state it leaves. -/
def Cvu.take (bs : List Byte) (st : SeqSt) (u : Cvu) : Cvu :=
  { u with value := u.finish (bs.foldl u.byteIn (u.unfinish u.value)), st := st
           bytes := BitVec.ofNat 16 (min 0xFFFF (u.bytes.toNat + bs.length)) }

/-- What READ and CVU_Un_VALUE return: the value, complemented under SEQERR (R349, R352). -/
def Cvu.read (u : Cvu) : Word := if u.seqerr then ~~~u.value else u.value

/-- LOAD, or a write of VALUE: fresh, and SEQERR cleared (R349, R351). -/
def Cvu.load (v : Word) (u : Cvu) : Cvu := { u with value := v &&& u.mask, st := .fresh, seqerr := false, bytes := 0 }

/-- FEED of bytes (R351). -/
def Cvu.feed (bs : List Byte) (u : Cvu) : Cvu := if u.st = .closed then { u with seqerr := true } else u.take bs .opened

/-- CTXS of a word (R115, R351). -/
def Cvu.start (w : Word) (u : Cvu) : Cvu := if u.st = .fresh then u.take (wordBytes w) .opened else { u with seqerr := true }

/-- CTXE of a word (R351). -/
def Cvu.stop (w : Word) (u : Cvu) : Cvu := if u.st = .closed then { u with seqerr := true } else u.take (wordBytes w) .closed

/-! ## Units in the machine -/

/-- Owner code of a source of writes (Table 9-2); the service paths write as the host, and a DMA channel is no owner of anything. -/
def srcCode : Src → Nat
  | .engine e => e.val
  | .host | .eth | .can => 0x18
  | .dma => 0x3F

/-- Owner of a unit. -/
def Cvu.owner (u : Cvu) : Nat := fld u.cfg 20 16
/-- The unit is DMA-fed. -/
def Cvu.dmaFed (u : Cvu) : Bool := bit u.cfg 3
/-- The feed channel. -/
def Cvu.channel (u : Cvu) : Fin 16 := Fin.ofNat 16 (fld u.cfg 7 4)

/-- The feed channel of a DMA-fed unit is busy. -/
def fedBusy (s : State) (u : Fin 4) : Bool := s.cvu.u[u].dmaFed && s.cvu.d[s.cvu.u[u].channel].busy

/-- Changes one unit; EV112 + u where SEQERR becomes set (R360). -/
def onUnit (u : Fin 4) (f : Cvu → Cvu) (s : State) : State :=
  let s1 := s.onCvu fun x => { x with u := x.u.upd u f }
  if !s.cvu.u[u].seqerr && s1.cvu.u[u].seqerr then raise (112 + u.val) s1 else s1

/-- CVU_CHECK: the two implementations of unit `u` disagree (R353). -/
def cvuCheck (u : Fin 4) (agree : Bool) (s : State) : State := if agree then s else devFault (devRep 0x46 13 u.val) s

/-- Unit `u` takes an operation; its two implementations are compared where it absorbs a word (R351, R353). -/
def cvuTake (u : Fin 4) (agree : Bool) (absorbs : Cvu → Bool) (f : Cvu → Cvu) (s : State) : State :=
  cvuCheck u (agree || !absorbs s.cvu.u[u]) (onUnit u f s)

/-- A unit that is not closed absorbs what FEED and CTXE bring (R351). -/
def Cvu.open_ (u : Cvu) : Bool := u.st != .closed
/-- A fresh unit absorbs what CTXS brings (R351). -/
def Cvu.fresh_ (u : Cvu) : Bool := u.st == .fresh

/-- A write that the unit ignores sets ERR (R348, R355). -/
def unitErr (u : Fin 4) (s : State) : State := onUnit u (fun x => { x with err := true }) s

/-- A write of CVU_Un_VALUE (R348, R349, R355). -/
def cvuValue (src : Src) (u : Fin 4) (v : Word) (s : State) : State :=
  if srcCode src == s.cvu.u[u].owner && !fedBusy s u then onUnit u (Cvu.load v) s else unitErr u s

/-- A write of CTXS_WORD (0), CTXE_WORD (1) or EXPECT (2) (R355). -/
def cvuContext (src : Src) (u : Fin 4) (which : Fin 3) (v : Word) (s : State) : State :=
  if srcCode src == s.cvu.u[u].owner && !fedBusy s u then
    onUnit u (fun x => match which with
      | 0 => { x with ctxs := v }
      | 1 => { x with ctxe := v }
      | 2 => { x with expect := v }) s
  else unitErr u s

/-- A write of CVU_Un_FEED that is no DMA element: the host owner's four bytes (CVU_Un_FEED). -/
def cvuFeed (src : Src) (u : Fin 4) (v : Word) (agree : Bool) (s : State) : State :=
  if srcCode src == 0x18 && s.cvu.u[u].owner == 0x18 && !s.cvu.u[u].dmaFed then
    cvuTake u agree Cvu.open_ (Cvu.feed (wordBytes v)) s
  else unitErr u s

/-- CVU_Un_CMD of the host owner: 1 folds CTXS_WORD, 2 folds CTXE_WORD; from anyone else the write is ignored and sets ERR (R348). -/
def cvuFold (src : Src) (u : Fin 4) (cmd : Nat) (agree : Bool) (s : State) : State :=
  if srcCode src == 0x18 && s.cvu.u[u].owner == 0x18 && !s.cvu.u[u].dmaFed then
    if cmd ≠ 1 ∧ cmd ≠ 2 then s
    else if cmd = 1 then cvuTake u agree Cvu.fresh_ (fun x => x.start x.ctxs) s
    else cvuTake u agree Cvu.open_ (fun x => x.stop x.ctxe) s
  else unitErr u s

/-- CVU_Un_STAT. -/
def cvuStat (s : State) (u : Fin 4) : Word :=
  let x := s.cvu.u[u]
  at_ (match x.st with | .fresh => 0 | .opened => 1 | .closed => 2) 0 ||| flag x.seqerr 2 ||| flag (fedBusy s u) 3 |||
  flag x.match_ 4 ||| flag x.done 5 ||| flag x.err 6 ||| at_ x.bytes.toNat 16

/-! ## DMA channels: commands and registers (R356, R357) -/

/-- Changes one DMA channel. -/
def State.onD (d : Fin 16) (f : Dma → Dma) (s : State) : State := s.onCvu fun x => { x with d := x.d.upd d f }

/-- Owner of a channel. -/
def Dma.owner (c : Dma) : Nat := fld c.cfg 28 24

/-- Size of an element in bytes. -/
def Dma.size (c : Dma) : Nat := match fld c.cfg 1 0 with | 0 => 1 | 1 => 2 | _ => 4

/-- Units that channel `d` feeds. -/
def fedBy (s : State) (d : Fin 16) : List (Fin 4) :=
  (List.finRange 4).filter fun u => s.cvu.u[u].dmaFed && s.cvu.u[u].channel == d

/-- A request that the channel's REQ setting admits reaches channel `d` (R357, R360). -/
def dmaRequest (d : Fin 16) (s : State) : State :=
  let q := dmaAsk [d] s
  each q.2 raise q.1

/-- Steps 1 and 2 of R354 for a DMA-fed unit; the two implementations are compared where a word is absorbed (R353). -/
def blockStart (agree : Bool) (u : Fin 4) (s : State) : State :=
  cvuCheck u (agree || !bit s.cvu.u[u].cfg 8) <| onUnit u (fun x =>
    let x1 := { x with st := .fresh, seqerr := false, bytes := 0 }
    if bit x.cfg 8 then x1.start x.ctxs else x1) s

/-- The owner of a channel commands it and writes its registers, through HREG or the host (R356). -/
def dmaMay (src : Src) (c : Dma) : Bool := srcCode src == c.owner || (srcCode src == 0x18 && decide (c.owner < 24))

/-- DMA_CHd_CMD START (R354, R357): the owner starts an idle channel with something to move; on a running channel that
takes its requests from software it is the next request. -/
def dmaStart (src : Src) (d : Fin 16) (agree : Bool) (s : State) : State :=
  let c := s.cvu.d[d]
  let sw := fld c.cfg 9 8 == 0
  if !dmaMay src c then s.onD d fun c => { c with result := 1 }
  else if c.busy then
    if sw then dmaRequest d (s.onD d fun c => { c with result := 0 }) else s.onD d fun c => { c with result := 2 }
  else if c.count = 0 then s.onD d fun c => { c with result := 2 }
  else
    let s1 := s.onD d fun c =>
      { c with busy := true, result := 0, code := 0, src0 := c.src, dst0 := c.dst, count0 := c.count, burst := 0, held := false }
    let s2 := each (fedBy s d) (blockStart agree) s1
    if sw then dmaRequest d s2 else s2

/-- DMA_CHd_CMD STOP (R355, R357): elements move whole, so none is in flight between commands. -/
def dmaStop (src : Src) (d : Fin 16) (s : State) : State :=
  let c := s.cvu.d[d]
  if !dmaMay src c then s.onD d fun c => { c with result := 1 }
  else if c.busy then s.onD d fun c => { c with busy := false, burst := 0, held := false, result := 0 }
  else s.onD d fun c => { c with result := 2 }

/-- A write of SRC (0), DST (1) or COUNT (2): from the owner while idle, else ERR with code 0. -/
def dmaWrite (src : Src) (d : Fin 16) (which : Fin 3) (v : Word) (s : State) : State :=
  let c := s.cvu.d[d]
  if dmaMay src c && !c.busy then
    s.onD d fun c => match which with
      | 0 => { c with src := v }
      | 1 => { c with dst := v }
      | 2 => { c with count := v.truncate 24 }
  else raise (116 + d.val / 4) (s.onD d fun c => { c with err := true, code := 0 })

/-- A channel stops with ERR and a code of Table 13-2, and DMA_ERROR is reported (R359, R360). -/
def dmaFail (code : BitVec 4) (d : Fin 16) (s : State) : State :=
  raise (116 + d.val / 4) <| report (cntRep 0xA5 13 (0x10 + d.val)) <|
    s.onD d fun c => { c with busy := false, burst := 0, held := false, err := true, code := code }

/-- Every running channel is stopped with code 5 at entry to DORMANT (R359). -/
def dmaDormant (s : State) : State := each ((List.finRange 16).filter fun d => s.cvu.d[d].busy) (dmaFail 5) s

/-- DMA_CHd_STAT. -/
def dmaStat (c : Dma) : Word :=
  flag c.busy 0 ||| flag c.done 1 ||| flag c.err 2 ||| flag c.ovr 3 ||| at_ c.code.toNat 4

end Sys2Proof.Machine
end

