-- ==== Sys2Proof/Machine/RegSys.lean ====
section
/-! DEFINITION. Reads of the blocks SYS, CAP, EVT, SC, HLD and PWR, CLK of the register space (R458), without the effects of
read-clear fields. -/

namespace Sys2Proof.Machine

/-- An array of registers: index and offset inside the entry of `off`, for `n` entries of `stride` bytes from `base`. -/
def slotAt (base stride n off : Nat) : Option (Nat × Nat) :=
  if base ≤ off ∧ off < base + stride * n then some ((off - base) / stride, (off - base) % stride) else none

/-- Word `k` of 128 flags. -/
def flagWord (f : BitVec 128) (k : Nat) : Word := f.extractLsb' (32 * k) 32

/-- The low and high word of 64 bits. -/
def halfOf (d : DWord) (hi : Bool) : Word := d.extractLsb' (if hi then 32 else 0) 32

/-! ## SYS -/

/-- SYS_STATUS. -/
def sysStatus (s : State) : Word :=
  at_ s.sys.runState.code 0 ||| at_ s.sys.stage.code 4 ||| at_ s.sys.life.code 8 ||| flag s.sys.slotB 11 |||
  flag s.sys.recovery 12 ||| flag s.upd.trial 13 ||| flag s.sys.commitPending 14 ||| flag s.sys.sealMatch 15 |||
  at_ s.sys.holdReason.toNat 24

/-- SYS_RESET_CAUSE. -/
def sysCause (s : State) : Word :=
  at_ s.sys.cause.toNat 0 ||| at_ s.sys.lastState.toNat 8 ||| at_ s.sys.lastStage.toNat 12 ||| at_ s.sys.castOns.toNat 16

/-- SYS_ID. -/
def sysId (s : State) : Word := at_ 0x9640 0 ||| flag (s.otp.tapped && cscAbsent s) 16 ||| at_ 1 20

/-- Bit k is 1 while EVT_PENDk AND EVT_IRQENk is not 0 (Table 17-2). -/
def irqWord (s : State) : Word := maskOf 32 fun k => decide (k < 4) && (flagWord s.evt.pend k &&& flagWord s.link.set.irqen k) != 0

/-- IRQ_N is asserted (R442). -/
def irqN (s : State) : Bool :=
  irqWord s != 0 && (match s.sys.runState with | .safeHold | .run | .lockout | .service => true | _ => false)

/-- Reads of SYS. -/
def rdSys (s : State) (off : Nat) : Word :=
  let l := s.link
  if off = 0x00 then sysId s
  else if off = 0x04 then l.serialLo
  else if off = 0x08 then at_ l.serialHi.toNat 0
  else if off = 0x0C then at_ l.inc.toNat 0
  else if off = 0x10 then sysStatus s
  else if off = 0x14 then at_ s.sys.lastCmd.toNat 0 ||| at_ s.sys.result.toNat 8
  else if off = 0x18 then sysCause s
  else if off = 0x1C then s.sys.castTime
  else if off = 0x20 then at_ l.errCrc.toNat 0 ||| at_ l.errFormat.toNat 8 ||| at_ l.errAborted.toNat 16 ||| at_ l.errSlot.toNat 24
  else if off = 0x420 then l.set.svc
  else if off = 0x424 then l.set.reqId
  else if off = 0x428 then l.set.rspId
  else if off = 0x440 then at_ l.setResult.toNat 4
  else match slotAt 0x100 4 64 off, slotAt 0x400 0x10 2 off, slotAt 0x430 4 2 off with
    | some (n, _), _, _ => l.mbx.getN n 0
    | _, some (i, r), _ =>
      if r = 0 then l.set.ip.getN i 0 else if r = 4 then l.set.mask.getN i 0 else if r = 8 then l.set.gw.getN i 0 else 0
    | _, _, some (c, _) => l.set.can.getN c 0
    | _, _, _ => 0

/-! ## CAP (Table 17-11) -/

/-- The capability records, by ID and body, in list order; `en` is the TK9640-EN and `split` the split-permit tap bit. -/
def capRecords (en split : Bool) : List (Nat × List Word) :=
  [ (0x0001, [at_ 4 0 ||| at_ 8 4 ||| (if en then 0 else at_ 2 8) ||| at_ 1 12 ||| at_ 1 16,
      at_ 250 0 ||| at_ 400 16, 1]),
    (0x0002, [at_ 0x20F 0 ||| flag split 4, at_ 125 0 ||| at_ 200 16]),
    (0x0003, [at_ 64 0 ||| at_ 128 8 ||| at_ 16 16 ||| at_ 8 24, at_ 16 0 ||| (if en then 0 else at_ 4 8) ||| at_ 4096 16,
      at_ 1 0 ||| at_ 10 8 ||| at_ 16384 16]),
    (0x0010, [at_ 32 0 ||| at_ 16 8 ||| at_ 4 16 ||| at_ 8 24, at_ 8 0 ||| at_ 0x0F 8 ||| at_ 250 16, at_ 20 0 ||| at_ 10000 16]),
    (0x0011, [at_ 16 0 ||| at_ 2 8 ||| at_ 8 16, at_ 500 0 ||| at_ 6 16 ||| at_ 50 24]),
    (0x0012, [at_ 8 0 ||| at_ 7 8 ||| at_ 16 16 ||| at_ 2 24, at_ 24000 0 ||| at_ 30000 16]),
    (0x0013, [at_ 8 0 ||| at_ 16 8 ||| at_ 1200 16]),
    (0x0014, [at_ 32 0 ||| at_ 29 8 ||| at_ 16 16 ||| at_ 15 24, at_ 5 0 ||| at_ 255 8]),
    (0x0020, [at_ 256 0 ||| at_ 32 16 ||| at_ 64 24, at_ 5 0 ||| at_ 10000 16,
      at_ 1 0 ||| at_ (if en then 7 else 15) 8 ||| at_ 50629 16]),
    (0x0021, [at_ (if en then 0 else 4) 0 ||| at_ 64 8 ||| at_ 1024 16, at_ 32 0 ||| at_ 61 8 ||| at_ 640 16,
      at_ 80 0 ||| at_ 10 8 ||| at_ 6667 16]),
    (0x0022, [at_ 2 0 ||| at_ 64 8 ||| at_ 1000 16, at_ 5000 0 ||| at_ 8 16 ||| at_ 13 24]),
    (0x0023, [at_ 2 0 ||| at_ 3 8 ||| at_ 50630 16, at_ 50629 0 ||| at_ 60 16]),
    (0x0030, [at_ 4 0 ||| at_ 16 8 ||| at_ 32 16 ||| at_ 63 24, 0x1EDC6F41]),
    (0x0031, [at_ 16 0 ||| at_ 128 8 ||| at_ 64 16 ||| at_ 3 24, at_ 4 0 ||| at_ 10 8 ||| at_ 0 16 ||| at_ 60 24]),
    (0x0040, [at_ 2 0 ||| at_ 1 4 ||| at_ 2 8 ||| at_ 6144 16, at_ 512 0 ||| at_ 3 16 ||| at_ 3 24,
      at_ 600 0 ||| at_ 24 16 ||| at_ 30 24]),
    (0x0041, [at_ 16 0 ||| at_ 1 8 ||| at_ 1 9 ||| at_ 300 16]),
    (0x0042, [at_ 128 0 ||| at_ 8 8 ||| at_ 256 16, at_ 1024 0]) ]

/-- Lays the records out: word 0, the offset of the next record, and the body (R455). -/
def capLay : Nat → List (Nat × List Word) → List Word
  | _, [] => []
  | off, (id, body) :: t =>
    let next := off + 8 + 4 * body.length
    (at_ id 16 ||| at_ 1 8 ||| at_ body.length 0) :: (if t.isEmpty then 0 else at_ next 0) :: body ++ capLay next t

/-- The tap bit that permits split mode. -/
def splitTap (s : State) : Bool := bit s.otp.tap 3

/-- Reads of CAP (R455). -/
def rdCap (s : State) (off : Nat) : Word :=
  (capLay 0 (capRecords (cscAbsent s) (splitTap s))).getD (off / 4) 0

/-- Reads of EVT. -/
def rdEvt (s : State) (off : Nat) : Word :=
  match slotAt 0 4 4 off, slotAt 0x10 4 4 off with
  | some (k, _), _ => flagWord s.evt.pend k
  | _, some (k, _) => flagWord s.link.set.irqen k
  | _, _ => 0

/-! ## SC -/

/-- Reads of SC. -/
def rdSc (s : State) (off : Nat) : Word :=
  if off = 0x400 then s.eng.swatch
  else if off = 0x404 then s.eng.swatchFail
  else match slotAt 0 0x100 4 off with
    | some (n, r) =>
      let c := s.eng.c.getN n {}
      if r = 0 then
        at_ c.mode.toNat 0 ||| flag c.trapped 2 ||| flag c.deadline 3 ||| at_ c.cause.toNat 8 ||| at_ c.word.toNat 16
      else if r = 4 then c.scanCfg
      else if r = 8 then c.mmLane
      else if r = 0xC then c.mmKnit
      else if r = 0x10 then c.mmPurl
      else 0
    | none => 0

/-! ## HLD -/

/-- Coding of the fault line code in HLD_STATUS. -/
def LineCode.code : LineCode → Nat
  | .asserted => 0 | .hold => 1 | .run => 2

/-- HLD_STATUS. -/
def hldStatus (s : State) : Word :=
  let h := s.hld
  at_ h.line.code 0 ||| flag h.h 2 ||| flag h.devFault 3 ||| flag h.fatal 4 ||| flag h.patternOk 5 ||| flag h.vectorOk 6 |||
  flag h.releaseSeen 7 ||| at_ h.firstCause.toNat 8

/-- Reads of HLD. -/
def rdHld (s : State) (off : Nat) : Word :=
  let h := s.hld
  if off = 0x00 then hldStatus s
  else if off = 0x04 then maskOf 32 fun i => if i < 16 then (h.out.getN i {}).d else decide (i < 20) && (h.gate.getN (i - 16) {}).e
  else if off = 0x08 then maskOf 32 fun i => if i < 16 then (h.out.getN i {}).closed else (h.out.getN (i - 16) {}).l
  else if off = 0x30 then at_ h.dev.toNat 0 ||| at_ h.exchCount.toNat 16
  else if off = 0x40 then maskOf 32 fun i => (h.ev.getN i {}).lock
  else if off = 0x44 then maskOf 32 fun i => (h.ev.getN (32 + i) {}).lock
  else if off = 0x48 then at_ h.ignored.toNat 0 ||| at_ h.dropped.toNat 16
  else if off = 0x50 then h.hdr.getN 2 0
  else match slotAt 0x10 4 4 off, slotAt 0x20 4 4 off with
    | some (n, _), _ => at_ (h.mon.getN n {}).disOut.toNat 0 ||| at_ (h.mon.getN n {}).disPort.toNat 16
    | _, some (n, _) => at_ (h.mon.getN n {}).seq.toNat 0 ||| at_ (h.mon.getN n {}).discarded.toNat 16
    | _, _ => 0

/-! ## PWR and CLK -/

/-- PWR_STATUS. -/
def pwrStatus (s : State) : Word :=
  let p := s.pwr
  flag p.vlogicHigh 0 ||| flag p.vf1 1 ||| flag p.vf2 2 ||| flag p.van 3 ||| flag p.tensionMax 4 ||| flag p.k32Run 5 |||
  flag p.pllLock 6 ||| at_ p.domains.toNat 8

/-- Reads of PWR and CLK. -/
def rdPwr (s : State) (off : Nat) : Word :=
  let p := s.pwr
  if off = 0x00 then pwrStatus s
  else if off = 0x04 then at_ p.vlogicMeas.toNat 0 ||| at_ p.vanMeas.toNat 16
  else if off = 0x08 then at_ p.setpoint.toNat 0 ||| at_ p.minRate.toNat 16 ||| at_ p.minSensor.toNat 25
  else if off = 0x0C then at_ p.lowest.toNat 0 ||| at_ p.lowSet.toNat 16 ||| at_ p.emergency.toNat 24
  else if off = 0x10 then p.tensionCfg
  else if off = 0x14 then at_ p.tempProc.toNat 0 ||| at_ p.tempHld.toNat 8 ||| flag (tempOk s) 16
  else if off = 0x20 then p.wakeCfg
  else if off = 0x24 then p.wakeTimer
  else if off = 0x28 then at_ p.wakeCause.toNat 0 ||| at_ p.refuse.toNat 8 ||| at_ p.entries.toNat 16
  else if off = 0x2C then p.dormantMs
  else if off = 0x100 then
    flag p.xtalOk 0 ||| flag p.pllLock 1 ||| flag p.k32Run 2 ||| at_ p.k32Dev.toNat 8 ||| at_ p.lockLoss.toNat 16
  else 0

end Sys2Proof.Machine
end

