-- ==== Sys2Proof/Machine/RegIo.lean ====
section
/-! DEFINITION. Reads of the blocks SIN, SOUT, TMR and ALP of the register space, without the effects of read-clear fields. -/

namespace Sys2Proof.Machine

/-! ## SIN -/

/-- Coding of a release slot's state in SIN_REL_STAT. -/
def RelSt.code : RelSt → Nat
  | .idle => 0 | .active => 1 | .stuck => 2 | .recover => 3

/-- SIN_INn_STAT. -/
def inStat (i : InA) : Word :=
  at_ i.settleDelay.toNat 0 ||| at_ i.settleMeas.toNat 8 ||| flag i.tpFail 16 ||| flag i.testPulse 17 ||| flag i.crossShort 18 |||
  at_ i.foreign.toNat 19 ||| flag i.settleFault 22 ||| flag i.forced 23

/-- SIN_RELr_CFG. -/
def relCfg (c : RelCell) : Word := at_ c.input.val 0 ||| flag c.high 7 ||| at_ c.filter.toNat 8 ||| flag c.valid 31

/-- Reads of SIN. -/
def rdSin (s : State) (off : Nat) : Word :=
  let x := s.sin
  if off = 0 then maskOf 32 fun n => if h : n < 32 then counted x ⟨n, h⟩ else false
  else if off = 4 then maskOf 32 fun n => if h : n < 32 then presented x ⟨n, h⟩ else false
  else if off = 8 then maskOf 32 fun n => (x.i.getN n {}).forced
  else if off = 0x600 then x.tpCfg
  else if off = 0x604 then maskOf 32 fun j => if j < 8 then (x.tp.getN j {}).rb else decide (j < 16) && (x.tp.getN (j - 8) {}).cond
  else if off = 0x720 then (List.range 8).foldl (fun w r => w ||| at_ (x.slot.getN r {}).cell.st.code (2 * r)) 0
  else match slotAt 0x100 4 32 off, slotAt 0x180 4 32 off, slotAt 0x400 0x10 16 off with
    | some (n, _), _, _ => (x.i.getN n {}).cfg
    | _, some (n, _), _ => inStat (x.i.getN n {})
    | _, _, some (k, r) =>
      let p := x.pair.getN k {}
      if r = 0 then p.cfg else if r = 4 then pairWord x (Fin.ofNat 16 k) else if r = 8 then p.lastd else p.cfg2
    | _, _, _ => match slotAt 0x700 4 8 off, slotAt 0x800 4 4 off, slotAt 0x810 4 4 off with
      | some (r, _), _, _ => relCfg (x.slot.getN r {}).cell
      | _, some (n, _), _ => (x.cnt.getN n {}).count
      | _, _, some (n, _) => (x.cnt.getN n {}).edge
      | _, _, _ => 0

/-! ## SOUT -/

/-- SOUT_SUMMARY. -/
def soutSummary (s : State) : Word :=
  maskOf 32 fun i => if i < 16 then !(s.sout.o.getN i {}).causes.isEmpty else (s.sout.o.getN (i - 16) {}).swa

/-- Reads of SOUT. -/
def rdSout (s : State) (off : Nat) : Word :=
  let x := s.sout
  if off = 0x200 then x.pulseCfg
  else if off = 0x204 then
    at_ s.pwr.vf1Meas.toNat 0 ||| at_ s.pwr.vf2Meas.toNat 10 ||| flag (!x.bankCond[0]) 20 ||| flag (!x.bankCond[1]) 21
  else if off = 0x208 then soutSummary s
  else match slotAt 0 0x20 16 off with
    | some (k, r) =>
      let o := x.o.getN k {}
      if r = 0 then o.cfg
      else if r = 4 then o.cfg2
      else if r = 8 then o.fb
      else if r = 0xC then outWord s (Fin.ofNat 16 k)
      else if r = 0x10 then at_ o.shownWidth 0 ||| at_ o.falters.toNat 8 ||| at_ o.lastFall.toNat 16
      else 0
    | none => 0

/-! ## TMR -/

/-- Reads of TMR; a running channel's COUNT reads 0 (R244). -/
def rdTmr (s : State) (off : Nat) : Word :=
  if off = 0x800 then at_ s.tmr.result.toNat 30
  else match slotAt 0 0x40 32 off, slotAt 0x900 0x10 16 off with
    | some (n, r), _ =>
      let c := s.tmr.ch.getN n {}
      let i : Fin 32 := Fin.ofNat 32 n
      if r = 0 then c.cfg
      else if r = 4 then c.trig
      else if r = 8 then c.modv
      else if r = 0xC then c.phase
      else if r = 0x10 then c.step
      else if r = 0x14 then c.cmp
      else if r = 0x18 then (if s.tmr.ch[govern s.tmr i].run then 0 else halfAt s.tmr s.t.tbA i)
      else if r = 0x1C then c.capr
      else if r = 0x20 then c.capf
      else if r = 0x24 then statOf s.tmr i
      else if r = 0x28 then c.snap
      else 0
    | _, some (g, r) =>
      let q := s.tmr.grp.getN g {}
      if r = 0 then q.mask else if r = 4 then at_ q.owner.toNat 0 else if r = 8 then q.time else 0
    | _, _ => 0

/-! ## ALP -/

/-- Reads of ALP. -/
def rdAlp (s : State) (off : Nat) : Word :=
  if off = 0x400 then at_ s.alp.result.toNat 24
  else match slotAt 0 0x40 8 off, slotAt 0x600 4 8 off with
    | some (n, r), _ =>
      let c := s.alp.ch.getN n {}
      let i : Fin 8 := Fin.ofNat 8 n
      if r = 0 then c.cfg
      else if r = 4 then c.win[0]
      else if r = 8 then c.win[1]
      else if r = 0xC then at_ c.set.toNat 0
      else if r = 0x10 then alpVal s i
      else if r = 0x14 then alpStat s i
      else if r = 0x18 then at_ (if c.mode = 3 then c.headroom.toNat else 0) 0 ||| at_ c.ovr.toNat 8
      else if r = 0x1C then c.cfg2
      else if r = 0x20 then at_ c.zero.toNat 0 ||| at_ c.gain.toNat 16
      else 0
    | _, some (n, _) => mdmStat (s.alp.ch.getN n {})
    | _, _ => 0

end Sys2Proof.Machine
end

