-- ==== Sys2Proof/Machine/RegNet.lean ====
section
/-! DEFINITION. Reads of the blocks CSL, CSC, CVU and DMA, OTP, UPD and DIAG of the register space, without the effects of
read-clear fields. -/

namespace Sys2Proof.Machine

/-! ## CSL -/

/-- Reads of CSL; CSL_HL_TX is read as the words of the oldest queued telegram (R315). -/
def rdCsl (s : State) (off : Nat) : Word :=
  let x := s.csl
  if off = 0x4100 then x.id
  else if off = 0x4104 then at_ x.epoch.toNat 0
  else if off = 0x4108 then at_ x.udpPort.toNat 0
  else if off = 0x4110 then at_ x.unknown[0].toNat 0 ||| at_ x.unknown[1].toNat 8 ||| at_ x.unknown[2].toNat 16
  else if off = 0x4300 then at_ x.hlTx.length 0 ||| at_ (16 - x.hlRx.length) 8 ||| flag x.rxOvf 16
  else match slotAt 0 0x40 256 off, slotAt 0x4000 8 32 off, slotAt 0x4200 4 20 off with
    | some (n, r), _, _ =>
      let y := x.s.getN n {}
      if r = 0x00 then y.cfg
      else if r = 0x04 then y.cfg2
      else if r = 0x08 then y.cfg3
      else if r = 0x0C then y.peer
      else if r = 0x10 then y.addr
      else if r = 0x14 then y.addr2
      else if r = 0x18 then y.param
      else if r = 0x1C then sessWord s.t.tbA y
      else if r = 0x20 then y.tx
      else if r = 0x24 then y.l
      else if r = 0x28 then at_ y.inc.toNat 0
      else if r = 0x2C then at_ y.dropped.toNat 0 ||| at_ y.run.toNat 16 ||| at_ (min 255 (y.hourNow + y.hourPrev)) 24
      else if r = 0x30 then at_ y.stale.toNat 0 ||| at_ y.aged.toNat 8 ||| at_ y.unexpected.toNat 16
      else 0
    | _, some (i, r), _ =>
      let y := x.link.getN i {}
      if r = 0 then y.cfg ||| flag y.locked 28 else y.mask
    | _, _, some (w, _) => (hlTake s).1.getD w 0
    | _, _, _ => 0

/-! ## CSC -/

/-- The two words of a partner-table entry (CSC_Pp_PTABa). -/
def ptabWord (e : Partner) (hi : Bool) : Word :=
  if hi then at_ e.silent.toNat 0 ||| at_ e.snr.toNat 8 ||| at_ e.missed.toNat 16
  else at_ e.entry.toNat 0 ||| at_ e.group.toNat 2 ||| at_ e.state.toNat 8 ||| at_ e.fault.toNat 16

/-- Reads of CSC. -/
def rdCsc (s : State) (off : Nat) : Word :=
  if off = 0x1000 then at_ s.csc.result.toNat 24
  else match slotAt 0 0x400 4 off, slotAt 0x8000 0x2000 4 off with
    | some (p, r), _ =>
      let x := s.csc.p.getN p {}
      if r = 0x00 then x.cfg
      else if r = 0x04 then x.skein
      else if r = 0x08 then at_ x.conn.toNat 0 ||| at_ x.inc.toNat 16
      else if r = 0x0C then x.seq
      else if r = 0x10 then cscWord s (Fin.ofNat 4 p)
      else if r = 0x14 then halfOf x.permits false
      else if r = 0x18 then halfOf x.permits true
      else if r = 0x1C then at_ x.rowCut.toNat 0 ||| at_ x.empty.toNat 8 ||| at_ x.flags.toNat 16 ||| at_ x.commons.toNat 24
      else if r = 0x20 then at_ x.reports.toNat 0 ||| at_ x.frameErr.toNat 16
      else if r = 0x24 then
        at_ x.rounds.toNat 0 ||| flag x.active 4 ||| flag x.endedCommon 5 ||| at_ x.located.toNat 6 ||| at_ x.lastLoc.toNat 16
      else if r = 0x28 then at_ x.next.toNat 0 ||| at_ x.lastCycle.toNat 16
      else if r = 0x2C then at_ x.paired.length 0 ||| at_ x.missing 16
      else match slotAt 0x100 4 64 r with
        | some (g, _) => x.grp.getN g 0
        | none => 0
    | _, some (p, r) => ptabWord (Sparse.get {} (s.csc.p.getN p {}).tab (r / 8)) (r % 8 = 4)
    | _, _ => 0

/-! ## CVU and DMA -/

/-- Reads of CVU and DMA. -/
def rdCvu (s : State) (off : Nat) : Word :=
  match slotAt 0 0x40 4 off, slotAt 0x1000 0x20 16 off with
  | some (u, r), _ =>
    let x := s.cvu.u.getN u {}
    if r = 0x00 then x.cfg
    else if r = 0x04 then x.poly
    else if r = 0x08 then x.init
    else if r = 0x0C then x.xorout
    else if r = 0x10 then x.empty
    else if r = 0x14 then x.read
    else if r = 0x18 then x.ctxs
    else if r = 0x1C then x.ctxe
    else if r = 0x20 then x.expect
    else if r = 0x2C then cvuStat s (Fin.ofNat 4 u)
    else 0
  | _, some (d, r) =>
    let x := s.cvu.d.getN d {}
    if r = 0x00 then x.cfg
    else if r = 0x04 then x.src
    else if r = 0x08 then x.dst
    else if r = 0x0C then at_ x.count.toNat 0
    else if r = 0x10 then at_ x.result.toNat 30
    else if r = 0x14 then dmaStat x
    else 0
  | _, _ => 0

/-! ## OTP -/

/-- A shadow as a reader sees it: a read-locked region reads 0 but to the boot core and the update core (R398). -/
def shadowSeen (o : OtpS) (inner : Bool) (r w : Nat) : Word :=
  if bit o.rlock r && !inner then 0 else Sparse.get 0 o.shadow (otpAddr r w)

/-- OTP_ALARM. -/
def otpAlarmWord (o : OtpS) : Word := at_ o.alarm.toNat 0 ||| at_ o.incomplete.toNat 16

/-- Reads of OTP; `inner` is the boot core or the update core. -/
def rdOtp (s : State) (inner : Bool) (off : Nat) : Word :=
  let o := s.otp
  if off = 0x00 then
    flag o.sensed 0 ||| flag o.busy 1 ||| flag o.armed.isSome 2 ||| flag (tempOk s) 3 |||
    at_ (min 255 (o.weak.length + o.tapTodo.length + o.copies.length)) 8
  else if off = 0x04 then otpAlarmWord o
  else if off = 0x08 then (if o.tapped then halfOf o.tap false else 0)
  else if off = 0x0C then (if o.tapped then halfOf o.tap true else 0)
  else if off = 0x10 then halfOf o.tapWeak false
  else if off = 0x14 then halfOf o.tapWeak true
  else if off = 0x18 then at_ ((o.seen.lockWord 0).toNat % 65536) 0 ||| at_ o.rlock.toNat 16
  else if off = 0x1C then at_ o.sticky.toNat 0
  else if off = 0x20 then o.seen.modeWord
  else if off = 0x24 then o.seen.policyWord
  else if off = 0x30 then o.addr
  else if off = 0x34 then o.data
  else if off = 0x38 then at_ o.result.toNat 8
  else if off = 0x3C then o.readN
  else if off = 0x40 then o.readT
  else if off = 0x44 then o.check
  else match slotAt 0x1000 0x200 16 off with
    | some (r, w) => shadowSeen o inner r (w / 4)
    | none => 0

/-! ## UPD -/

/-- Coding of the update phase in UPD_STATUS. -/
def UpdPhase.code : UpdPhase → Nat
  | .idle => 0 | .erasing => 1 | .receiving => 2 | .verifying => 3 | .verified => 4 | .failed => 5

/-- UPD_TRIAL. -/
def updTrial (s : State) : Word :=
  let u := s.upd
  let left := match u.trialTime with
    | some (t, n) => n - since s t / 200000000
    | none => 0
  flag u.trial 0 ||| flag u.rule 1 ||| flag u.trialTime.isSome 2 ||| at_ u.trialCount.toNat 3 ||| at_ left 8

/-- UPD_LEASE. -/
def updLease (s : State) : Word := at_ s.upd.owner.toNat 0 ||| at_ s.upd.leaseResult.toNat 12

/-- Reads of UPD. -/
def rdUpd (s : State) (off : Nat) : Word :=
  let u := s.upd
  if off = 0x00 then updLease s
  else if off = 0x04 then at_ u.result.toNat 8
  else if off = 0x08 then u.arg
  else if off = 0x0C then u.offset
  else if off = 0x10 then
    at_ u.phase.code 0 ||| flag u.armed 3 ||| flag u.commit.isSome 4 ||| flag u.confirming 5 |||
    at_ (if u.owner = 0 then 0 else min 255 (since s u.leaseAt / 200000000)) 8 |||
    at_ (if u.armed then 120 - since s u.armedAt / 200000000 else 0) 16
  else if off = 0x14 then u.code
  else if off = 0x18 then u.commissioned.getD 0
  else if off = 0x1C then at_ s.otp.seen.commCount 0 ||| at_ s.pwr.sealValue.toNat 16
  else if off = 0x20 then updTrial s
  else if off = 0x60 then at_ (s.otp.seen.arb 0) 0 ||| at_ (s.otp.seen.arb 1) 16
  else if off = 0x64 then at_ (s.otp.seen.arb 2) 0
  else if off = 0x68 then flag u.sector 0 ||| at_ u.jUsed.toNat 1 ||| at_ (u.gen.toNat % 65536) 16
  else match slotAt 0x30 0x10 3 off with
    | some (i, r) =>
      let x := u.slot.getN i {}
      if r = 0 then flag x.valid 0 ||| flag (u.running == some (BitVec.ofNat 2 i)) 1 ||| flag (decide (u.active.toNat = i)) 2 |||
        flag x.frogged 3
      else if r = 4 then x.code
      else if r = 8 then x.version
      else x.sv
    | none => 0

/-! ## DIAG -/

/-- The words of a row counter table entry. -/
def rctWord (e : RctEntry) (k : Nat) : Word :=
  match k with
  | 0 => at_ e.code.toNat 0 ||| at_ e.scls.toNat 16 ||| at_ e.cls.code 20 ||| flag e.valid 23
  | 1 => at_ e.src.toNat 0
  | 2 => at_ e.count.toNat 0
  | 3 => e.first.truncate 32
  | 4 => e.last.truncate 32
  | 5 => at_ (e.first.toNat / 2 ^ 32) 0 ||| at_ (e.last.toNat / 2 ^ 32) 16
  | _ => 0

/-- The words of a log record. -/
def logWord (r : LogRec) (k : Nat) : Word :=
  match k with
  | 0 => r.w0 | 1 => r.w1 | 2 => r.w2 | _ => r.w3

/-- DIAG_STAT. -/
def diagStat (d : DiagS) : Word := at_ (d.rct.toList.countP fun e => e.valid) 0 ||| at_ d.overflow.toNat 16 ||| at_ d.evicted.toNat 24

/-- Reads of DIAG. -/
def rdDiag (s : State) (off : Nat) : Word :=
  let d := s.diag
  if off = 0x00 then d.cfg
  else if off = 0x04 then diagStat d
  else if off = 0x08 then at_ d.result.toNat 24
  else if off = 0x0C then at_ d.tested.toNat 0 ||| at_ d.passed.toNat 16
  else if off = 0x10 then at_ d.rbCount.toNat 0 ||| flag d.rbValid 8
  else if off = 0x3000 then at_ d.head.toNat 0 ||| at_ d.written.toNat 16
  else if off = 0x3004 then at_ d.archIdx.toNat 0
  else match slotAt 0x1000 0x20 256 off, slotAt 0x4000 0x10 1024 off, slotAt 0x8000 0x20 128 off, slotAt 0x3010 4 4 off with
    | some (i, r), _, _, _ => rctWord (d.rct.getN i {}) (r / 4)
    | _, some (j, r), _, _ => logWord (Sparse.get {} d.log j) (r / 4)
    | _, _, some (n, r), _ => (d.rb.getN n {}).w.getN (r / 4) 0
    | _, _, _, some (k, _) => logWord (Sparse.get {} d.archive d.archIdx.toNat) k
    | _, _, _, _ => 0

end Sys2Proof.Machine
end

