-- ==== Sys2Proof/Machine/Regs.lean ====
section
/-! DEFINITION. The register space as a whole (R458): the block map, and one read with the effects of its read-clear fields
(R438 to R440). -/

namespace Sys2Proof.Machine

/-- The blocks of Table 17-13. -/
inductive Blk where
  | sys | cap | evt | sc | hld | sin | sout | tmr | alp | csl | csc | cvu | otp | upd | pwr | diag
  deriving DecidableEq, Repr

/-- Bases of the blocks, in order (Table 17-13). -/
def blockBases : List (Nat × Blk) :=
  [(0x000000, .sys), (0x001000, .cap), (0x002000, .evt), (0x010000, .sc), (0x020000, .hld), (0x030000, .sin),
   (0x038000, .sout), (0x040000, .tmr), (0x050000, .alp), (0x060000, .csl), (0x070000, .csc), (0x080000, .cvu),
   (0x090000, .otp), (0x0A0000, .upd), (0x0B0000, .pwr), (0x0C0000, .diag)]

/-- The block of a register address and the offset inside it; none outside every block (R458). -/
def blockAt (a : Nat) : Option (Blk × Nat) :=
  if 0x0D0000 ≤ a then none
  else (blockBases.filter fun b => decide (b.1 ≤ a)).getLast?.map fun b => (b.2, a - b.1)

/-- Value of a register, without the effects of the read. `inner` is a read by the boot core or the update core. -/
def regVal (inner : Bool) (a : Nat) (s : State) : Word :=
  match blockAt a with
  | some (.sys, o) => rdSys s o
  | some (.cap, o) => rdCap s o
  | some (.evt, o) => rdEvt s o
  | some (.sc, o) => rdSc s o
  | some (.hld, o) => rdHld s o
  | some (.sin, o) => rdSin s o
  | some (.sout, o) => rdSout s o
  | some (.tmr, o) => rdTmr s o
  | some (.alp, o) => rdAlp s o
  | some (.csl, o) => rdCsl s o
  | some (.csc, o) => if cscAbsent s then 0 else rdCsc s o
  | some (.cvu, o) => rdCvu s o
  | some (.otp, o) => rdOtp s inner o
  | some (.upd, o) => rdUpd s o
  | some (.pwr, o) => rdPwr s o
  | some (.diag, o) => rdDiag s o
  | none => 0

/-- What reading TMR clears or sets, whoever reads: STAT of a channel the host owns clears, as at a host read (R108, TMR_CHn_STAT), and a
read of a running COUNT sets ERR (R244). -/
def clrTmr (off : Nat) (s : State) : State :=
  match slotAt 0 0x40 32 off with
  | some (n, r) =>
    let i : Fin 32 := Fin.ofNat 32 n
    if r = 0x24 ∧ tmrOwner s.tmr i = 0x18 then s.onTc i statClear
    else if r = 0x18 ∧ s.tmr.ch[govern s.tmr i].run then s.onTc i fun c => { c with err := true }
    else s
  | none => s

/-- What reading ALP clears. -/
def clrAlp (off : Nat) (s : State) : State :=
  match slotAt 0 0x40 8 off, slotAt 0x600 4 8 off with
  | some (n, r), _ => if r = 0x18 then s.onA (Fin.ofNat 8 n) fun c => { c with ovr := 0 } else s
  | _, some (n, _) => s.onA (Fin.ofNat 8 n) fun c => { c with txOvf := false, errors := 0, dropped := 0 }
  | _, _ => s

/-- What reading CSL clears. -/
def clrCsl (off : Nat) (s : State) : State :=
  if off = 0x4110 then s.onCsl fun c => { c with unknown := Tab.fill 3 0 }
  else if off = 0x4300 then s.onCsl fun c => { c with rxOvf := false }
  else match slotAt 0 0x40 256 off with
    | some (n, r) =>
      if r = 0x2C then s.onS (Fin.ofNat 256 n) fun x => { x with dropped := 0 }
      else if r = 0x30 then s.onS (Fin.ofNat 256 n) fun x => { x with stale := 0, aged := 0, unexpected := 0 }
      else s
    | none => s

/-- What reading CSC clears. -/
def clrCsc (off : Nat) (s : State) : State :=
  match slotAt 0 0x400 4 off with
  | some (p, r) =>
    if r = 0x1C then s.onP (Fin.ofNat 4 p) fun x => { x with rowCut := 0, empty := 0, flags := 0, commons := 0 }
    else if r = 0x20 then s.onP (Fin.ofNat 4 p) fun x => { x with reports := 0, frameErr := 0 }
    else s
  | none => s

/-- What reading CVU and DMA clears. -/
def clrCvu (off : Nat) (s : State) : State :=
  match slotAt 0 0x40 4 off, slotAt 0x1000 0x20 16 off with
  | some (u, r), _ =>
    if r = 0x2C then s.onCvu fun x => { x with u := x.u.upd (Fin.ofNat 4 u) fun y => { y with done := false, err := false } } else s
  | _, some (d, r) => if r = 0x14 then s.onD (Fin.ofNat 16 d) fun y => { y with done := false, err := false, ovr := false } else s
  | _, _ => s

/-- What a read of a register leaves: read-clear fields clear after the value is taken. -/
def regClear (a : Nat) (s : State) : State :=
  match blockAt a with
  | some (.sys, o) =>
    if o = 0x20 then s.onLink fun l => { l with errCrc := 0, errFormat := 0, errAborted := 0, errSlot := 0 } else s
  | some (.hld, o) => if o = 0x48 then s.onHld fun h => { h with ignored := 0, dropped := 0 } else s
  | some (.tmr, o) => clrTmr o s
  | some (.alp, o) => clrAlp o s
  | some (.csl, o) => clrCsl o s
  | some (.csc, o) => clrCsc o s
  | some (.cvu, o) => clrCvu o s
  | _ => s

/-- A source is the boot core or the update core. -/
def srcInner : Src → Bool
  | .engine e => e.val == 14 || e.val == 15
  | _ => false

/-- One read of the register space. -/
def readReg (src : Src) (a : Nat) (s : State) : Word × State := (regVal (srcInner src) a s, regClear a s)

/-- Reads of consecutive words in ascending order (R439). -/
def readRegs (src : Src) : Nat → Nat → State → List Word × State
  | 0, _, s => ([], s)
  | n + 1, a, s =>
    let q := readReg src a s
    let r := readRegs src n (a + 4) q.2
    (q.1 :: r.1, r.2)

end Sys2Proof.Machine
end

