-- ==== Sys2Proof/Machine/RegsLoad.lean ====
section
/-! DEFINITION. The registers that the image loads (R6, R407 kind 0): which addresses they occupy, the bits they hold, the
values their fields admit, and where each is kept. -/

namespace Sys2Proof.Machine

/-- What a loaded register admits: the bits that are not reserved, and for each field with stated codes or a stated range
its place and the ranges of its values. -/
structure LoadSpec where
  /-- Bits that are not reserved. -/
  mask : Word
  /-- Fields as high bit, low bit and ranges of values. -/
  fields : List (Nat × Nat × List (Nat × Nat)) := []
  deriving DecidableEq, Repr

/-- A register without a stated range. -/
def plain (m : Word) : Option LoadSpec := some { mask := m }

/-- An identity, of which 0 and all ones are reserved (R289). -/
def identity : Option LoadSpec := some ⟨0xFFFFFFFF, [(31, 0, [(1, 0xFFFFFFFE)])]⟩

/-- Owner codes of Table 9-2 without the triggers. -/
def ownerCodes : List (Nat × Nat) := [(0, 0x18), (0x1F, 0x1F)]

/-- A value is within a specification (R407). -/
def LoadSpec.admits (l : LoadSpec) (v : Word) : Bool :=
  (v &&& ~~~l.mask) == 0 && l.fields.all fun f => f.2.2.any fun r => decide (r.1 ≤ fld v f.1 f.2.1) && decide (fld v f.1 f.2.1 ≤ r.2)

/-- Loaded registers of SIN. -/
def loadSin (o : Nat) : Option LoadSpec :=
  if o = 0x600 then some ⟨0x007F03FF, [(9, 0, [(10, 1000)]), (22, 16, [(20, 100)])]⟩
  else match slotAt 0x100 4 32 o, slotAt 0x400 0x10 16 o, slotAt 0x700 4 8 o with
    | some _, _, _ => some ⟨0x0FFF3FFF, [(1, 0, [(0, 2)]), (3, 2, [(0, 2)]), (7, 4, [(0, 7), (15, 15)]), (13, 8, [(4, 50)]), (27, 16, [(1, 4000)])]⟩
    | _, some (_, r), _ =>
      if r = 0 then some ⟨0x3FFF3FF7, [(2, 0, [(0, 4)]), (29, 16, [(1, 10000)])]⟩ else if r = 0xC then plain 0x3F else none
    | _, _, some _ => some ⟨0x800FFF9F, [(19, 8, [(1, 4000)])]⟩
    | _, _, _ => none

/-- Loaded registers of SOUT. -/
def loadSout (o : Nat) : Option LoadSpec :=
  if o = 0x200 then some ⟨0x3FF, [(9, 0, [(10, 1000)])]⟩
  else match slotAt 0 0x20 16 o with
    | some (_, r) =>
      if r = 0 then some ⟨0x007F3FFF, [(13, 8, [(6, 50)]), (22, 16, [(1, 100)])]⟩
      else if r = 4 then some ⟨0x07FFFFFF, [(26, 16, [(50, 2000)])]⟩
      else if r = 8 then some ⟨0x0007FFFF, [(18, 8, [(10, 2000)])]⟩
      else none
    | none => none

/-- Loaded registers of TMR. -/
def loadTmr (o : Nat) : Option LoadSpec :=
  match slotAt 0 0x40 32 o, slotAt 0x900 0x10 16 o with
  | some (n, r), _ =>
    if r = 0 then
      some ⟨if n % 2 = 0 then 0x3FFF1FFF else 0x3FFF1FFB,
        [(1, 0, [(0, 2)]), (12, 8, ownerCodes), (23, 16, [(0, 4), (0x20, 0x4F), (0x80, 0xFF)])]⟩
    else if r = 4 then some ⟨0x00FF1F07, [(2, 0, [(0, 6)])]⟩
    else if r = 8 ∨ r = 0xC ∨ r = 0x10 ∨ r = 0x14 then plain 0xFFFFFFFF
    else none
  | _, some (_, r) =>
    if r = 0 then plain 0xFFFFFFFF else if r = 4 then some ⟨0x1F, [(4, 0, [(0, 0x19), (0x1F, 0x1F)])]⟩ else none
  | _, _ => none

/-- Loaded registers of ALP. -/
def loadAlp (o : Nat) : Option LoadSpec :=
  match slotAt 0 0x40 8 o with
  | some (_, r) =>
    if r = 0 then some ⟨0x0001FFFF, [(7, 6, [(0, 2)]), (15, 12, [(0, 8), (15, 15)])]⟩
    else if r = 4 ∨ r = 8 then some ⟨0x8FFF0FFF, [(11, 0, [(0, 2400)]), (27, 16, [(0, 2400)])]⟩
    else if r = 0x1C then plain 0x000FFFFF
    else none
  | none => none

/-- Loaded registers of CSL. -/
def loadCsl (o : Nat) : Option LoadSpec :=
  if o = 0x4108 then plain 0xFFFF
  else match slotAt 0 0x40 256 o, slotAt 0x4000 8 32 o with
    | some (_, r), _ =>
      if r = 0 then some ⟨0x0F7FFFFF, [(1, 0, [(0, 2)]), (14, 8, [(0, 64)]), (22, 16, [(0, 64)]), (27, 24, [(1, 15)])]⟩
      else if r = 4 then some ⟨0x3FFFFFFF, [(15, 0, [(1, 0xFFFE)]), (29, 16, [(5, 10000)])]⟩
      else if r = 8 then some ⟨0x00FFFFFF, [(7, 0, [(1, 255)]), (15, 8, [(1, 255)]), (23, 16, [(1, 255)])]⟩
      else if r = 0xC then identity
      else if r = 0x10 ∨ r = 0x14 ∨ r = 0x18 then plain 0xFFFFFFFF
      else none
    | _, some (_, r) => if r = 0 then plain 0x0FFF01FF else plain 0x000FFFFF
    | _, _ => none

/-- Loaded registers of CSC. -/
def loadCsc (o : Nat) : Option LoadSpec :=
  match slotAt 0 0x400 4 o with
  | some (_, r) =>
    if r = 0 then some ⟨0x7FFF7F1F, [(4, 2, [(1, 5)]), (14, 8, [(5, 100)]), (19, 16, [(2, 8)]), (30, 24, [(1, 64)])]⟩
    else if r = 4 then identity
    else if r = 8 then some ⟨0xFFFF, [(15, 0, [(1, 0xFFFE)])]⟩
    else if (slotAt 0x100 4 64 r).isSome then plain 0x83FF03FF
    else none
  | none => none

/-- Loaded registers of CVU and DMA. -/
def loadCvu (o : Nat) : Option LoadSpec :=
  match slotAt 0 0x40 4 o, slotAt 0x1000 0x20 16 o with
  | some (_, r), _ =>
    if r = 0 then some ⟨0x3F1F07FF, [(20, 16, ownerCodes), (29, 24, [(1, 32)])]⟩
    else if r = 4 ∨ r = 8 ∨ r = 0xC then plain 0xFFFFFFFF
    else none
  | _, some (_, r) =>
    if r = 0 then some ⟨0x1F7FFF1F, [(1, 0, [(0, 2)]), (9, 8, [(0, 2)]), (15, 10, [(1, 63)]), (28, 24, ownerCodes)]⟩ else none
  | _, _ => none

/-- What the loaded register at an address admits; none where no loaded register stands there. SC_COREn_SCANCFG is loaded
from the pattern header alone (R74). -/
def loadSpec (a : Nat) : Option LoadSpec :=
  match blockAt a with
  | some (.sin, o) => loadSin o
  | some (.sout, o) => loadSout o
  | some (.tmr, o) => loadTmr o
  | some (.alp, o) => loadAlp o
  | some (.csl, o) => loadCsl o
  | some (.csc, o) => loadCsc o
  | some (.cvu, o) => loadCvu o
  | some (.pwr, o) => if o = 0x10 then some ⟨0x1FF, [(8, 0, (List.range 14).map fun i => (270 + 10 * i, 270 + 10 * i))]⟩ else none
  | some (.diag, o) => if o = 0 then some ⟨0xFFF, [(11, 0, [(1, 3600)])]⟩ else none
  | _ => none

/-- A trigger destination index within Table 9-4. -/
def trigOk (v : Word) : Bool :=
  let i := fld v 12 8
  match fld v 2 0 with
  | 0 => i == 0
  | 1 => decide (i < 8)
  | 2 | 5 => decide (i < 16)
  | _ => true

/-- Puts a value into a loaded register of SIN. -/
def putSin (o : Nat) (v : Word) (x : SinS) : SinS :=
  if o = 0x600 then { x with tpCfg := v }
  else match slotAt 0x100 4 32 o, slotAt 0x400 0x10 16 o, slotAt 0x700 4 8 o with
    | some (n, _), _, _ => { x with i := x.i.upd (Fin.ofNat 32 n) fun i => { i with cfg := v } }
    | _, some (k, r), _ => { x with pair := x.pair.upd (Fin.ofNat 16 k) fun p => if r = 0 then { p with cfg := v } else { p with cfg2 := v } }
    | _, _, some (r, _) => { x with slot := x.slot.upd (Fin.ofNat 8 r) fun y => { y with cell := { y.cell with
        valid := bit v 31, input := Fin.ofNat 32 (fld v 4 0), high := bit v 7, filter := BitVec.ofNat 12 (fld v 19 8) } } }
    | _, _, _ => x

/-- Puts a value into a loaded register of SOUT. -/
def putSout (o : Nat) (v : Word) (x : SoutS) : SoutS :=
  if o = 0x200 then { x with pulseCfg := v }
  else match slotAt 0 0x20 16 o with
    | some (k, r) => { x with o := x.o.upd (Fin.ofNat 16 k) fun y =>
        if r = 0 then { y with cfg := v } else if r = 4 then { y with cfg2 := v } else { y with fb := v } }
    | none => x

/-- Puts a value into a loaded register of TMR. -/
def putTmr (o : Nat) (v : Word) (x : TmrS) : TmrS :=
  match slotAt 0 0x40 32 o, slotAt 0x900 0x10 16 o with
  | some (n, r), _ => { x with ch := x.ch.upd (Fin.ofNat 32 n) fun c =>
      if r = 0 then { c with cfg := v } else if r = 4 then { c with trig := v } else if r = 8 then { c with modv := v }
      else if r = 0xC then { c with phase := v } else if r = 0x10 then { c with step := v } else { c with cmp := v } }
  | _, some (g, r) => { x with grp := x.grp.upd (Fin.ofNat 16 g) fun q =>
      if r = 0 then { q with mask := v } else { q with owner := v.truncate 5 } }
  | _, _ => x

/-- Puts a value into a loaded register of ALP. -/
def putAlp (o : Nat) (v : Word) (x : AlpS) : AlpS :=
  match slotAt 0 0x40 8 o with
  | some (n, r) => { x with ch := x.ch.upd (Fin.ofNat 8 n) fun c =>
      if r = 0 then { c with cfg := v } else if r = 4 then { c with win := c.win.upd 0 fun _ => v }
      else if r = 8 then { c with win := c.win.upd 1 fun _ => v } else { c with cfg2 := v } }
  | none => x

/-- Puts a value into a loaded register of CSL. -/
def putCsl (o : Nat) (v : Word) (x : CslS) : CslS :=
  if o = 0x4108 then { x with udpPort := v.truncate 16 }
  else match slotAt 0 0x40 256 o, slotAt 0x4000 8 32 o with
    | some (n, r), _ => { x with s := x.s.upd (Fin.ofNat 256 n) fun y =>
        if r = 0 then { y with cfg := v } else if r = 4 then { y with cfg2 := v } else if r = 8 then { y with cfg3 := v }
        else if r = 0xC then { y with peer := v } else if r = 0x10 then { y with addr := v }
        else if r = 0x14 then { y with addr2 := v } else { y with param := v } }
    | _, some (i, r) => { x with link := x.link.upd (Fin.ofNat 32 i) fun y => if r = 0 then { y with cfg := v } else { y with mask := v } }
    | _, _ => x

/-- Puts a value into a loaded register of one carrier port. -/
def putPort (r : Nat) (v : Word) (y : CscPort) : CscPort :=
  if r = 0 then { y with cfg := v }
  else if r = 4 then { y with skein := v }
  else if r = 8 then { y with conn := v.truncate 16 }
  else { y with grp := y.grp.upd (Fin.ofNat 64 ((r - 0x100) / 4)) fun _ => v }

/-- Puts a value into a loaded register of CSC. -/
def putCsc (o : Nat) (v : Word) (x : CscS) : CscS :=
  match slotAt 0 0x400 4 o with
  | some (p, r) => { x with p := x.p.upd (Fin.ofNat 4 p) (putPort r v) }
  | none => x

/-- Puts a value into a loaded register of CVU or DMA. With FIXED, the algorithm is CRC-32C and its registers read so. -/
def putCvu (o : Nat) (v : Word) (x : CvuS) : CvuS :=
  match slotAt 0 0x40 4 o, slotAt 0x1000 0x20 16 o with
  | some (u, r), _ => { x with u := x.u.upd (Fin.ofNat 4 u) fun y =>
      if r = 0 then { y with cfg := v } else if r = 4 then { y with poly := v } else if r = 8 then { y with init := v }
      else { y with xorout := v } }
  | _, some (d, _) => { x with d := x.d.upd (Fin.ofNat 16 d) fun y => { y with cfg := v } }
  | _, _ => x

/-- Puts a value into the loaded register at an address. -/
def putLoaded (a : Nat) (v : Word) (s : State) : State :=
  match blockAt a with
  | some (.sin, o) => s.onSin (putSin o v)
  | some (.sout, o) => s.onSout (putSout o v)
  | some (.tmr, o) => s.onTmr (putTmr o v)
  | some (.alp, o) => s.onAlp (putAlp o v)
  | some (.csl, o) => s.onCsl (putCsl o v)
  | some (.csc, o) => if cscAbsent s then s else s.onCsc (putCsc o v)
  | some (.cvu, o) => s.onCvu (putCvu o v)
  | some (.pwr, _) => s.onPwr fun p => { p with tensionCfg := v }
  | some (.diag, _) => s.onDiag fun d => { d with cfg := v }
  | _ => s

/-- A TMR_CHn_TRIG value names a destination of Table 9-4. -/
def trigAdmits (a : Nat) (v : Word) : Bool :=
  match blockAt a with
  | some (.tmr, o) => !(decide (o < 0x800) && decide (o % 0x40 = 4)) || trigOk v
  | _ => true

/-- With FIXED set, a unit's registers read back their CRC-32C values only (CVU_Un_CFG). -/
def fixedAdmits (a : Nat) (v : Word) (s : State) : Bool :=
  match blockAt a with
  | some (.cvu, o) =>
    match slotAt 0 0x40 4 o with
    | some (u, r) =>
      let fixed := bit (s.cvu.u.getN u {}).cfg 0
      if r = 0 then !bit v 0 || (bit v 1 && bit v 2 && fld v 29 24 == 32)
      else if r = 4 then !fixed || v == 0x1EDC6F41
      else !fixed || v == 0xFFFFFFFF
    | none => true
  | _ => true

/-- On the TK9640-EN every carrier register reads 0 and ignores writes, so only 0 reads back there (R320, R407). -/
def readsBack (a : Nat) (v : Word) (s : State) : Bool :=
  match blockAt a with
  | some (.csc, _) => !cscAbsent s || v == 0
  | _ => true

/-- One value of a kind-0 record: written and read back, or refused (R407). -/
def loadReg (a : Nat) (v : Word) (s : State) : Option State :=
  match loadSpec a with
  | none => none
  | some l => if l.admits v && trigAdmits a v && fixedAdmits a v s && readsBack a v s then some (putLoaded a v s) else none

/-- The values of a kind-0 record. -/
def loadRegs : Nat → List Word → State → Option State
  | _, [], s => some s
  | a, v :: t, s => (loadReg a v s).bind (loadRegs (a + 4) t)

end Sys2Proof.Machine
end

