-- ==== Sys2Proof/Machine/Image.lean ====
section
/-! DEFINITION. Images (R403 to R408): header, section table, the nine checks of Table 16-5, the parameter records, the
reaction budget (R374 to R376), and the transfer of an image into the memories and registers. -/

namespace Sys2Proof.Machine

/-! ## Layout -/

/-- One entry of the section table (R404). -/
structure Sec where
  /-- Word 0 [7:0]. -/
  ty : Nat
  /-- Word 0 [15:8]. -/
  target : Nat
  /-- Word 1. -/
  off : Nat
  /-- Word 2. -/
  len : Nat
  /-- Word 3. -/
  addr : Nat
  /-- Words 4-11. -/
  hash : List Byte
  deriving DecidableEq, Repr

/-- An image in a flash area. -/
structure Img where
  /-- 0 slot A, 1 slot B, 2 recovery. -/
  area : Nat
  /-- Header words. -/
  hdr : List Word
  /-- Section table. -/
  secs : List Sec
  deriving DecidableEq, Repr

/-- A header word. -/
def Img.w (m : Img) (i : Nat) : Word := m.hdr.getD i 0
/-- Image length in bytes. -/
def Img.len (m : Img) : Nat := (m.w 2).toNat
/-- Bytes of the image from an offset. -/
def Img.bytes (f : Sparse Byte) (m : Img) (off n : Nat) : List Byte := flashRead f ((areaOf m.area).1 + off) n
/-- Bytes of a section. -/
def Img.sec (f : Sparse Byte) (m : Img) (x : Sec) : List Byte := m.bytes f x.off x.len
/-- All bytes of the sections of a type, in table order. -/
def Img.all (f : Sparse Byte) (m : Img) (ty : Nat) : List Byte := (m.secs.filter fun x => x.ty == ty).flatMap (m.sec f)

/-- Check 1: magic, version, lengths, and the section table and signature inside the image. -/
def readImage (f : Sparse Byte) (area : Nat) : Option Img :=
  let a := areaOf area
  let hdr := bytesWords (flashRead f a.1 256)
  let w := fun i => hdr.getD i 0
  let n := fld (w 1) 15 8
  let len := (w 2).toNat
  if w 0 == 0x7E9640A1 && fld (w 1) 7 0 == 1 && fld (w 1) 31 16 == 0x40 && inRange 1 n 32 && decide (len ≤ a.2) &&
     decide (256 + 48 * n + 64 ≤ len) then
    some ⟨area, hdr, (List.range n).map fun i =>
      let e := flashRead f (a.1 + 256 + 48 * i) 48
      let g := fun k => bytesWord ((e.drop (4 * k)).take 4)
      ⟨fld (g 0) 7 0, fld (g 0) 15 8, (g 1).toNat, (g 2).toNat, (g 3).toNat, e.drop 16⟩⟩
  else none

/-- Check 2: the key slot is not revoked and holds the hash of the image's key; in MANUFACTURE the factory key also does. -/
def keyOk (s : State) (m : Img) : Bool :=
  let k := fld (m.w 3) 9 8
  let key := m.bytes s.upd.flash 64 64
  let want := (List.range 8).flatMap fun i => wordBytes (Sparse.get 0 s.otp.shadow (otpAddr 2 (8 * k + i)))
  (!bit s.otp.tap (4 + k) && sha256 key == want) || (s.sys.life == .manufacture && key == Config.factoryKey)

/-- Check 3: the signature over header and section table. -/
def signed (s : State) (m : Img) : Bool :=
  let f := s.upd.flash
  ecdsaOk (m.bytes f 64 64) (m.bytes f (m.len - 64) 64) (sha256 (m.bytes f 0 (256 + 48 * m.secs.length)))

/-- Check 4: security versions against the anti-rollback counters. -/
def versionOk (s : State) (m : Img) : Bool :=
  if m.area = 2 then decide (s.otp.seen.arb 2 ≤ fld (m.w 7) 8 0)
  else decide (s.otp.seen.arb 0 ≤ fld (m.w 6) 8 0) && decide (s.otp.seen.arb 1 ≤ fld (m.w 6) 24 16)

/-! ## Check 5: features -/

/-- Code sizes C of SE0-7, CE0-1 and UC in 4 KiB units. -/
def codeSizes (m : Img) : Tab Byte 11 := Tab.gen 11 fun i =>
  BitVec.ofNat 8 (fld (m.w (9 + i.val / 4)) (8 * (i.val % 4) + 7) (8 * (i.val % 4)))

/-- The engine whose memory a section fills. -/
def Sec.engine (x : Sec) : Option (Fin 24) :=
  match x.ty with
  | 1 => if h : x.target < 4 then some ⟨x.target, by omega⟩ else none
  | 2 => if h : x.target < 8 then some ⟨4 + x.target, by omega⟩ else none
  | 3 => if h : x.target < 2 then some ⟨12 + x.target, by omega⟩ else none
  | 4 => if x.target = 0 then some 14 else none
  | 5 => if x.target = 0 then some 15 else none
  | _ => none

/-- The section lies inside a window of its target (R404, R68); a split core's windows are those of its harts. -/
def secWindow (m : Img) (x : Sec) : Bool :=
  let mm : MemS := { codeSize := codeSizes m }
  match x.engine with
  | some e =>
    if inShared x.addr x.len then true
    else if x.ty = 4 then inData mm e x.addr x.len
    else if x.ty = 1 ∧ bit (m.w 3) (4 + x.target) then
      ([0, 1].any fun h =>
        let e : Fin 24 := Fin.ofNat 24 (16 + 2 * x.target + h)
        within (codeWin mm e) x.addr x.len || inData mm e x.addr x.len)
    else within (codeWin mm e) x.addr x.len || inData mm e x.addr x.len
  | none => x.target == 0 && [0x10, 0x11, 0x12, 0x13].contains x.ty

/-- Two ranges do not meet. -/
def apart (a n b k : Nat) : Bool := decide (a + n ≤ b) || decide (b + k ≤ a)

/-- Two sections overlap neither in the image nor in a memory; the shared window is one memory for every engine. -/
def secsApart (x y : Sec) : Bool :=
  apart x.off x.len y.off y.len &&
    ((x.engine != y.engine && !(inShared x.addr x.len && inShared y.addr y.len)) || x.engine.isNone || y.engine.isNone ||
      apart x.addr x.len y.addr y.len)

/-- A relation holds between every two entries. -/
def pairwise {α : Type} (f : α → α → Bool) : List α → Bool
  | [] => true
  | x :: t => t.all (f x) && pairwise f t

/-- The pattern words of an image. -/
def Img.pattern (f : Sparse Byte) (m : Img) : List Word := bytesWords (m.all f 0x10)

/-- One record of the safety parameter block (R407). -/
structure PRec where
  /-- Header [27:24]. -/
  kind : Nat
  /-- Header [23:0]. -/
  target : Nat
  /-- Body. -/
  body : List Word
  deriving DecidableEq, Repr

/-- The records of a parameter block; none where a record does not fit or its header holds a 1 in [31:28]. -/
def paramRecs : Nat → List Word → Option (List PRec)
  | _, [] => some []
  | 0, _ :: _ => none
  | _ + 1, [_] => none
  | n + 1, h :: l :: t =>
    if fld h 31 28 != 0 || decide (t.length < l.toNat) then none
    else (paramRecs n (t.drop l.toNat)).map (⟨fld h 27 24, fld h 23 0, t.take l.toNat⟩ :: ·)

/-- The parameter records of an image. -/
def Img.params (f : Sparse Byte) (m : Img) : Option (List PRec) :=
  let w := bytesWords (m.all f 0x11)
  paramRecs w.length w

/-- The image assigns group permits to a carrier port: a gate in the pattern, or a configured port (R21). -/
def usesCarrier (pat : List Word) (rs : List PRec) : Bool :=
  fld (pat.getD 3 0) 15 12 != 0 ||
  rs.any fun r => r.kind == 0 && (List.range 4).any fun p =>
    let a := 0x70000 + 0x400 * p
    decide (r.target ≤ a) && bit (r.body.getD ((a - r.target) / 4) 0) 0

/-- Code sizes within the bounds of R68. -/
def sizesOk (m : Img) : Bool :=
  let c := fun i => ((codeSizes m).getN i 0).toNat
  ((List.range 8).all fun i => inRange 1 (c i) 7) && inRange 1 (c 8) 23 && inRange 1 (c 9) 23 && inRange 1 (c 10) 29

/-- Check 5 (R404, R68, R138, R21, R16). -/
def featuresOk (s : State) (m : Img) : Bool :=
  let f := s.upd.flash
  let pat := m.pattern f
  let rs := (m.params f).getD []
  let split := fld (m.w 3) 7 4
  let seeds := ((if m.secs.any fun x => x.ty == 0x13 then Config.budgetSeed (m.all f 0x13) else none).getD [])
  let fn := fun (c : Nat) => bit (pat.getD 3 0) (8 + c) || seeds.any (fun x => x.core.val == c) || rs.any (fun r => r.kind == 1 && r.target == c) ||
    ((List.range 16).any fun k => bit (pat.getD 3 0) (16 + k) && fld (pat.getD 4 0) (2 * k + 1) (2 * k) == c) ||
    ((List.range 4).any fun p => bit (pat.getD 3 0) (12 + p) && fld (pat.getD 5 0) (2 * p + 1) (2 * p) == c)
  (m.secs.all fun x => x.off % 256 == 0 && x.len % 4 == 0 && decide (256 + 48 * m.secs.length ≤ x.off) &&
    decide (x.off + x.len + 64 ≤ m.len) && secWindow m x) &&
  pairwise secsApart m.secs && sizesOk m &&
  (split == 0 || bit s.otp.tap 3) && ((List.range 4).all fun c => !(bit (m.w 3) (4 + c) && fn c)) &&
  !(cscAbsent s && usesCarrier pat rs) &&
  decide ((m.all f 0x10).length ≤ 16384) && (bit (m.w 3) 2 == (m.area == 2))

/-- Check 6: the section hashes. -/
def hashesOk (s : State) (m : Img) : Bool := m.secs.all fun x => sha256 (m.sec s.upd.flash x) == x.hash

/-- The first of checks 1 to 6 that fails, and the image where none does (R408, R424). -/
def firstChecks (s : State) (area : Nat) : Option Img × Nat :=
  match readImage s.upd.flash area with
  | none => (none, 1)
  | some m =>
    let n := if !keyOk s m then 2 else if !signed s m then 3 else if !versionOk s m then 4
      else if !featuresOk s m then 5 else if !hashesOk s m then 6 else 0
    (some m, n)

/-! ## Check 7: the parameter check code (R406) -/

/-- The SC sections in ascending target and then table order. -/
def scSections (m : Img) : List Sec := (List.range 4).flatMap fun c => m.secs.filter fun x => x.ty == 1 && x.target == c

/-- The parameter check code. -/
def checkCode (f : Sparse Byte) (m : Img) : Word :=
  let pat := (m.pattern f).dropLast
  crc32c (m.all f 0x11 ++ (pat.set 2 0).flatMap wordBytes ++ (scSections m).flatMap (m.sec f))

/-- Check 7. -/
def codeOk (s : State) (m : Img) : Bool :=
  (m.pattern s.upd.flash).getD 2 0 == m.w 4 && decide (3 ≤ (m.pattern s.upd.flash).length) && checkCode s.upd.flash m == m.w 4

/-! ## Check 8: parameter records -/

/-- Records of kinds 1 to 4 are well formed, and every hosting core has its kind-1 record (R407). -/
def recsFormed (m : Img) (hosting : Nat → Bool) (rs : List PRec) : Bool :=
  let once := fun (k t : Nat) => decide ((rs.filter fun r => r.kind == k && (k != 1 || r.target == t)).length ≤ 1)
  (rs.all fun r =>
    match r.kind with
    | 0 => true
    | 1 => decide (r.target < 4) && hosting r.target && decide (r.body.length = 4) && once 1 r.target
    | 2 => decide (4 ≤ r.target) && decide (r.target < 24) && decide (r.body.length = 33)
    | 3 => decide (r.body.length = 64) && once 3 0
    | 4 => decide (r.body.length = 32) && once 4 0
    | _ => false) &&
  ((List.range 4).all fun c => !hosting c || rs.any fun r => r.kind == 1 && r.target == c) && m.hdr.length == 64

/-- A kind-1 record into its core: entry addresses and the seed. -/
def putCoreRec (c : Fin 4) (b : List Word) (s : State) : State :=
  let s1 := s.onE (engOf c) fun e =>
    { e with entry := Tab.gen 16 fun t => if t.val < 3 then b.getD t.val 0 else 0
             pc := e.pc.upd 2 fun _ => b.getD 2 0, purlPc := e.purlPc.upd 2 fun _ => ~~~(b.getD 2 0) }
  s1.onC c fun x => { x with seed := b.getD 3 0 }

/-- A kind-2 record into its engine or hart. -/
def putEngRec (e : Fin 24) (b : List Word) (s : State) : State :=
  let w := fun (t : Nat) => b.getD (2 + 2 * t) 0
  s.onE e fun x =>
    { x with
      handler := b.getD 0 0
      entry := Tab.gen 16 fun t => b.getD (1 + 2 * t.val) 0
      trigger := Tab.gen 16 fun t => (w t.val).truncate 8
      slots := maskOf 16 fun t => bit (w t) 8
      budget := Tab.gen 16 fun t => BitVec.ofNat 20 (fld (w t.val) 31 12) }

/-- One parameter record written and read back; none where it does not read back. -/
def putRec (s : State) (r : PRec) : Option State :=
  match r.kind with
  | 0 => loadRegs r.target r.body s
  | 1 => some (putCoreRec (Fin.ofNat 4 r.target) r.body s)
  | 2 => some (putEngRec (Fin.ofNat 24 r.target) r.body s)
  | 3 => some (s.onMem fun m => { m with block := Tab.gen 64 fun b => r.body.getD b.val 0x1F })
  | 4 => some (s.onLink fun l => { l with mbxWriter := Tab.gen 32 fun n => (r.body.getD n.val 0x1F).truncate 5 })
  | _ => none

/-- What the pattern header gives channel A: owners, hosting cores and scan configurations (R14, R74). The recovery image hosts no safety
function (R42). -/
def putHeader (recovery : Bool) (pat : List Word) (s : State) : State :=
  let w := fun i => pat.getD i 0
  let s1 := s.onSout fun x =>
    { x with
      owners := w 4, portOwners := w 5
      used := BitVec.ofNat 16 (fld (w 3) 31 16), ports := BitVec.ofNat 4 (fld (w 3) 15 12)
      hosting := if recovery then 0 else BitVec.ofNat 4 (fld (w 3) 11 8) }
  s1.onEng fun x =>
    { x with c := Tab.gen 4 fun c => { x.c[c] with scanCfg := if !recovery && bit (w 3) (8 + c.val) then w (6 + c.val) &&& 0x3FFFFF else 0 } }

/-- USED of SIN_TP_CFG: sources that some input in use names. -/
def putSources (s : State) : State :=
  s.onSin fun x =>
    let used := maskOf 32 fun b => decide (24 ≤ b) && (List.finRange 32).any fun n => x.i[n].mode != 0 && x.i[n].source + 24 == b
    { x with tpCfg := (x.tpCfg &&& 0x00FFFFFF) ||| used }

/-- Both inputs of a two-input connection have the same filter, equal to that of the mirror cell in the pattern (R191). -/
def filtersAlike (cells : List PatRec) (s : State) : Bool :=
  (List.finRange 16).all fun k =>
    let f := fun (n : Fin 32) => fld s.sin.i[n].cfg 27 16
    !s.sin.pair[k].two || (f (evenIn k) == f (oddIn k) &&
      cells.any fun r => r.ty == 1 && r.ix == (mirrorOf s.sin (evenIn k)).val && fld (r.body.getD 1 0) 11 0 == f (evenIn k))

/-- The cell records of a pattern. -/
def cellsOf (pat : List Word) : List PatRec := (patRecs (fld (pat.getD 1 0) 31 16) (pat.dropLast.drop 16)).getD []

/-- Check 8: every record in order, then the filters. -/
def putParams (m : Img) (s : State) : Option State :=
  let pat := m.pattern s.upd.flash
  match m.params s.upd.flash with
  | none => none
  | some rs =>
    if !recsFormed m (fun c => bit (pat.getD 3 0) (8 + c)) rs then none
    else match rs.foldl (fun (o : Option State) r => o.bind fun s => putRec s r) (some (putHeader (m.area == 2) pat s)) with
      | some s1 => if filtersAlike (cellsOf pat) s1 then some (putSources s1) else none
      | none => none

/-! ## Check 9: the reaction budget (R374 to R376) -/

/-- Terms of one source: filter, evaluation and scan in µs (Table 14-6). -/
def sourceTerms (s : State) (cells : List PatRec) (period delays : Nat) (k : Nat × Nat) : Nat × Nat × Nat :=
  let scan := 2 * period + delays
  match k.1 with
  | 0 =>
    let i := s.sin.i.getN k.2 {}
    let sampling := if i.mode = 1 then 125 * 2 ^ fld i.cfg 3 2 else 0
    let single := (s.sin.pair.getN (k.2 / 2) {}).conn = 1 ∧ i.source < 8
    (10 * fld i.cfg 27 16 + sampling + (if single then 10 * fld s.sin.tpCfg 22 16 + 50 else 0), 20 + delays, scan)
  | 1 => (0, 0, scan)
  | 2 =>
    let w := ((cells.find? fun r => r.ty == 3 && r.ix == k.2).map fun r => r.body.getD 0 0).getD 0
    (2500 + 10 * fld w 27 16, 20 + delays, scan)
  | _ =>
    let l := s.csl.link.getN k.2 {}
    let x := s.csl.s.getN (fld l.cfg 23 16) {}
    (1000 * fld x.cfg2 29 16 + 50, 0, 0)

/-- The entry of one function: its eight words and its total; none where it names no source. -/
def budgetEntry (s : State) (cells : List PatRec) (win : Nat) (f : Config.SeedFn) : Option (RbEntry × Nat) :=
  let period := 50 * (s.eng.c[f.core]).periodU
  let delays := (f.delays.map fun d =>
    ((cells.find? fun r => r.ty == 4 && r.ix == d.val).map fun r => 10 * fld (r.body.getD 3 0) 23 0).getD 0).foldl (· + ·) 0
  let out := if f.outs = 0 then 0 else 150
  let partner := ((List.finRange 4).map fun p =>
    let c := s.csc.p[p].cfg
    if bit f.ports p.val then fld c 19 16 * fld c 14 8 * 10000 + 17480 else 0).foldl max 0
  let total := fun (t : Nat × Nat × Nat) => t.1 + max t.2.1 t.2.2 + max out partner
  let best := f.sources.foldl (fun (o : Option ((Nat × Nat) × Nat × Nat × Nat)) k =>
    let t := sourceTerms s cells period delays k
    match o with
    | some q => if total q.2 < total t then some (k, t) else o
    | none => some (k, t)) none
  best.map fun q =>
    let w := fun (n : Nat) => BitVec.ofNat 32 n
    (⟨#v[at_ f.fn 0 ||| at_ 1 7 ||| at_ f.core.val 8 ||| flag (q.1.1 == 1 || q.1.1 == 3) 10 ||| at_ q.1.1 11 ||| at_ f.outs.toNat 16,
       w q.2.1, w q.2.2.1, w q.2.2.2, w (if q.1.1 = 3 then 0 else (win + 2) * period + 20), w out, at_ partner 0 ||| at_ f.ports.toNat 24, w (total q.2)]⟩,
     total q.2)

/-- Check 9: the table, where every function names a source and every total is the one the tools computed. -/
def putBudget (m : Img) (s : State) : Option State :=
  let f := s.upd.flash
  let pat := m.pattern f
  let cells := cellsOf pat
  let fns := if (m.secs.any fun x => x.ty == 0x13) then Config.budgetSeed (m.all f 0x13) else some []
  match fns with
  | none => none
  | some l =>
    let es := l.map fun x => (x, budgetEntry s cells (fld (pat.getD 3 0) 2 0) x)
    if es.all fun e => match e.2 with | some q => q.2 == e.1.total | none => false then
      some <| s.onDiag fun d =>
        { d with
          rb := es.foldl (fun t e => match e.2 with | some q => t.upd (Fin.ofNat 128 e.1.fn) (fun _ => q.1) | none => t) d.rb
          rbCount := BitVec.ofNat 8 l.length, rbValid := true }
    else none

/-! ## Transfer -/

/-- Writes one section into its engine's memory. -/
def putSection (f : Sparse Byte) (m : Img) (s : State) (x : Sec) : State :=
  match x.engine with
  | some e => s.onMem (writeBytes e x.addr (m.sec f x))
  | none => s

/-- Sections of the carrier engines. -/
def Sec.ce (x : Sec) : Bool := x.ty == 3

/-- PD-CE goes off (Table 1-8): registers and memories of the carrier engines are lost. -/
def ceOff (s : State) : State :=
  ((s.onE 12 fun _ => {}).onE 13 fun _ => {}).onMem fun m =>
    { m with own := (m.own.upd 12 fun _ => []).upd 13 fun _ => [], eccOwn := (m.eccOwn.upd 12 fun _ => []).upd 13 fun _ => [] }

/-- The sections of type `ty` in flash are those that the signature of LOAD covered: each hashes to the hash kept from LOAD (R38,
R408), which takes a flash that answers. -/
def secsIntact (s : State) (m : Img) (ty : Nat) : Bool :=
  let l := m.secs.filter fun x => x.ty == ty
  flashRuns s && (l.map Sec.hash == (s.upd.secs.filter fun x => x.type.toNat == ty).map Loaded.hash) && l.all fun x => sha256 (m.sec s.upd.flash x) == x.hash

/-- The carrier engines are loaded from the running image into wiped memory, checked, and released with their task tables (R33, R38,
R408, R21); where a section fails its hash they stay in reset. -/
def ceLoad (s : State) : State :=
  if cscAbsent s then s
  else match s.upd.running.bind fun a => readImage s.upd.flash a.toNat with
    | some m =>
      if !secsIntact s m 3 then s
      else
        let s1 := (m.secs.filter Sec.ce).foldl (putSection s.upd.flash m) (ceOff s)
        let s2 := ((m.params s.upd.flash).getD []).foldl (fun s r =>
          if r.kind == 2 && (r.target == 12 || r.target == 13) then putEngRec (Fin.ofNat 24 r.target) r.body s else s)
          (unlockOwned 12 (unlockOwned 13 s1))
        (s2.onE 12 fun e => { e with on := true }).onE 13 fun e => { e with on := true }
    | none => s

/-- The image in force: header, hashes, pattern, code sizes, engines released, names of the networks (R38, R408). -/
def putRunning (m : Img) (s : State) : State :=
  let f := s.upd.flash
  let split := fun (c : Nat) => bit (m.w 3) (4 + c)
  let names := Config.netNames (m.all f 0x11 ++ m.all f 0x12)
  let s1 := s.onUpd fun u =>
    { u with
      running := some (BitVec.ofNat 2 m.area), code := m.w 4
      hdr := Tab.gen 64 fun i => m.w i.val
      secs := m.secs.map fun x => ⟨BitVec.ofNat 8 x.ty, BitVec.ofNat 8 x.target, BitVec.ofNat 32 x.addr, BitVec.ofNat 32 x.len, x.hash,
        if 0x10 ≤ x.ty then m.sec f x else []⟩
      pattern := m.pattern f }
  let s2 := s1.onEng fun x =>
    { x with
      e := Tab.gen 24 fun e =>
        if (4 ≤ e.val ∧ e.val < 12) ∨ e.val = 14 ∨ e.val = 15 ∨ (16 ≤ e.val ∧ split ((e.val - 16) / 2)) then
          { x.e[e] with on := true } else x.e[e]
      c := Tab.gen 4 fun c => if split c.val then { x.c[c] with mode := 2 } else x.c[c] }
  let s3 := s2.onCsc fun x => { x with p := Tab.gen 4 fun p =>
    let y := x.p[p]
    { y with
      param := Config.skeinParam ([y.cfg, y.skein, y.conn.zeroExtend 32] ++ y.grp.toList)
      level := BitVec.ofNat 8 (match Config.txLevel (m.all f 0x11) p.val with | some l => 4 + l.val | none => 12) } }
  s3.onLink fun l =>
    { l with
      frameOwner := Tab.gen 4 fun i => names.owner.getD i.val 0x1F
      accept := Tab.gen 2 fun i => names.accept.getD i.val []
      udpPort := Tab.gen 2 fun i => names.port.getD i.val none }

/-- Loads an image: the checks in order on wiped memories, and the device with the image in force; the number of the first
check that fails is given otherwise (R408). -/
def loadImage (area : Nat) (s : State) : State ⊕ Nat :=
  match firstChecks s area with
  | (some m, 0) =>
    let s1 := (m.secs.filter fun x => !x.ce).foldl (putSection s.upd.flash m) (s.onMem fun x => { x with codeSize := codeSizes m })
    if !codeOk s m then .inr 7
    else match putParams m s1 with
      | none => .inr 8
      | some s2 => match putBudget m s2 with
        | none => .inr 9
        | some s3 => .inl (putRunning m s3)
  | (_, n) => .inr n

/-- What UPD_SLOTs shows after a check of an area (R408). -/
def noteSlot (area : Nat) (s : State) : State :=
  let c := firstChecks s area
  s.onUpd fun u => { u with slot := u.slot.upd (Fin.ofNat 3 area) fun x =>
    match c.1 with
    | some m => { x with valid := c.2 == 0, code := m.w 4, version := m.w 8, sv := if area = 2 then m.w 7 else m.w 6 }
    | none => { x with valid := false } }

/-! ## The hashes kept from LOAD (R408) -/

/-- A section that VERIFY and the code rehash look at: a parameter block, or one in the code window of its engine, since code is not
written while the image runs and data is. The boot core's RAM is executable (Table 3-3), so each of its sections counts; carrier
engines count while their domain is on. -/
def codeSection (s : State) (x : Loaded) : Bool :=
  match (⟨x.type.toNat, x.target.toNat, 0, x.len.toNat, x.addr.toNat, []⟩ : Sec).engine with
  | some e => inCode s.mem e x.addr.toNat x.len.toNat && (x.type != 3 || bit s.pwr.domains 3)
  | none => true

/-- A loaded code section still hashes to the hash kept, and none of its words has failing check bits; a parameter block, kept by
the boot core, too. -/
def secOk (s : State) (x : Loaded) : Bool :=
  match (⟨x.type.toNat, x.target.toNat, 0, x.len.toNat, x.addr.toNat, []⟩ : Sec).engine with
  | some e =>
    sha256 (readBytes s.mem e x.addr.toNat x.len.toNat) == x.hash &&
    (s.mem.eccOwn[memOf e]).all fun q => q.2 != some true || apart x.addr.toNat x.len.toNat q.1 4
  | none => sha256 x.data == x.hash

/-- VERIFY and the code rehash: every engine code memory and parameter block against the hashes kept from LOAD (Table 2-4, Table
14-3). -/
def codeIntact (s : State) : Bool := (s.upd.secs.filter (codeSection s)).all (secOk s)

end Sys2Proof.Machine
end

