-- ==== Sys2Proof/Machine/Reeval.lean ====
section
/-! DEFINITION. What ends in SAFE-HOLD or RUN: the conditions of START (R48), entry to RUN (R49), the CROSS step (R39), entry to
SAFE-HOLD after a cast-on (R45), re-evaluation (R52), the swatch (R135 to R137), and a release event (R206 and its like). -/

namespace Sys2Proof.Machine

/-- One release event of slot `r` reaches everything that names the slot (R206, R236, R275, R313, R344). -/
def releaseEvent (r : Fin 8) (s : State) : State := relSkeins r (relOuts r (relLinks r (relAlp r (relConns r s))))

/-! ## What a reset keeps -/

/-- The device held in reset (R459, R6): only PD-AON, the fuses, the flash and what lies outside the device keep their values; the
memories, the key store among them, are wiped by every cast-on (R10). Timebase A is not touched here; channel B counts its cycles
from the release of the reset line (R40). -/
def powerDown (s : State) : State :=
  { t := { s.t with cyc := 0 }
    sys := { cause := s.sys.cause, lastState := s.sys.lastState, lastStage := s.sys.lastStage, castOns := s.sys.castOns }
    pwr :=
      { good := s.pwr.good, aonLost := s.pwr.aonLost, resetN := s.pwr.resetN, vlogicHigh := s.pwr.vlogicHigh
        vf1 := s.pwr.vf1, vf2 := s.pwr.vf2, van := s.pwr.van, vlogicMeas := s.pwr.vlogicMeas, vanMeas := s.pwr.vanMeas
        vf1Meas := s.pwr.vf1Meas, vf2Meas := s.pwr.vf2Meas, tempProc := s.pwr.tempProc, tempHld := s.pwr.tempHld
        wakeCause := s.pwr.wakeCause, refuse := s.pwr.refuse, entries := s.pwr.entries, xtalOk := s.pwr.xtalOk
        pllLock := s.pwr.pllLock, k32Run := s.pwr.k32Run, hldBad := s.pwr.hldBad, wakeOn := s.pwr.wakeOn }
    link := { inc := s.link.inc, ethUp := s.link.ethUp }
    sin := { i := s.sin.i.map fun x => { raw := x.raw }, tp := s.sin.tp.map fun x => { raw := x.raw } }
    sout := { o := s.sout.o.map fun x => { raw := x.raw } }
    diag := { archive := s.diag.archive, archHead := s.diag.archHead }
    otp := { w := s.otp.w, tapN := s.otp.tapN, tapT := s.otp.tapT }
    upd := { flash := (voidTarget s.upd).flash, store := s.upd.store, storeAt := s.upd.storeAt }
    pending := s.pending, fresh := s.fresh }

/-- A reset with its causes (R56, R57): the state and the stage are recorded, and the device is held. -/
def holdReset (causes : BitVec 7) (s : State) : State :=
  powerDown <| s.onSys fun x =>
    { x with cause := x.cause ||| causes, lastState := BitVec.ofNat 4 x.runState.code, lastStage := BitVec.ofNat 4 x.stage.code }

/-- A reset that leaves power-good in force: the cast-on waits for CK-XTAL and PLL lock (R459). -/
def resetDevice (causes : BitVec 7) (s : State) : State := (holdReset causes s).onSys fun x => { x with clockWait := true }

/-- PIN in SYS_RESET_CAUSE (Table 2-5). -/
def causePin : BitVec 7 := 0x04
/-- HOST. -/
def causeHost : BitVec 7 := 0x08
/-- LIFECYCLE. -/
def causeLife : BitVec 7 := 0x10
/-- UPDATE. -/
def causeUpdate : BitVec 7 := 0x20
/-- WAKE_FAIL. -/
def causeWake : BitVec 7 := 0x40

/-- FROG with reason 1 and a cast-on with cause UPDATE (R420 steps 2 and 3). -/
def trialFall (s : State) : State := resetDevice causeUpdate (raise 122 (writeFrog (1 - s.upd.active.toNat % 2) 1 s))

/-- The fall-back of an expired trial that a device fault or a stopped flash clock held up (R420, R34). -/
def fallBack (s : State) : State :=
  if s.sys.fallDue && flashRuns s && (s.sys.runState == .safeHold || s.sys.runState == .service || s.sys.runState == .lockout) then
    trialFall s
  else s

/-! ## START and RUN -/

/-- A device fault is pending in SAFE-HOLD (R48). -/
def faultPending (s : State) : Bool := s.sys.senseHold || s.sys.devPending

/-- The running image is commissioned for its code (R411). -/
def imageCommissioned (s : State) : Bool := s.upd.commissioned == some s.upd.code && s.upd.running.isSome

/-- Life-cycle states in which START and trials are permitted (Table 16-11). -/
def lifeRuns (s : State) : Bool := s.sys.life == .commissioned || s.sys.life == .serviceLocked

/-- HOLD_REASON of the first unmet condition of START (R48); none where all hold. -/
def startUnmet (s : State) : Option Byte :=
  if s.sys.recovery then some 6
  else if s.sys.commitPending then some 4
  else if !lifeRuns s then some 1
  else if !imageCommissioned s then some 2
  else if !s.sys.sealMatch then some 3
  else if faultPending s then some 5
  else none

/-- START of a skein, with the carrier engines loaded first where their domain is off (R33, Table 18-2). Sections that fail their
hash are never released (R38): that is the failed code rehash of Table 14-3, the domain stays off and the skein does not start. -/
def skeinBegin (p : Fin 4) (s : State) : State :=
  if bit s.pwr.domains 3 then skeinStart p s
  else
    let s1 := (ceLoad s).onPwr fun w => { w with domains := setBit (setBit w.domains 3 true) 9 true }
    if s1.eng.e[(12 : Fin 24)].on then skeinStart p s1 else devFault (devRep 0x4B 10 0x0E) s

/-- CSC_CMD START (R328). -/
def cscStart (p : Fin 4) (s : State) : State :=
  if cscAbsent s then s
  else if s.csc.p[p].st = .off && bit s.csc.p[p].cfg 0 then cscResult 0 (skeinBegin p s)
  else cscResult 2 s

/-- Entry to RUN (R49): the holds of channel A lift with channel B's at the next B cycle; at the first entry since cast-on
the health time of a trial starts (R418) and skeins with AUTO_START start (R328); DIV counts from here (R311). -/
def enterRun (cause : Word) (s : State) : State :=
  let first := !s.sys.ranOnce
  let s1 := setRun .run cause <| (s.onSys fun x => { x with ranOnce := true, holdReason := 0 }).onCsl fun c =>
    { c with s := c.s.map fun y => { y with divs := 0 } }
  let s2 := if first && s1.upd.trial && !s1.upd.rule then s1.onUpd fun u => { u with trialTime := some (s.t.tbA, 600) } else s1
  if first && !cscAbsent s then
    each ((List.finRange 4).filter fun p => s2.csc.p[p].st == .off && bit s2.csc.p[p].cfg 0 && bit s2.csc.p[p].cfg 1)
      (fun p s => if s.sys.runState == .run then skeinBegin p s else s) s2
  else s2

/-! ## CROSS -/

/-- Every hosting core starts INIT, which ends its capture locks (R257), and the checks of CROSS count from here (R39, R77,
R168). -/
def startCross (s : State) : State :=
  let s1 := s.onSys fun x => { x with stage := .cross, crossGood := 0, crossCores := 0, crossAt := s.t.cyc }
  armMonitor <| each ((List.finRange 4).filter fun c => bit s.sout.hosting c.val) (fun c s => startInit c (unlockOwned c.val s)) s1

/-- The confirmation sequence starts (R421): its intent with the targets of the running image. -/
def startConfirm (s : State) : State :=
  let w := fun i => s.upd.hdr.getN i 0
  let two := fun (n : Nat) => halfBytes (BitVec.ofNat 16 n)
  let c2 := if s.upd.running = some 2 then fld (w 7) 8 0 else s.otp.arb 2
  s.onUpd fun u => { writeMarker 0x20 (BitVec.ofNat 8 u.active.toNat) u.code
      (two (fld (w 6) 8 0) ++ two (fld (w 6) 24 16) ++ two c2) u with confirming := true, trialTime := none }

/-- SAFE-HOLD at the end of a cast-on (R45): duration, EV0, the cast-on record, quarantine of every connection ID (R303),
a replaced settings record (R426), the trial (R418), and the auto-start flag (Table 2-3). -/
def enterSafeHold (s : State) : State :=
  let s1 := s.onSys fun x =>
    { x with runState := .safeHold, stage := .none, castTime := BitVec.ofNat 32 (s.t.cyc * 10) }
  let s2 := raise 0 <| logPut 2 .counted 0 (s.sys.cause.zeroExtend 16) s1.sys.castTime s1
  let s3 := quarAll (s2.keepRec (.epoch s.csl.epoch))
  let s4 := if s3.upd.newSet then
      logPut 4 .counted 0 0x0020 (match s3.upd.settings with | some q => q.1.zeroExtend 32 | none => 0) <|
        (s3.keepRec (.settings ((s3.upd.hdr.getN 5 0).truncate 16) s3.link.set)).onUpd fun u => { u with newSet := false }
    else s3
  let s5 := if s4.upd.trial then
      s4.onUpd fun u => { u with trialTime := some (s.t.tbA, 86400), rule := !imageCommissioned s4 }
    else if !lifeRuns s4 && onTrial (journal s4.upd) && !s4.sys.recovery then startConfirm s4
    else s4
  match startUnmet s5 with
  | some r => s5.onSys fun x => { x with holdReason := r }
  | none =>
    let s6 := s5.onSys fun x => { x with holdReason := 7 }
    if bit (s6.upd.hdr.getN 3 0) 0 then enterRun 0xF0 s6 else s6

/-- Re-evaluation has passed: SAFE-HOLD (R52), with the test-pulse sources that LOCKOUT had switched off (R476). -/
def endReeval (s : State) : State :=
  let cause : Word := if s.sys.fromService then 4 else 0xF1
  let s1 := s.onSys fun x =>
    { x with stage := .none, reeval := false, fromService := false, result := if x.result = 1 then 0 else x.result
             holdReason := (startUnmet s).getD 7 }
  setRun .safeHold cause (when (s.sys.runState == .lockout && bit s.pwr.domains 7) sourcesOn s1)

/-- CROSS passes when two consecutive exchanges lie within tolerance and every hosting core has delivered an agreeing
record (R39). -/
def crossCheck (s : State) : State :=
  if s.sys.stage == .cross && decide (2 ≤ s.sys.crossGood) && (s.sout.hosting &&& ~~~s.sys.crossCores) == 0 &&
     !s.sys.devPending then
    if s.sys.runState == .castOn then enterSafeHold s else if s.sys.reeval then endReeval s else s
  else s

/-! ## Swatch (R135 to R137) -/

/-- The runs of a swatch in order (Table 5-6): the clean run, as lane 0, then each bit of lanes 1 to 6, on all cores in parallel. Of several cores the lowest comes first (DESIGN CHOICE, log 106). -/
def swatchRuns : List (Fin 4 × Fin 7 × Byte) :=
  (List.finRange 7).flatMap fun lane => (List.range ([1, 37, 68, 33, 48, 24, 32].getD lane.val 0)).flatMap fun b =>
    (List.finRange 4).map fun c => (c, lane, BitVec.ofNat 8 b)

/-- The runs of a swatch that fail. -/
def swatchFails (l : List (Fin 4 × Fin 7 × Byte)) : List (Fin 4 × Fin 7 × Byte) :=
  if l.isEmpty then [] else swatchRuns.filter l.contains

/-- SC_SWATCH and SC_SWATCH_FAIL after a swatch of which `l` are the failed runs, in order. -/
def noteSwatch (l : List (Fin 4 × Fin 7 × Byte)) (s : State) : State :=
  let has := fun (c lane : Nat) => l.any fun x => x.1.val == c && x.2.1.val == lane
  let core := fun (c : Nat) => (List.range 6).foldl (fun w i => w ||| flag (!has c (i + 1)) (8 * c + i)) 0 |||
    flag (!has c 0) (8 * c + 6) ||| at_ 1 (8 * c + 7)
  s.onEng fun x =>
    { x with
      swatch := core 0 ||| core 1 ||| core 2 ||| core 3
      swatchFail := match l with
        | [] => 0
        | (c, lane, b) :: _ => at_ c.val 0 ||| at_ lane.val 2 ||| at_ b.toNat 8 ||| at_ (min 255 l.length) 16 ||| at_ 1 31 }

/-- HALT as the outcome of a stage of Table 2-2. -/
def stageHalt (st : Stage) (s : State) : State :=
  haltEntry 0x50 <| stageReport st <| s.onSys fun x => { x with stage := st }

/-! ## Re-evaluation (Table 2-4) -/

/-- The PATTERN step of re-evaluation in channel B (R177). Both stored codes of line A become HOLD (DEDUCED, log 22). -/
def patternAgain (h : HldS) : HldS :=
  { h.initCells with devFault := false, releaseSeen := false, h := true, line := .hold, linePrev := .hold }

/-- Re-evaluation: VERIFY, SWATCH, PATTERN, then CROSS starts (R52). The processor die stops asserting fault line A. -/
def reevaluate (service : Bool) (env : ReevalEnv) (s : State) : State :=
  let s1 := (s.onSys fun x => { x with reeval := true, fromService := service, stage := .verify, lineA := false }).onHld
    fun h => { h with releaseSeen := false }
  if !codeIntact s1 then devFault (devRep 0x4B 10 0x0E) s1
  else
    let bad := swatchFails env.swatch
    let s2 := noteSwatch bad s1
    if !bad.isEmpty then stageHalt .swatch s2
    else if !(env.storeOk && crcWords s2.hld.store.dropLast == s2.hld.loadCrc) then bFatal 0x10 s2
    else startCross ((s2.onHld patternAgain).onSin slotsFresh)

/-- The cast-on supervisor of channel B (R40): fault line B asserted, HALT. -/
def castonTimeout (s : State) : State := bFatal 0x12 (s.onHld fun h => { h with superOn := false })

end Sys2Proof.Machine
end

