-- ==== Sys2Proof/Machine/ChannelB.lean ====
section
/-! DEFINITION. The commands of channel B (file 06) and of the paths between the channels: the B cycle, scan records, the
timebase exchange, its faults and its report queue. -/

namespace Sys2Proof.Machine

/-! ## The B cycle (R146, Table 6-1) -/

/-- The code fault line A carries, as the processor die drives it (Table 6-5). -/
def drivenCode (s : State) : LineCode :=
  if s.sys.lineA then .asserted else if s.sys.runState == .run then .run else .hold

/-- The code of a wire pattern with `n` transitions per wire and complementary levels (Table 6-5). -/
def wireCode (n : Nat) : LineCode :=
  if 9 ≤ n ∧ n ≤ 11 then .run else if n = 2 ∨ n = 3 then .hold else .asserted

/-- Clock 0: everything channel B latches (R146, R201). -/
def latchB (s : State) : HldS :=
  let h := s.hld
  let lvls : Word := maskOf 32 fun n => if hn : n < 32 then presented s.sin ⟨n, hn⟩ else false
  let rb : Half := maskOf 16 fun k => (s.sout.o.getN k {}).rb
  let src : Byte := maskOf 8 fun j => (s.sin.tp.getN j {}).rb
  let falls := fun (j : Fin 8) => !bit src j.val && h.srcSince[j] != 0
  { h with
    lvls := lvls, rb := rb, srcRb := src
    held := maskOf 32 fun n => if hn : n < 32 then let i := s.sin.i[(⟨n, hn⟩ : Fin 32)]; i.mode == 1 && i.masked else false
    recent := consCap 6 h.lvls h.recent
    srcSince := Tab.gen 8 fun j => if bit src j.val then min 12 (h.srcSince[j] + 1) else 0
    srcWhole := Tab.gen 8 fun j =>
      if falls j then (consCap 6 h.lvls h.recent).take 5 |>.foldl (· &&& ·) 0xFFFFFFFF else h.srcWhole[j]
    srcBefore := Tab.gen 8 fun j => if falls j then (consCap 6 h.lvls h.recent).getD 4 0 else h.srcBefore[j]
    srcSample := Tab.gen 8 fun j => if bit src j.val then h.srcSample[j] else lvls }

/-- Ranks 1-4: release events first, since evaluator cells take the event of the same cycle, then evaluators, windows and
logic cells in ascending index; the reports they raise (R146, R148). -/
def cellsB (cyc : Nat) (comp : Half) (h : HldS) : HldS × List (Byte × Nat) :=
  let rels := Tab.gen 8 fun r =>
    let c := h.rel[r]
    c.tick cyc (bit h.lvls c.input.val)
  let h1 := { h with rel := rels.map Prod.fst }
  let stuck := (List.finRange 8).filterMap fun r => if rels[r].2.1 || rels[r].2.2 then some ((0x21 : Byte), r.val) else none
  let evs := Tab.gen 64 fun e => h1.ev[e].tick h1 cyc
  let h2 := { h1 with ev := evs.map Prod.fst }
  let locks := (List.finRange 64).filterMap fun e => if evs[e].2 then some ((0x20 : Byte), e.val) else none
  let h3 := { h2 with win := Tab.gen 16 fun w => h2.win[w].tick cyc (bit comp w.val) }
  let h4 := (List.finRange 128).foldl (fun h l => { h with lg := h.lg.upd l fun c => c.tick h }) h3
  (h4, stuck ++ locks)

/-- Ranks 5 and 6: output cells and gates, before H of the next clock 0 (R156 to R160). -/
def outsB (h : HldS) : HldS × List (Byte × Nat) :=
  let outs := Tab.gen 16 fun k => h.out[k].tick h k
  let ign := (List.finRange 16).foldl (fun n k => n + outs[k].2.1) 0
  let reps := (List.finRange 16).flatMap fun k => (outs[k].2.2).map fun c => (c, k.val)
  ({ h with
     out := outs.map fun x => x.1
     gate := h.gate.map fun g => { g with e := g.valid && signal h (fld g.w1 8 0) }
     req := Tab.fill 16 []
     ignored := (List.range ign).foldl (fun x _ => satInc x) h.ignored }, reps)

/-- Rank 7, fault line decoding: the code, LINE_A, and the device release of R164. -/
def lineB (code : LineCode) (s : State) : State :=
  let s1 := s.onHld fun h => { h with line := code, linePrev := h.line }
  let s2 := if code == .asserted && !s1.hld.devFault && !s1.hld.fatal then bDevice 0x0B 0 s1 else s1
  let w3 := s2.hld.hdr.getN 3 0
  let c := s2.hld.rel.getN (fld w3 6 4) {}
  if bit w3 7 && c.event && s2.hld.devFault && decide (s2.hld.faultAt < c.lead) then
    s2.onHld fun h => { h with releaseSeen := true }
  else s2

/-- H of the next clock 0 (R162). -/
def holdB (h : HldS) : Bool := !(h.line == .run && h.linePrev == .run && h.patternOk && !h.devFault && !h.fatal)

/-- The owning core of an output has passed its release since a HOLD, which bound the output off (R49). -/
def boundOff (s : State) (k : Fin 16) : Bool :=
  s.sys.holding && bit s.sout.used k.val && bit s.sys.holdPassed (fld s.sout.owners (2 * k.val + 1) (2 * k.val))

/-- The next clock 0: switch B commands, transmit enables and the history entry are applied (R146, R156, R160, R165);
channel A lifts its switch A holds at a boundary at which channel B holds nothing and the device is in RUN, but for outputs that a
HOLD has bound off (R49, R163). -/
def applyB (s : State) : State :=
  let hold := holdB s.hld
  let lifts := !hold && s.sys.runState == .run && (List.finRange 16).any fun k => s.sout.o[k].hold && !boundOff s k
  let s1 := s.onHld fun h =>
    { h with
      h := hold
      out := h.out.map fun c => { c with closed := c.wantB hold }
      gate := h.gate.map fun g => { g with tx := g.valid && g.e && !hold }
      history := consCap 16384 (histEntry h) h.history, histCyc := s.t.cyc + 1 }
  if lifts then energise <| s1.onSout fun x => { x with o := Tab.gen 16 fun k => { x.o[k] with hold := x.o[k].hold && boundOff s k } }
  else s1

/-- Channel A at a toggle of fault line B: each release slot samples its input (R205); an accepted edge is one release
event, which clears what names its slot (R206, R236, R275, R313). -/
def slotA (r : Fin 8) (s : State) : State :=
  let c := s.sin.slot[r].cell
  let (c', stuck, again) := c.tick s.t.cyc (presented s.sin c.input)
  let s1 := s.onSin fun x => { x with slot := x.slot.upd r fun y => { y with cell := c' } }
  let s2 := if stuck || again then report (locRep 0x65 3 (0x200 + r.val)) s1 else s1
  if c'.event then
    releaseEvent r <| raise 11 <| s2.onSin fun x => { x with slot := x.slot.upd r fun y =>
      { y with accepted := s.t.tbA, due := 0xF } }
  else s2

/-- The current limiters and junction sensors as they stand in this cycle (R230, R231); a limit that engages ends a pulse
without a verdict (Table 8-4). -/
def sensorsA (limit hot : Half) (s : State) : State :=
  s.onSout fun x => { x with o := Tab.gen 16 fun k =>
    let o := x.o[k]
    { o with limit := bit limit k.val, hot := bit hot k.val
             limitSince := sinceWhen s.t.tbA (bit limit k.val) o.limitSince
             pulse := if bit limit k.val then o.pulse.map fun p => { p with void := true } else o.pulse } }

/-- Channel A's share of a B cycle: release slots at the toggle of fault line B, the foreign-low checks that fall due, and
the recovery of test-pulse sources (R201, R202, R205). -/
def cycleA (s : State) : State :=
  let s1 := if s.hld.devFault || s.hld.fatal then s else windowsA (each (List.finRange 8) slotA s)
  let s2 := each (List.finRange 8) (fun j s =>
    match s.sin.tp[j].due with
    | some t => if come s t then judgeForeign j t s else s
    | none => s) s1
  trackOuts <| each (List.finRange 8) tpRecover s2

/-- Clock 0 of a B cycle in which a switch B off-pulse begins: its fall time counts from here (R224). -/
def opensA (s : State) : State :=
  s.onSout fun x => { x with o := Tab.gen 16 fun k =>
    let o := x.o[k]
    let c := s.hld.out[k]
    { o with pulse := o.pulse.map fun p => if p.swB && !c.closed && c.p == p.width then { p with start := s.t.tbA, fell := none } else p } }

/-- The evaluation of one B cycle (Table 6-1). -/
def evalB (b : BInputs) (s : State) : State :=
  let h0 := latchB s
  let (h1, r1) := cellsB s.t.cyc (comparators s) h0
  let (h2, r2) := outsB h1
  let s1 := each (r1 ++ r2) (fun q => bReport q.1 q.2) { s with hld := h2 }
  let code := match b.lineA with | some n => wireCode n | none => drivenCode s
  let s2 := lineB code s1
  let s3 := if b.parity then bFatal 0x11 s2 else s2
  let recs := s3.hld.inbox
  let s4 := each recs latchRecord <| s3.onHld fun h => { h with inbox := [] }
  applyB (tbLost (each (List.finRange 4) recordMissing s4))

/-- A B cycle: time passes, channel B evaluates unless it is in load mode or DORMANT, channel A acts on the toggle, a
CROSS that has passed ends, and a device release starts re-evaluation, unless a device fault falls in the same B cycle (R51, R52,
R53, R146). -/
def bCycle (b : BInputs) (s : State) : State :=
  let s1 : State := { s with
    t := { s.t with cyc := s.t.cyc + 1, tbA := if s.t.runA then s.t.tbA + b.ticks.zeroExtend 64 else s.t.tbA }
    sys := { s.sys with devPending := false } }
  if !s.pwr.good || s.sys.runState == .dormant || s.pwr.hldBad then s1
  else if s1.hld.loadMode then
    if s1.hld.superOn && decide (32000 ≤ s1.t.cyc) then castonTimeout s1 else s1
  else
    let s2 := modemsRun <| hlDrain b.cslAgree <| crossCheck <| cycleA <| evalB b <| sensorsA b.limit b.hot <| opensA s1
    if s2.sys.devPending then s2.onHld fun h => { h with releaseSeen := false }
    else if s2.sys.runState == .lockout && s2.hld.releaseSeen && !s2.sys.reeval then reevaluate false b.reeval s2
    else s2

/-- B_CYCLE (R146); a fall-back that was held up is made by then (R420). -/
def execBCycle (b : BInputs) (s : State) : Outc := .next (fallBack (noting (bCycle b) s))

/-! ## Records, exchange, faults -/

/-- SCAN_RECORD (R167): channel B latches a record in the present B cycle. -/
def execScanRecord (w : List Word) (s : State) : Outc := .next (noting (fun s => crossCheck (latchRecord w s)) s)

/-- One exchange: the pair, the deviation, and the comparison on both dies (R27, R171, R473). A toggle of fault line B starts it,
so none takes place while channel B holds a fault (R163). DEV is rounded down and wraps (DESIGN CHOICE, log 128). -/
def exchange (s : State) : State :=
  if !s.t.runA || s.hld.loadMode || !s.pwr.good || s.sys.runState == .dormant || s.hld.devFault || s.hld.fatal then s
  else
    let h := s.hld
    let a := s.t.tbA
    let b := s.t.cyc
    let last := h.pairs.head?
    let s1 := s.onHld fun h =>
      { h with pairs := consCap 129 (a, b) h.pairs, lastExch := b, exchArmed := true, exchCount := satInc h.exchCount
               skipNext := h.skipNext && last.isNone }
    let s2 := match last with
      | none => s1.onSys fun x => { x with crossGood := 1 }
      | some (a0, b0) =>
        let da := (a - a0).toNat
        let db := (b - b0) * 2000
        let diff : Int := (db : Int) - (da : Int)
        let dev : Int := if da = 0 then 0 else diff * 10000 / (da : Int)
        if h.skipNext || da = 0 then s1
        else
          let s2 := s1.onHld fun h => { h with dev := BitVec.ofInt 16 dev }
          if da < diff.natAbs * 100 then
            devFault (devRep 0x49 0 0) <| bDevice 0x09 0 <| s2.onSys fun x => { x with crossGood := 0 }
          else s2.onSys fun x => { x with crossGood := x.crossGood + 1 }
    checkHeld s2

/-- A 1 ms boundary of timebase A has passed since the exchange before (R171). -/
def exchangeDue (s : State) : Bool :=
  match s.hld.pairs.head? with
  | some (a, _) => decide (a.toNat / 200000 < s.t.tbA.toNat / 200000)
  | none => true

/-- TIMEBASE_EXCHANGE (R171). -/
def execTimebaseExchange (s : State) : Outc :=
  .next (if exchangeDue s then noting (fun s => crossCheck (exchange s)) s else s)

/-- TB_LOST (R171). -/
def execTbLost (s : State) : Outc := .next (noting tbLost s)

/-- RECORD_MISSING (R168). -/
def execRecordMissing (c : Fin 4) (s : State) : Outc := .next (noting (recordMissing c) s)

/-- Neither die runs: no power-good, or a reset as if it were absent (R459, R479), or DORMANT. -/
def diesDown (s : State) : Bool := !s.pwr.good || s.pwr.resetN || s.sys.clockWait || s.sys.runState == .dormant

/-- LINE_B (R163): channel A sees no toggle for 15 µs, in whatever state. -/
def execLineB (s : State) : Outc :=
  .next (noting (fun s =>
    if diesDown s then s
    else devFault (devRep 0x48 0 0) s) s)

/-- OFF_PULSE_REQUEST (R157): a request reaches channel B, which latches it at the next clock 0. -/
def execOffPulseRequest (k : Fin 16) (w : Nat) (s : State) : Outc := .next (askB k w s)

/-- PATTERN_READBACK (R178): a pass that does not reproduce the CRC of loading is PATTERN_CORRUPT. The stored
configuration is read as it stands; `ok` is false where a read of the store went wrong. -/
def execPatternReadback (ok : Bool) (s : State) : Outc :=
  .next (if s.hld.loadMode || s.sys.runState == .dormant || !s.pwr.good then s
    else if ok && crcWords s.hld.store.dropLast == s.hld.loadCrc then s
    else noting (bFatal 0x10) s)

/-- REPORT_QUEUE_DRAIN (R180, R196): the reports enter the row counter table, and DISCREPANCY reports reach the connections
whose mirror cell they name. -/
def execReportQueueDrain (s : State) : Outc :=
  .next (noting (fun s =>
    each s.hld.queue (fun q s => if q.code == 0x20 then mirrorReport q.cell.toNat s else s) (drainB s)) s)

/-- CASTON_TIMEOUT (R40). -/
def execCastonTimeout (s : State) : Outc := .next (if s.hld.superOn && s.pwr.good && decide (32000 ≤ s.t.cyc) then noting castonTimeout s else s)

/-- The maximum of the CROSS step of re-evaluation in B cycles: 2 ms, or two of the longest scan periods and 0.2 ms if longer
(Table 2-4). -/
def crossMax (h : HldS) : Nat :=
  max 200 (2 * 5 * (List.finRange 4).foldl (fun m c => if hosts h c then max m (scanPeriod h c) else m) 0 + 20)

/-- CROSS_LATE (R52): the CROSS step of re-evaluation has not passed by its maximum. -/
def execCrossLate (s : State) : Outc :=
  .next (if s.sys.reeval && decide (s.sys.crossAt + crossMax s.hld ≤ s.t.cyc) then noting (devFault (devRep 0x4C 15 7)) s else s)

end Sys2Proof.Machine
end

