-- ==== Sys2Proof/Machine/Inputs.lean ====
section
/-! DEFINITION. The commands of the safe inputs, test pulses, release inputs and counting inputs (file 07). A row that the
spec times is the outside's word that its moment has come; it has no effect where the state does not await it. -/

namespace Sys2Proof.Machine

/-- PD-FDIG is on and checked, so readbacks and levels are presented (R516). -/
def fdigUp (s : State) : Bool := bit s.pwr.domains 7 && !s.sin.checking

/-- LOCKOUT or HALT: outputs and test-pulse sources are off (Table 0-4, R476). -/
def stopped (s : State) : Bool := s.sys.runState == .lockout || s.sys.runState == .halt

/-- The field digital electronics run and are checked, so inputs are sampled (R17, R516). -/
def fdigRuns (s : State) : Bool := fdigUp s && s.pwr.good && s.sys.runState != .dormant

/-- Presents a sampled level of input `n`, unless the input is forced (R184, R188); what changed inside a test mask is looked
at again at the first sample outside it (R189). -/
def sample (n : Fin 32) (lvl : Bool) (s : State) : State :=
  let i := s.sin.i[n]
  let s1 := s.onI n fun i => { i with raw := lvl, sampled := lvl }
  if i.masked && !inMask s.sin n then
    let l := if i.forced then i.present else lvl
    when (i.present != l) (captureEdge (0x20 + n.val) (!l)) (s1.onI n fun i => i.relook l s.t.tbA)
  else if i.forced then s1
  else presentEdge n lvl s1

/-- INPUT_EDGE (R183, R184): the level at a CONTINUOUS input's terminal changes and is presented; a PULSED input presents it
at its next sample point, an input in OFF mode never, and while PD-FDIG is off or under check none is presented (R516). -/
def execInputEdge (n : Fin 32) (lvl : Bool) (s : State) : Outc :=
  .next (if fdigRuns s && s.sin.i[n].mode == 2 then noting (sample n lvl) s else s.onI n fun i => { i with raw := lvl })

/-- A sampling window of input `n` opens now, with its sample point after the settle delay (R184). -/
def InA.window (now : DWord) (i : InA) : InA :=
  { i with win := some (now, i.settleDelay), sampleAt := some (now + BitVec.ofNat 64 (usec i.settleDelay.toNat)) }

/-- A match of TMR29 opens the windows of the PULSED inputs whose sampling period begins with it: every match, every second or every
fourth (R184, R258). -/
def openWindows (s : State) : State :=
  let k := s.t.tbA.toNat / 25000
  if fdigRuns s then s.onSin fun x =>
    { x with i := x.i.map fun i => if i.mode == 1 && k % 2 ^ fld i.cfg 3 2 == 0 then i.window s.t.tbA else i }
  else s

/-- One sample of a PULSED input: presented if the terminal has settled by its sample point; the settle time counts in either case
(R187). -/
def takeSample (n : Fin 32) (lvl : Bool) (t : Nat) (s : State) : State :=
  settle n t (if t ≤ s.sin.i[n].settleDelay.toNat then sample n lvl s else s)

/-- SAMPLE_POINT (R184, R187, R200): the sample point of the window inside the test mask, or else that of the latest periodic window,
has come. A periodic sample point that falls inside the mask is skipped. -/
def execSamplePoint (n : Fin 32) (lvl : Bool) (t : Nat) (s : State) : Outc :=
  let here := fun (d : Option DWord) => match d with | some x => come s x | none => false
  .next (if !fdigRuns s || s.sin.i[n].mode != 1 then s
    else if here s.sin.i[n].testAt then noting (fun s => takeSample n lvl t (s.onI n fun i => { i with testAt := none })) s
    else if here s.sin.i[n].sampleAt then
      noting (fun s =>
        let s1 := s.onI n fun i => { i with sampleAt := none }
        if inMask s.sin n then s1 else takeSample n lvl t s1) s
    else s)

/-- SETTLE_GAP (R187): the settle time of a CONTINUOUS input after a gap of its sink, once every 100 ms. -/
def execSettleGap (n : Fin 32) (t : Nat) (s : State) : Outc :=
  let due := match s.sin.i[n].gapAt with | some g => past s g 100000 | none => true
  .next (if !fdigRuns s || s.sin.i[n].mode != 2 || !due then s
    else noting (fun s => settle n t (s.onI n fun i => { i with gapAt := some s.t.tbA })) s)

/-- A presented level that has held for F is counted by channel B's evaluator cells that read input `n` (R149): the cells whose filter
count has reached F evaluate. -/
def countB (n : Fin 32) (s : State) : State :=
  let h := { s.hld with
    srcSince := Tab.gen 8 fun j => if s.hld.srcSince[j] ≤ 5 then 0 else 12
    held := maskOf 32 fun m => m != n.val || bit s.hld.held m }
  let ready := fun (c : EvCell) =>
    c.inA == n.val && c.a.n != 0 && decide (c.filter ≤ c.a.n) || c.conn != 0 && c.inB == n.val && c.b.n != 0 && decide (c.filter ≤ c.b.n)
  let evs := Tab.gen 64 fun e => if h.ev[e].valid && ready h.ev[e] then (h.ev[e]).tick h s.t.cyc else (h.ev[e], false)
  let s1 := s.onHld fun h => { h with ev := evs.map fun x => x.1 }
  each ((List.finRange 64).filter fun e => evs[e].2) (fun e => bReport 0x20 e.val) s1

/-- The presented level of input `n` runs through the filter of channel A and has held for F, the time in a test mask not counted
(R189, R200). -/
def elapsedA (s : State) (n : Fin 32) : Bool :=
  let i := s.sin.i[n]
  i.running && !inMask s.sin n && !i.masked && past s i.countFrom (10 * fld i.cfg 27 16)

/-- The other input of a two-input connection whose change has also held for F and is to be counted first: the earlier change, and of
two at the same time the move to the safe side (R193). -/
def countsFirst (s : State) (n : Fin 32) : Option (Fin 32) :=
  let p := s.sin.pair[pairOf n]
  let m := if n.val % 2 == 1 then evenIn (pairOf n) else oddIn (pairOf n)
  let d := (s.sin.i[n].edge - s.sin.i[m].edge).toNat
  let toEn := fun (k : Fin 32) => enSide s.sin k s.sin.i[k].present
  if p.two && elapsedA s m && (d != 0 && decide (d < 2 ^ 63) || d == 0 && toEn n && !toEn m) then some m else none

/-- A change of input `n` is counted in channel A, after one of its connection that comes first (R189, R193). -/
def countsA (n : Fin 32) (s : State) : State :=
  countA n (match countsFirst s n with | some m => countA m s | none => s)

/-- FILTER_ELAPSED (R189): a presented level has held for F in one channel. -/
def execFilterElapsed (ch : Chan) (n : Fin 32) (s : State) : Outc :=
  .next (match ch with
    | .a => if elapsedA s n then noting (countsA n) s else s
    | .b => if s.hld.loadMode || s.sys.runState == .dormant then s else countB n s)

/-- DISCREPANCY_TIMEOUT (R195): channel A's time passes e1 + T with no change of the other input counted or running that began by
then. The spec gives no d for such a check, so the recorded d is a free value. -/
def discTimeout (k : Fin 16) (s : State) : State :=
  let p := s.sin.pair[k]
  let c := p.lo
  let o := s.sin.i[if c.firstB then evenIn k else oddIn k]
  let pend := o.running && decide ((c.e1 + BitVec.ofNat 64 p.disc - o.edge).toNat < 2 ^ 63)
  if p.two && come s c.e1 && decide (p.disc < since s c.e1) && (c.st == .waitOn || c.st == .waitOff) && !c.locked && !pend then
    let (n, s1) := s.takeFree
    let d := (Config.freeWord n).toNat % 2 ^ 24
    let s2 := s1.onPair k fun p =>
      { p with d01 := BitVec.ofNat 16 (min (d / 100) 0xFFFF)
               lastd := at_ d 0 ||| flag true 24 ||| flag (c.st == .waitOff) 27 }
    onConn (evenIn k) (fun c => { c with unclassed := true }) (discLock (evenIn k) s2)
  else s

/-- DISCREPANCY_TIMEOUT (R195). -/
def execDiscrepancyTimeout (k : Fin 16) (s : State) : Outc := .next (noting (discTimeout k) s)

/-- GUARD_DELAY_END (R196): the delayed enable rises, unless a move to the safe side has cancelled it. -/
def execGuardDelayEnd (k : Fin 16) (s : State) : Outc :=
  .next (if past s s.sin.pair[k].lo.guardAt 100 then
      noting (onConn (evenIn k) fun c => { c with guardPend := false, guardRun := false }) s
    else s)

/-- BAND_WAIT_END (R197): with no report of the mirror cell the lockout becomes a band lockout, else it is ordinary. -/
def execBandWaitEnd (k : Fin 16) (s : State) : Outc :=
  .next (noting (fun s =>
    noteSafe (evenIn k) <| onConn (evenIn k) (fun c =>
      if c.bandWait && past s c.bandAt 100 then { c with bandWait := false, band := !c.reported } else c) s) s)

/-- CLEAR_DECISION (R198): channel A decides on every connection of the pair. -/
def execClearDecision (k : Fin 16) (s : State) : Outc :=
  .next (noting (each (pairConns s.sin k) clearDecide) s)

/-- RELEASE_STUCK (R151, R205): an active release input has reached 300 000 B cycles in one channel. -/
def execReleaseStuck (ch : Chan) (r : Fin 8) (s : State) : Outc :=
  .next (match ch with
    | .a =>
      if s.sin.slot[r].cell.st == .active && decide (300000 ≤ s.sin.slot[r].cell.n) then
        report (locRep 0x65 3 (0x200 + r.val)) <| s.onSin fun x =>
          { x with slot := x.slot.upd r fun y => { y with cell := { y.cell with st := .stuck } } }
      else s
    | .b =>
      if s.hld.rel[r].st == .active && decide (300000 ≤ s.hld.rel[r].n) then
        bReport 0x21 r.val <| s.onHld fun h => { h with rel := h.rel.upd r fun c => { c with st := .stuck } }
      else s)

/-- A stuck release cell that has been inactive for 50 000 B cycles is idle again (Table 6-3). -/
def RelCell.recovered (c : RelCell) : RelCell := if c.st == .recover && decide (50000 ≤ c.m) then { c with st := .idle } else c

/-- RECOVER_END (R151, R205): a stuck release input has been inactive for 50 000 B cycles in one channel. -/
def execRecoverEnd (ch : Chan) (r : Fin 8) (s : State) : Outc :=
  .next (match ch with
    | .a => s.onSin fun x => { x with slot := x.slot.upd r fun y => { y with cell := y.cell.recovered } }
    | .b => s.onHld fun h => { h with rel := h.rel.upd r RelCell.recovered })

/-- Width W of the test pulses in µs (R199). -/
def tpWidth (s : SinS) : Nat := 10 * fld s.tpCfg 22 16

/-- The low pulse of source `j` begins at its stagger match (R199), with the window of each PULSED input of its own 20 µs before the
pulse ends (R200); a source that no input uses stays low, and so do all in LOCKOUT and HALT (R476). -/
def testPulseStart (j : Fin 8) (s : State) : State :=
  if bit s.sin.tpCfg (24 + j.val) && fdigRuns s && !stopped s then
    let at_ := s.t.tbA + BitVec.ofNat 64 (usec (tpWidth s.sin - 20))
    each (srcInputs s.sin j) (fun n s => s.onI n fun i =>
        if i.mode == 1 then
          { i with testAt := some at_, testWin := some (at_ - BitVec.ofNat 64 (usec i.settleDelay.toNat), i.settleDelay) }
        else i) <|
      followTp j <| s.onTp j fun x => { x with drive := false, pulseAt := s.t.tbA }
  else s

/-- TEST_PULSE_END (R199): the width has passed, and the source drives high again. -/
def execTestPulseEnd (j : Fin 8) (s : State) : Outc :=
  .next (if bit s.sin.tpCfg (24 + j.val) && !s.sin.tp[j].drive && !stopped s && past s s.sin.tp[j].pulseAt (tpWidth s.sin) then
      followTp j (s.onTp j fun x => { x with drive := true })
    else s)

/-- The filter of an input goes on after `d` ticks in a test mask (R200). -/
def InA.resume (d : DWord) (i : InA) : InA := if i.running then { i with countFrom := i.countFrom + d } else i

/-- The end of a source's test mask (R189, R200): what ran through the filter goes on, a CONTINUOUS input whose level changed within
the mask is looked at again now, a PULSED one at its next sample. -/
def maskEnd (j : Fin 8) (s : State) : State :=
  let d := s.t.tbA - s.sin.tp[j].maskAt
  each (srcInputs s.sin j) (fun n s => s.onI n fun i =>
    let i := i.resume d
    if i.masked && i.mode == 2 then i.relook i.present s.t.tbA else i) <|
    s.onTp j fun x => { x with mask := false }

/-- TEST_MASK_END (R200): 50 µs after the rising edge of the readback. -/
def execTestMaskEnd (j : Fin 8) (s : State) : Outc :=
  .next (if s.sin.tp[j].rb && past s s.sin.tp[j].rbAt 50 then noting (maskEnd j) s else s)

/-- A source presents a readback (R200, R201): one that falls starts the mask, one that rises has its inputs judged. -/
def tpPresent (j : Fin 8) (lvl : Bool) (s : State) : State :=
  if s.sin.tp[j].rb == lvl then s else followTp j (if lvl then judgeOwn j s else maskStart j s)

/-- TP_READBACK_EDGE (R200, R201, R516): the readback stage of a source changes, and presents its level while PD-FDIG is on and
checked. -/
def execTpReadbackEdge (j : Fin 8) (lvl : Bool) (s : State) : Outc :=
  .next (let s1 := s.onTp j fun x => { x with raw := lvl }
    if fdigUp s then noting (tpPresent j lvl) s1 else s1)

/-- TP_SOURCE (R202): a readback has differed from its command for more than 30 µs. -/
def execTpSource (j : Fin 8) (s : State) : Outc :=
  .next (if tpDiffers s j && !s.sin.tp[j].cond then noting (tpSourceFault j) s else s)

/-- CNT_EDGE (R209, R254): a rising edge on a counting input counts, and reaches the timer channels that capture it. -/
def execCntEdge (n : Fin 4) (s : State) : Outc :=
  .next (if !fdigRuns s then s
    else captureEdge (1 + n.val) false <| s.onSin fun x => { x with cnt := x.cnt.upd n fun c => { count := c.count + 1, edge := s.t.tbA.truncate 32 } })

/-- WINDOW_FILTER_ELAPSED (R153): a comparator level has held for the entry or leave filter of its cell. -/
def execWindowFilterElapsed (w : Fin 16) (s : State) : Outc :=
  .next (if s.hld.loadMode || s.sys.runState == .dormant then s
    else s.onHld fun h => { h with win := h.win.upd w fun c =>
      let x := bit (comparators s) w.val ^^ bit c.w1 31
      if c.valid && x != c.f.lvl && decide ((if x then fld c.w1 11 0 else fld c.w1 27 16) ≤ c.f.n) then
        { c with f := { c.f with lvl := x, n := 0, primed := true, edge := s.t.cyc } }
      else c })

/-- A delay cell whose count reaches T with this evaluation. -/
def delayDone (h : HldS) (c : LogCell) : LogCell :=
  let x := c.input h 0
  let t := fld c.w4 23 0
  if c.c + 1 < t then c
  else if c.valid && fld c.w1 3 0 == 3 && x then { c with c := t, out := true }
  else if c.valid && fld c.w1 3 0 == 4 && !x then { c with c := t, out := false }
  else c

/-- DELAY_ELAPSED (R154): the count of an ON_DELAY or OFF_DELAY cell has reached T. -/
def execDelayElapsed (l : Fin 128) (s : State) : Outc :=
  .next (if s.hld.loadMode || s.sys.runState == .dormant then s
    else s.onHld fun h => { h with lg := h.lg.upd l (delayDone h) })

end Sys2Proof.Machine
end

