-- ==== Sys2Proof/Machine/Outputs.lean ====
section
/-! DEFINITION. The commands of the safe outputs (file 08) and of the switch test (R373). -/

namespace Sys2Proof.Machine

/-- The presented readback of an output changes: the edge is timed (R219), a pulse in progress records its fall (R224), and the
channels that capture it take it (R254). -/
def readbackA (k : Fin 16) (lvl : Bool) (s : State) : State :=
  if s.sout.o[k].rb == lvl then s
  else captureEdge (0x40 + k.val) (!lvl) <| s.onO k fun o =>
    { o with
      rb := lvl, rbAt := s.t.tbA
      pulse := o.pulse.map fun p => { p with fell := if lvl then none else p.fell.or (some s.t.tbA) } }

/-- DIAG_SWTEST after a completed switch test (Table 14-5). -/
def testVerdict (k : Fin 16) (ok : Bool) (s : State) : State :=
  s.onDiag fun d => { d with tested := setBit d.tested k.val true, passed := setBit d.passed k.val ok }

/-- The readback stage of an output changes; its level is presented while PD-FDIG is on and checked (R219, R516). -/
def readbackRaw (k : Fin 16) (lvl : Bool) (s : State) : State :=
  let s1 := s.onO k fun o => { o with raw := lvl }
  if fdigUp s then readbackA k lvl s1 else s1

/-- READBACK_EDGE (R219, R224, R373, R516): the readback changes; a switch test that sees it high opens switch A and fails. -/
def execReadbackEdge (k : Fin 16) (lvl : Bool) (s : State) : Outc :=
  .next (noting (fun s =>
    let s1 := readbackRaw k lvl s
    let s2 := if (s1.sout.o[k]).rb && s.sout.o[k].test then
        outFault 0x6C .switchTest k <| testVerdict k false <| s1.onO k fun o => { o with test := false }
      else s1
    trackOuts s2) s)

/-- OFF_PULSE_END (R224, R226, R227): the pulse ends and is judged. -/
def execOffPulseEnd (k : Fin 16) (s : State) : Outc := .next (noting (fun s => trackOuts (endPulse k s)) s)

/-- READBACK_DELAY_ELAPSED (R220, R227): a switch has been open for the readback delay; a high readback of a configured
output is watched through one period. -/
def execReadbackDelayElapsed (k : Fin 16) (s : State) : Outc :=
  .next (noting (fun s =>
    let o := s.sout.o[k]
    let open_ := match o.openSince with | some t => past s t (10 * fld o.cfg2 26 16) | none => false
    if bit o.cfg 0 && open_ && o.pulse.isNone && o.rb && !o.watch &&
        !o.causes.any (fun c => c.1 == .externalFeed || c.1 == .crossConnect) && !o.test then
      if (List.finRange 16).any fun b => b != k && cmdEnergised s b then
        s.onO k fun o => { o with watch := true, watchAt := s.t.tbA }
      else feedFault k none s
    else s) s)

/-- LOCATE_WATCH_END (R227): the readback of a watched output has stayed high for the whole period. -/
def execLocateWatchEnd (k : Fin 16) (s : State) : Outc :=
  .next (noting (fun s =>
    if s.sout.o[k].watch && come s s.sout.o[k].watchAt && decide (pulsePeriod s.sout ≤ since s s.sout.o[k].watchAt) then
      if s.sout.o[k].rb && decide ((s.sout.o[k].watchAt - s.sout.o[k].rbAt).toNat < 2 ^ 63) then feedFault k none s
      else s.onO k fun o => { o with watch := false }
    else s) s)

/-- FEED_ISOLATION_STEP (R228): 1 ms after the step before, the second switch B request, then the lockout of the partner and of its
bind-off set. -/
def execFeedIsolationStep (k : Fin 16) (s : State) : Outc :=
  .next (noting (fun s =>
    match s.sout.o[k].isol with
    | none => s
    | some i =>
      if !past s i.at_ 1000 then s
      else if 0 < i.reqs then
        (askBoth k s).onO k fun o =>
          { o with isol := if i.partner.isSome then some { i with reqs := i.reqs - 1, at_ := s.t.tbA } else none }
      else
        let s1 := s.onO k fun o => { o with isol := none }
        match i.partner with
        | some b => bindOff b none (lockOut b .crossConnect k s1)
        | none => s1) s)

/-- OUT_LOW (R220): a commanded-energised output without a pulse or limit has read low for more than 2 ms. -/
def execOutLow (k : Fin 16) (s : State) : Outc :=
  .next (noting (fun s =>
    let o := s.sout.o[k]
    let long := match o.lowSince with | some t => past s t 2000 | none => false
    if cmdEnergised s k && o.pulse.isNone && !o.limit && !o.rb && long then outFault 0x6A .outLow k s else s) s)

/-- OVERLOAD (R217, R230): the limiter has been active for longer than the overload time. -/
def execOverload (k : Fin 16) (s : State) : Outc :=
  .next (noting (fun s =>
    let o := s.sout.o[k]
    let long := match o.limitSince with | some t => past s t (1000 * fld o.cfg 22 16) | none => false
    if bit o.cfg 0 && o.limit && long then outFault 0x68 .overload k s else s) s)

/-- OVERTEMP (R231): a junction has reached 170 °C; a thermal opening of switch B is no channel B fault. -/
def execOvertemp (k : Fin 16) (switchB : Bool) (s : State) : Outc :=
  .next (noting (fun s =>
    if bit s.sout.o[k].cfg 0 then
      outFault 0x69 .overtemp k <| (if switchB then readbackRaw k false s else s).onO k fun o => { o with hot := true }
    else s) s)

/-- FEEDBACK (R233): the feedback input misses its expected value within the feedback time, or leaves it later. Channel A does not
evaluate in DORMANT (R32). -/
def execFeedback (k : Fin 16) (s : State) : Outc :=
  .next (noting (fun s =>
    if feedbackBad s k && s.sys.runState != .dormant then outFault 0x6B .feedback k s else s) (trackOuts s))

/-- BANK_SUPPLY (R218): the report and the lockout of every output of the bank. -/
def bankFail (n : Fin 2) (s : State) : State :=
  let s1 := s.onSout fun x => { x with bankCond := x.bankCond.upd n fun _ => true }
  let s2 := report (grpRep 0x92 5 n.val) s1
  each ((List.finRange 16).filter fun k => bankOf k == n) (fun k s =>
    if bit s.sout.o[k].cfg 0 then addCause k .bankSupply k s else s) s2

/-- BANK_SUPPLY (R218). -/
def execBankSupply (n : Fin 2) (s : State) : Outc := .next (noting (bankFail n) s)

/-- BANK_SUPPLY_END (R218). -/
def execBankSupplyEnd (n : Fin 2) (s : State) : Outc :=
  .next (s.onSout fun x => { x with bankCond := x.bankCond.upd n fun _ => false })

/-- An output is in its safe state, and its readback has been low for the readback delay (R372, Table 14-5 step 1). -/
def testable (s : State) (k : Fin 16) : Bool :=
  let own := s.sout.owners
  let c := fld own (2 * k.val + 1) (2 * k.val)
  let rec_ := (s.eng.c.getN c {}).sealedDemand
  let o := s.sout.o[k]
  bit o.cfg 0 && !bit rec_ k.val && !s.hld.out[k].d && !o.rb && past s o.rbAt (10 * fld o.cfg2 26 16)

/-- DIAG_CMD SWITCH_TEST (R372, R373, Table 14-5): switch A of one output closes alone. -/
def switchTest (k : Fin 16) (s : State) : State :=
  let rs := s.sys.runState
  if !(rs == .safeHold || rs == .run || rs == .service) then s.onDiag fun d => { d with result := 3 }
  else if s.sout.o.any fun o => o.test then s.onDiag fun d => { d with result := 1 }
  else if !(both s.sout k).all (testable s) then
    report (cntRep 0xAA 4 (outSrc k)) <| s.onDiag fun d => { d with result := 2 }
  else driveA <| (s.onO k fun o => { o with test := true, testAt := s.t.tbA }).onDiag fun d => { d with result := 1 }

/-- SWITCH_TEST_END (R373, Table 14-5 step 4): 5 ms after switch A closed with the readback low throughout, it opens with the verdict.
A test that ended earlier has none to give. -/
def execSwitchTestEnd (k : Fin 16) (s : State) : Outc :=
  .next (noting (fun s =>
    if s.sout.o[k].test && past s s.sout.o[k].testAt 5000 then
      driveA (testVerdict k true (s.onO k fun o => { o with test := false }))
    else s) s)

end Sys2Proof.Machine
end

