-- ==== Sys2Proof/Machine/Timers.lean ====
section
/-! DEFINITION. The commands of the timers (file 09) and of DMA requests that triggers make. -/

namespace Sys2Proof.Machine

/-- How far timebase A has passed the slot of the match now in CMP, in ticks (R259). -/
def slotLate (n : Fin 32) (s : State) : Nat :=
  let m := modulus s.tmr n
  (countAt s.tmr s.t.tbA n + (m - cmpNow n s % m)) % m * 2 ^ fld s.tmr.ch[n].cfg 7 4

/-- A reserved stagger channel, whose matches the field firmware handles and times (R243, R259). -/
def stagger (n : Fin 32) : Bool := n.val == 30 || n.val == 31

/-- The slot of the match now in CMP has come, and the next one not yet (R259). -/
def slotCome (n : Fin 32) (s : State) : Bool :=
  let c := s.tmr.ch[n]
  decide (slotLate n s < (if c.step = 0 then modulus s.tmr n else c.step.toNat) * 2 ^ fld c.cfg 7 4)

/-- What the field firmware does at a match of a reserved stagger channel (R258, R259): TMR29 opens the sampling windows, TMR30 starts
a test pulse, TMR31 opens an off-pulse slot; a match of the last two handled more than 10 µs late is TIMER_SLIP. -/
def staggerMatch (n : Fin 32) (i : Nat) (late : Nat) (s : State) : State :=
  if n.val == 29 then openWindows s
  else if !stagger n then s
  else if usec 10 < late then devFault (devRep 0x44 12 n.val) s
  else if n.val == 30 then testPulseStart (Fin.ofNat 8 i) s
  else outSlot (if i % 2 == 0 then Fin.ofNat 16 (i / 2) else Fin.ofNat 16 (8 + (i - 1) / 2)) s

/-- The counter of channel `n`, or the pair it governs, advances in this tick to the CMP in force at its start, armed then, all 64 bits of
it on a pair (R248, R250). -/
def matches_ (n : Fin 32) (s : State) : Bool :=
  let x := s.tmr
  let c := x.ch[n]
  c.mode != 0 && c.run && (c.cmpIn s.t.tbA).2 && !oddHalf x n && advances x s.t.tbA n && countAt x s.t.tbA n == cmpNow n s &&
    c.cmpAt != some s.t.tbA

/-- A match of TMR30 or TMR31 is due for the field firmware: it is armed and its slot has come (R259). -/
def staggerDue (n : Fin 32) (s : State) : Bool :=
  let c := s.tmr.ch[n]
  stagger n && c.mode == 2 && c.run && (c.cmpIn s.t.tbA).2 && slotCome n s && c.cmpAt != some s.t.tbA

/-- A compare match (R250): CMPF, auto-advance, event, trigger for the next tick, and the event tasks it triggers. A match of TMR30 and
TMR31 stands here with its handling, which may be late (R259). -/
def compareMatch (n : Fin 32) (s : State) : State :=
  let c := s.tmr.ch[n]
  if !(if stagger n then staggerDue n s else matches_ n s) then s
  else
    let i := if c.step = 0 then 0 else cmpNow n s / c.step.toNat
    let late := slotLate n s
    let s1 := advanceCmp n <| s.onTc n fun c => { c with cmpf := true, cmpAt := some s.t.tbA }
    let s2 := trigger (BitVec.ofNat 8 (0x80 + n.val)) <| tmrEvent n 26 s1
    let dest := (fld c.trig 2 0, fld c.trig 12 8, s.t.tbA)
    let s3 := s2.onTmr fun x =>
      { x with trigQ := if dest.1 = 0 || x.trigQ.contains dest then x.trigQ else x.trigQ ++ [dest] }
    staggerMatch n i late s3

/-- TIMER_COMPARE (R250). -/
def execTimerCompare (n : Fin 32) (s : State) : Outc := .next (noting (fun s => trackOuts (compareMatch n s)) s)

/-- TIMER_WRAP (R240, R247): the counter advances from MOD − 1 to 0 in this tick, in a linked pair the half that `n` names. -/
def execTimerWrap (n : Fin 32) (s : State) : Outc :=
  let v := countAt s.tmr s.t.tbA n
  let zero := if linked s.tmr n && n.val % 2 == 0 then v % 2 ^ 32 == 0 else v == 0
  .next (if advances s.tmr s.t.tbA n && zero then tmrEvent n 27 <| s.onTc n fun c => { c with wrapf := true } else s)

/-- A trigger acts on its destination (Table 9-4). -/
def actTrigger (k i : Nat) (s : State) : State :=
  match k with
  | 1 => convTrigger (Fin.ofNat 8 i) s
  | 2 => if fld s.cvu.d[(Fin.ofNat 16 i)].cfg 9 8 = 1 then dmaRequest (Fin.ofNat 16 i) s else s
  | 3 => startCh (Fin.ofNat 32 i) s
  | 4 => captureAs (Fin.ofNat 32 i) false (countAt s.tmr s.t.tbA (Fin.ofNat 32 i)) s
  | 5 => if s.tmr.grp[Fin.ofNat 16 i].owner == 0x19 then snapGroup (Fin.ofNat 16 i) s else s
  | 6 => stopCh (Fin.ofNat 32 i) s
  | _ => s

/-- TIMER_TRIGGER (R252): the earliest trigger issued acts, in a tick after the one that issued it. -/
def execTimerTrigger (s : State) : Outc :=
  .next (match s.tmr.trigQ with
    | [] => s
    | (k, i, t) :: q => if come s t && t != s.t.tbA then noting (actTrigger k i) (s.onTmr fun x => { x with trigQ := q }) else s)

/-- CAPTURE (R254 to R256). -/
def execCapture (n : Fin 32) (falling : Bool) (s : State) : Outc := .next (captureOn n falling s)

/-- TIMER_SLIP (R259): an expected reserved stagger match has not occurred 10 µs after its slot time. -/
def execTimerSlip (n : Fin 32) (s : State) : Outc :=
  .next (if staggerDue n s && decide (usec 10 < slotLate n s) then
      noting (devFault (devRep 0x44 12 n.val)) s
    else s)

/-- The RESULT of a TMR_CMD. -/
def tmrResult (r : BitVec 2) (s : State) : State := s.onTmr fun x => { x with result := r }

/-- Only the host's START and STOP act, and only on a channel it owns (Table 9-1); every other is refused with RESULT 1. -/
def hostTmr (src : Src) (n : Fin 32) (s : State) : Bool := srcCode src == 0x18 && tmrOwner s.tmr n == 0x18

/-- TMR_CMD START from a source (R241, R242). RESULT 2 sets no ERR (DESIGN CHOICE, log 133). -/
def tmrStart (src : Src) (n : Fin 32) (s : State) : State :=
  let c := s.tmr.ch[govern s.tmr n]
  if !hostTmr src n s then tmrResult 1 s
  else if c.mode == 1 && !c.run then tmrResult 0 (startCh n s)
  else tmrResult 2 s

/-- TMR_CMD START. -/
def execTmrCmdStart (n : Fin 32) (s : State) : Outc := .next (fromHost (tmrStart .host n) s)

/-- TMR_CMD STOP from a source (R241, R242). RESULT 2 sets no ERR (DESIGN CHOICE, log 133). -/
def tmrStop (src : Src) (n : Fin 32) (s : State) : State :=
  let c := s.tmr.ch[govern s.tmr n]
  if !hostTmr src n s then tmrResult 1 s
  else if c.mode == 1 && c.run then tmrResult 0 (stopCh n s)
  else tmrResult 2 s

/-- TMR_CMD STOP. -/
def execTmrCmdStop (n : Fin 32) (s : State) : Outc := .next (fromHost (tmrStop .host n) s)

/-- TMR_CMD SNAP from a source (R242, R245). -/
def tmrSnap (src : Src) (g : Fin 16) (s : State) : State :=
  if s.tmr.grp[g].owner.toNat == srcCode src then tmrResult 0 (snapGroup g s) else tmrResult 1 s

/-- TMR_CMD SNAP. -/
def execTmrCmdSnap (g : Fin 16) (s : State) : Outc := .next (fromHost (tmrSnap .host g) s)

/-- A write of CMP takes effect from the owner only (R242, R251). -/
def ownCmp (src : Src) (n : Fin 32) (v : Word) (s : State) : State :=
  if tmrOwner s.tmr n == srcCode src then writeCmp n v s else s

/-- TMR_CMP_WRITE (R251). -/
def execTmrCmpWrite (n : Fin 32) (v : Word) (s : State) : Outc := .next (fromHost (ownCmp .host n v) s)

/-- A write of COUNT: ignored with ERR while the channel runs, whoever writes; the owner sets a stopped FREE channel, from the next tick on (R242,
R244, Table 9-3). -/
def ownCount (src : Src) (n : Fin 32) (v : Word) (s : State) : State :=
  let g := govern s.tmr n
  if s.tmr.ch[g].run then s.onTc n fun c => { c with err := true }
  else if tmrOwner s.tmr n != srcCode src then s
  else if s.tmr.ch[g].mode != 1 then s
  else s.onTc g fun c =>
    { c with
      count := if !linked s.tmr n then v.zeroExtend 64
        else if n.val % 2 == 0 then (c.count.extractLsb' 32 32 : Word) ++ v else v ++ (c.count.truncate 32 : Word)
      countWas := some (s.t.tbA, c.countIn s.t.tbA)
      sync := edgesKept s.tmr s.t.tbA true g }

/-- TMR_COUNT_WRITE (R244). -/
def execTmrCountWrite (n : Fin 32) (v : Word) (s : State) : Outc := .next (fromHost (ownCount .host n v) s)

end Sys2Proof.Machine
end

