-- ==== Sys2Proof/Machine/Analog.lean ====
section
/-! DEFINITION. The commands of the current-loop channels, their gauge, trims and modems (file 10). -/

namespace Sys2Proof.Machine

/-- ALP_CONVERSION (R264, R265, R273, R278): a conversion of a loop current in nA completes. A field trim corrects the converter of
an input channel and the setpoint of an output channel (R279). -/
def execAlpConversion (n : Fin 8) (nA : Nat) (s : State) : Outc :=
  .next (let c := s.alp.ch[n]
    if c.mode == 0 || !alpClock s || c.gaugeRun || !(bit c.cfg 3 || c.conv) then s
    else noting (fun s =>
      let raw := codeOf nA
      let s1 := s.onA n fun c => { c with code := if c.mode == 3 then raw else trimmed c raw, seq := c.seq + 1, stale := false, conv := false, convAt := s.t.tbA }
      let s2 := s1.onAlp fun x =>
        if x.armed == some n && x.avg.isSome then { x with sum := (x.sum.1 + raw.toNat, x.sum.2 + 1) } else x
      let s3 := mismatchCheck n s2
      if bit c.cfg 16 then raise (80 + n.val) s3 else s3) s)

/-- Three conversion windows of a free-running channel in µs (R264, R265). -/
def staleAfter (c : AlpCh) : Nat := if bit c.cfg 2 then 15000 else 750

/-- ALP_STALE (R265): no conversion has completed for three windows, or for three periods of the timer that triggers the channel. -/
def execAlpStale (n : Fin 8) (s : State) : Outc :=
  .next (s.onA n fun c =>
    if c.mode == 0 || (bit c.cfg 3 && !past s c.convAt (staleAfter c)) then c else { c with stale := true })

/-- GAUGE_POINT (R277): the 12.000 mA point, as converted, in nA. It takes the place of one loop conversion, a triggered one among
them. -/
def execGaugePoint (n : Fin 8) (nA : Nat) (s : State) : Outc :=
  .next (if s.alp.ch[n].mode == 0 || !alpClock s then s
    else noting (fun s =>
      let c := s.alp.ch[n]
      let bad := decide (nA + 24000 < 12000000) || decide (12024000 < nA)
      let ok := if bad then 0 else min 10 (c.driftOk + 1)
      let s1 := s.onA n fun c =>
        { c with driftOk := ok, drift := if bad then true else if ok == 10 then false else c.drift, conv := false }
      if bad && !c.drift then alpFault .gaugeDrift n s1 else s1) s)

/-- COMPARATOR_CHANGE (R270): the filtered loop current of a channel stands at `nA`, and its comparators follow. -/
def execComparatorChange (n : Fin 8) (nA : Nat) (s : State) : Outc :=
  .next (noting (fun s => s.onA n fun c =>
    { c with cmp := maskOf 2 fun k => if h : k < 2 then comparatorStep c ⟨k, h⟩ nA else false }) s)

/-- Owner of an analog channel as the writer of its setpoint. -/
def alpOwns (c : AlpCh) (src : Src) : Bool :=
  match src with
  | .host => fld c.cfg 15 12 == 8
  | .engine e => decide (fld c.cfg 15 12 < 8) && e.val == 4 + fld c.cfg 15 12
  | _ => false

/-- A setpoint write takes effect from the owner of an OUT channel only (R266). -/
def writeSet (src : Src) (n : Fin 8) (v : Half) (s : State) : State :=
  let c := s.alp.ch[n]
  if c.mode == 3 && alpOwns c src then s.onA n fun c => { c with set := v, timedOut := false, setAt := s.t.tbA } else s

/-- SETPOINT_WRITE (R266). -/
def execSetpointWrite (src : Src) (n : Fin 8) (v : Half) (s : State) : Outc := .next (fromSrc src (noting (writeSet src n v)) s)

/-- SETPOINT_TIMEOUT (R266): the setpoint has not been written for 100 ms. -/
def execSetpointTimeout (n : Fin 8) (s : State) : Outc :=
  .next (s.onA n fun c => if c.mode == 3 && past s c.setAt 100000 then { c with timedOut := true } else c)

/-- COMPLIANCE_LOW (R267): the headroom, measured in 0.1 V, has stood at `room` for 5 ms; below 2.0 V the fault is raised. -/
def execComplianceLow (n : Fin 8) (room : Byte) (s : State) : Outc :=
  .next (if s.alp.ch[n].mode == 3 && fanOn s then
      noting (fun s =>
        let was := s.alp.ch[n].compliance
        let low := decide (room.toNat < 20)
        let s1 := s.onA n fun c => { c with compliance := c.compliance || low, headroom := room }
        if was || !low then s1 else alpFault .complianceLow n s1) s
    else s)

/-- COMPLIANCE_END (R267): the headroom has stood at `room` for 1 s; at 2.5 V or more the condition ends. -/
def execComplianceEnd (n : Fin 8) (room : Byte) (s : State) : Outc :=
  .next (s.onA n fun c =>
    if c.mode == 3 then { c with compliance := c.compliance && decide (room.toNat < 25), headroom := room } else c)

/-- OPEN_LOOP (R268): the check runs only while the setpoint is 1 mA or more. -/
def execOpenLoop (n : Fin 8) (s : State) : Outc :=
  .next (if s.alp.ch[n].mode == 3 && fanOn s && (codeOf 1000000).ule (setInForce s n) then
      noting (fun s =>
        let was := s.alp.ch[n].openLoop
        let s1 := s.onA n fun c => { c with openLoop := true }
        if was then s1 else alpFault .openLoop n s1) s
    else s)

/-- OPEN_LOOP_END (R268). -/
def execOpenLoopEnd (n : Fin 8) (s : State) : Outc := .next (s.onA n fun c => { c with openLoop := false })

/-- LOOP_SHORT (R269): the loop supply starts cycling with its off time. -/
def execLoopShort (n : Fin 8) (s : State) : Outc :=
  .next (if s.alp.ch[n].mode == 1 && fanOn s then
      noting (fun s =>
        let was := s.alp.ch[n].short
        let s1 := s.onA n fun c => if c.short then c else { c with short := true, supplyOff := true, supplyAt := s.t.tbA }
        if was then s1 else alpFault .loopShort n s1) s
    else s)

/-- LOOP_SHORT_CYCLE (R269): an off time of 1 s ends, or an on time of 50 ms ends with the current `nA`. -/
def execLoopShortCycle (n : Fin 8) (nA : Nat) (s : State) : Outc :=
  .next (s.onA n fun c =>
    if !c.short || !past s c.supplyAt (if c.supplyOff then 1000000 else 50000) then c
    else if c.supplyOff then { c with supplyOff := false, supplyAt := s.t.tbA }
    else if nA < 25000000 then { c with short := false }
    else { c with supplyOff := true, supplyAt := s.t.tbA })

/-- VAN_LOW on every channel not in OFF (R283). -/
def vanLowAll (s : State) : State :=
  each (List.finRange 8) (fun n s =>
    let c := s.alp.ch[n]
    if c.mode == 0 || c.vanLow then s
    else alpFault .vanLow n (s.onA n fun c => { c with vanLow := true })) s

/-- VAN_LOW (R283). -/
def execVanLow (s : State) : Outc := .next (noting vanLowAll s)

/-- VAN_LOW_END (R283). -/
def execVanLowEnd (s : State) : Outc :=
  .next (s.onAlp fun x => { x with ch := x.ch.map fun c => { c with vanLow := false } })

/-! ## Gauge test (R276) -/

/-- The RESULT of an ALP_CMD. -/
def alpResult (r : BitVec 4) (s : State) : State := s.onAlp fun x => { x with result := r }

/-- Every affected output is demanded off by both channels and every affected port is withdrawn (R276). -/
def affectedSafe (s : State) (n : Fin 8) : Bool :=
  let w := s.alp.ch[n].cfg2
  ((List.finRange 16).all fun k => !bit w k.val || (!s.sout.o[k].demand && !s.hld.out[k].d)) &&
  ((List.finRange 4).all fun p => !bit w (16 + p.val) ||
    ((s.eng.c.all fun c => c.sealedPermit[p] == 0) && !s.hld.gate[p].e))

/-- ALP_CMD GAUGE_TEST (R276, R372). Without PD-FAN it is refused likewise (DESIGN CHOICE, log 135). -/
def gaugeTest (n : Fin 8) (s : State) : State :=
  let c := s.alp.ch[n]
  if c.mode == 0 then alpResult 5 s
  else if c.gaugeRun then alpResult 1 s
  else if !affectedSafe s n || !alpClock s then report (cntRep 0xAA 6 n.val) (alpResult 2 s)
  else alpResult 1 (s.onA n fun c => { c with gaugeRun := true, gaugeAt := s.t.tbA })

/-- GAUGE_TEST (R276). -/
def execGaugeTest (n : Fin 8) (s : State) : Outc := .next (fromHost (noting (gaugeTest n)) s)

/-- A gauge test passes on a channel (R276): each point within 24 µA of its expected code, and each comparator used switching within
0.1 mA of LO and HI. -/
def gaugePasses (m : GaugeMeas) (c : AlpCh) : Bool :=
  let near := fun (d : Option Int) => match d with | some d => decide (d.natAbs ≤ 100000) | none => false
  decide (m.d4.natAbs ≤ 24000) && decide (m.d20.natAbs ≤ 24000) &&
  (!bit c.win[0] 31 || (near m.lo.1 && near m.hi.1)) && (!bit c.win[1] 31 || (near m.lo.2 && near m.hi.2))

/-- The end of a gauge test (R276). -/
def gaugeEnd (n : Fin 8) (m : GaugeMeas) (s : State) : State :=
  if !s.alp.ch[n].gaugeRun then s
  else
    let ok := gaugePasses m s.alp.ch[n]
    let s1 := (s.onA n fun c =>
      { c with gaugeRun := false, gaugeOk := ok, gaugeBad := !ok, passed := c.passed || ok }).onAlp fun x =>
        { x with result := if x.result == 1 && x.avg.isNone then 0 else x.result }
    if ok then s1 else alpFault .gaugeFail n s1

/-- GAUGE_TEST_END (R276): the test lasts 20 ms. -/
def execGaugeTestEnd (n : Fin 8) (m : GaugeMeas) (s : State) : Outc :=
  .next (if past s s.alp.ch[n].gaugeAt 20000 && alpClock s then noting (gaugeEnd n m) s else s)

/-- PD-FAN may be on: from the start of LOAD, outside DORMANT, while VAN is present (Table 18-2). -/
def fanMay (s : State) : Bool :=
  s.pwr.good && !s.pwr.resetN && !s.sys.clockWait && s.pwr.van && s.sys.runState != .dormant &&
    (s.sys.runState != .castOn || s.sys.stage == .load || s.sys.stage == .pattern || s.sys.stage == .cross)

/-- PD_FAN_RETURN (R276, R461): PD-FAN powers up, and the gauge test runs on every channel not in OFF; the channels are forced until
it passes. -/
def execPdFanReturn (s : State) : Outc :=
  .next (noting (fun s =>
    if !fanMay s || fanOn s then s
    else (s.onPwr fun p => { p with domains := setBit p.domains 8 true }).onAlp fun x =>
      { x with ch := x.ch.map fun c => if c.mode == 0 then c else { c with gaugeRun := true, gaugeAt := s.t.tbA, passed := false } }) s)

/-! ## Trims (R278, R279) -/

/-- TRIM_ARM (R278, R372). An output channel then drives 4.000 mA. -/
def trimArm (n : Fin 8) (s : State) : State :=
  if s.sys.runState != .service then alpResult 3 s
  else if s.alp.avg.isSome then alpResult 1 s
  else if s.alp.ch[n].mode == 0 then alpResult 5 s
  else alpResult 0 (s.onAlp fun x => { x with armed := some n, drive := false })

/-- A counted activation of ZERO or SPAN, by a button or a command, for the armed input channel: the averaging second
starts (R278, R279). -/
def trimStart (span : Bool) (s : State) : State :=
  if s.alp.avg.isSome then alpResult 1 s
  else match s.alp.armed with
  | none => alpResult 3 s
  | some n =>
    if s.sys.runState != .service then alpResult 3 s
    else if s.alp.ch[n].mode == 1 || s.alp.ch[n].mode == 2 then
      alpResult 1 (s.onAlp fun x => { x with avg := some span, avgAt := s.t.tbA, sum := (0, 0) })
    else alpResult 5 s

/-- A button's activation; outside SERVICE it is ignored and logged as TRIM_REFUSED (R278), and so are both buttons of one
evaluation (R487). -/
def trimButton (span : Bool) (s0 : State) : State :=
  let refused := report (cntRep 0xA9 6 (match s0.alp.armed with | some n => n.val | none => 0))
  let s := s0.onAlp fun x => { x with pressed := some (span, s0.t.tbA, x.result) }
  match s0.alp.pressed with
  | some (b, t, r) =>
    if b != span && t == s.t.tbA then refused (bothPressed b t r s)
    else if s.sys.runState != .service then refused s else trimStart span s
  | none => if s.sys.runState != .service then refused s else trimStart span s
where
  /-- The first of two buttons of one evaluation is not taken either: what it started ends, and the armed trim stays (R487). -/
  bothPressed (b : Bool) (t : DWord) (r : BitVec 4) (s : State) : State :=
    if s.sys.runState == .service && s.alp.avg == some b && s.alp.avgAt == t then
      s.onAlp fun x => { x with avg := none, sum := (0, 0), result := r }
    else s

/-- ZERO_ACTIVATION (R487). -/
def execZeroActivation (s : State) : Outc := .next (trimButton false s)

/-- SPAN_ACTIVATION (R487). -/
def execSpanActivation (s : State) : Outc := .next (trimButton true s)

/-- TRIM_ARM (R278). -/
def execTrimArm (n : Fin 8) (s : State) : Outc := .next (fromHost (trimArm n) s)

/-- A trim command of channel `n`; it acts for the channel a trim is armed for. -/
def trimCmd (span : Bool) (n : Fin 8) (s : State) : State :=
  if s.sys.runState == .service && s.alp.avg.isNone && s.alp.armed != some n then alpResult 3 s else trimStart span s

/-- TRIM_ZERO (R278). -/
def execTrimZero (n : Fin 8) (s : State) : Outc := .next (fromHost (trimCmd false n) s)

/-- TRIM_SPAN (R278). -/
def execTrimSpan (n : Fin 8) (s : State) : Outc := .next (fromHost (trimCmd true n) s)

/-- The settings store holds the trim of a channel (Table 16-10). -/
def keepTrim (n : Fin 8) (s : State) : State :=
  s.keepRec (.trims (s.upd.trims.upd n fun _ => at_ s.alp.ch[n].zero.toNat 0 ||| at_ s.alp.ch[n].gain.toNat 16))

/-- A trim point of channel `n` is stored with its own CRC in the settings store and logged (R279). The arithmetic of the
fields is a free value of the point. -/
def trimStore (span : Bool) (point : Nat) (n : Fin 8) (s : State) : State :=
  logPut 3 .counted 6 0 (at_ n.val 0) <| keepTrim n <| s.onA n fun c =>
    if span then { c with gain := Config.trimGain point } else { c with zero := Config.trimZero point, gain := if c.gain = 0 then 0x8000 else c.gain }

/-- The range check of a trim point in nA (R279). -/
def trimInRange (span : Bool) (nA : Nat) : Bool :=
  if span then decide (19600000 ≤ nA) && decide (nA ≤ 20400000) else decide (3800000 ≤ nA) && decide (nA ≤ 4200000)

/-- TRIM_AVERAGE_END (R278, R279): the averaging second ends. A second without a conversion has no point in range. -/
def execTrimAverageEnd (s : State) : Outc :=
  .next (match s.alp.avg, s.alp.armed with
    | some span, some n =>
      if !past s s.alp.avgAt 1000000 then s
      else
      let c := s.alp.sum.1 / s.alp.sum.2
      let s1 := s.onAlp fun x => { x with avg := none, sum := (0, 0) }
      if s.alp.sum.2 != 0 && trimInRange span (c * 24000000 / 65536) then alpResult 0 (trimStore span c n s1)
      else alpResult 4 s1
    | _, _ => s)

/-- TRIM_CLEAR (R279). -/
def trimClear (n : Fin 8) (s : State) : State :=
  if s.sys.runState != .service then alpResult 3 s
  else if s.alp.avg.isSome then alpResult 1 s
  else alpResult 0 <| logPut 3 .counted 6 0 (at_ n.val 0) <| keepTrim n <| s.onA n fun c => { c with zero := 0, gain := 0 }

/-- TRIM_CLEAR (R279). -/
def execTrimClear (n : Fin 8) (s : State) : Outc := .next (fromHost (trimClear n) s)

/-- TRIM_OUT_ZERO and TRIM_OUT_SPAN (R278): the measured output current in µA. After an accepted point the channel drives 20.000 mA,
the point that is next. -/
def trimOut (span : Bool) (n : Fin 8) (v : Half) (s : State) : State :=
  if s.sys.runState != .service then alpResult 3 s
  else if s.alp.avg.isSome then alpResult 1 s
  else if s.alp.armed != some n then alpResult 3 s
  else if s.alp.ch[n].mode != 3 then alpResult 5 s
  else if trimInRange span (v.toNat * 1000) then
    alpResult 0 (trimStore span (codeOf (v.toNat * 1000)).toNat n (s.onAlp fun x => { x with drive := true }))
  else alpResult 4 s

/-- TRIM_OUT_ZERO (R278). -/
def execTrimOutZero (n : Fin 8) (v : Half) (s : State) : Outc := .next (fromHost (trimOut false n v) s)

/-- TRIM_OUT_SPAN (R278). -/
def execTrimOutSpan (n : Fin 8) (v : Half) (s : State) : Outc := .next (fromHost (trimOut true n v) s)

/-! ## Modems (R280, R281, R285) -/

/-- MODEM_RX_CHAR (R281, R285): a character arrives, with its parity and framing errors. -/
def execModemRxChar (n : Fin 8) (c : Byte) (parity framing : Bool) (s : State) : Outc :=
  .next (let x := s.alp.ch[n]
    if !bit x.cfg 5 || x.mode == 0 || !alpClock s then s
    else if x.txOn || decide (16 ≤ x.rx.length) then s.onA n fun y => { y with dropped := satInc y.dropped }
    else raise (88 + n.val) <| s.onA n fun y =>
      { y with
        rx := y.rx ++ [setBit (setBit (c.zeroExtend 10) 8 parity) 9 framing]
        errors := if parity || framing then satInc y.errors else y.errors })

/-- A character enters the transmit FIFO, or is lost to a full one (R281). -/
def modemTx (n : Fin 8) (c : Byte) (s : State) : State :=
  s.onA n fun y =>
    if y.tx.length < 16 then { y with tx := y.tx ++ [c], txAt := if y.tx.isEmpty then s.t.tbA else y.txAt }
    else { y with txOvf := true }

/-- MODEM_TX_CHAR (R281). -/
def execModemTxChar (n : Fin 8) (c : Byte) (s : State) : Outc :=
  .next (if bit s.alp.ch[n].cfg 5 then modemTx n c s else s)

/-- The head of the receive FIFO as its port word, and its removal (Table 10-8). -/
def modemRead (n : Fin 8) (s : State) : Word × State :=
  match s.alp.ch[n].rx with
  | [] => (0, s)
  | c :: q => (at_ (c.toNat % 256) 0 ||| flag true 8 ||| flag (bit c 8) 9 ||| flag (bit c 9) 10, s.onA n fun y => { y with rx := q })

/-- MODEM_RX_READ (R284). -/
def execModemRxRead (n : Fin 8) (s : State) : Outc :=
  .next ((modemRead n s).2.onLink fun l => { l with rdata := [(modemRead n s).1] })

/-- The control port of a modem (Table 10-8). A flush that empties the transmit FIFO raises its event (R285). -/
def modemControl (n : Fin 8) (carrier flushRx flushTx : Bool) (s : State) : State :=
  let s1 := s.onA n fun y =>
    { y with
      txOn := carrier, rx := if flushRx then [] else y.rx, tx := if flushTx then [] else y.tx
      txAt := if carrier && !y.txOn then s.t.tbA else y.txAt }
  if flushTx && !s.alp.ch[n].tx.isEmpty then raise (88 + n.val) s1 else s1

/-- MODEM_CARRIER (R284). -/
def execModemCarrier (n : Fin 8) (on : Bool) (s : State) : Outc := .next (modemControl n on false false s)

/-- MODEM_FLUSH_RX (R284). -/
def execModemFlushRx (n : Fin 8) (s : State) : Outc := .next (modemControl n s.alp.ch[n].txOn true false s)

/-- MODEM_FLUSH_TX (R284). -/
def execModemFlushTx (n : Fin 8) (s : State) : Outc := .next (modemControl n s.alp.ch[n].txOn false true s)

/-- MODEM_TX_EMPTY (R280, R285): the time of the last character has passed, and the transmit FIFO is empty. -/
def execModemTxEmpty (n : Fin 8) (s : State) : Outc :=
  .next (let c := s.alp.ch[n]
    if bit c.cfg 5 && alpClock s && !c.tx.isEmpty && decide (c.tx.length ≤ charsSent s c) then
      raise (88 + n.val) (s.onA n fun y => { y with tx := [] })
    else s)

/-- MODEM_CARRIER_DETECT (R285). -/
def execModemCarrierDetect (n : Fin 8) (cd : Bool) (s : State) : Outc :=
  .next (if bit s.alp.ch[n].cfg 5 && alpClock s && s.alp.ch[n].cd != cd then raise (88 + n.val) (s.onA n fun y => { y with cd := cd }) else s)

end Sys2Proof.Machine
end

