-- ==== Sys2Proof/Machine/Carrier.lean ====
section
/-! DEFINITION. Commands of the string carrier (file 12). -/

namespace Sys2Proof.Machine

/-- The row telegram is built 1 ms before its row slot (R325), under the two checkers of the session unit (R288). -/
def execRowBuild (c : Checked (Fin 4)) (s : State) : Outc :=
  .next (if s.csc.p[c.what].st = .run && cslAwake s && rowTick c.what 200000 s then
      noting (checked c.agree (rowBuild c.what)) s
    else s)

/-- The row slot sends an OPEN telegram, which the session unit builds (R327). -/
def openInSlot (s : State) (p : Fin 4) : Bool :=
  let x := s.csc.p[p]
  txEn s p && cslAwake s && (x.st == .start || (x.st == .run && x.built.isSome && x.rows % 16 == 15))

/-- The row slot begins (R324). -/
def execRowSlot (c : Checked (Fin 4)) (level : Byte) (urgent : ToneEnergy) (s : State) : Outc :=
  .next (if !rowTick c.what 0 s then s
    else if openInSlot s c.what then noting (checked c.agree (rowSlot c.what level urgent)) s
    else rowSlot c.what level urgent s)

/-- All but the last `later` symbols of what the port has sent or awaits in this row period have passed (R324). -/
def symbolsPassed (p : Fin 4) (later : Nat) (s : State) : Bool :=
  let x := s.csc.p[p]
  past s x.slotAt (720 * (x.pos - later))

/-- Symbols of the row period after the poll slot now judged: its gap and the slots of the addresses behind it. -/
def afterSlot (x : CscPort) : Nat := match x.wait with | .poll (_ :: rest) _ _ => 7 * rest.length + 1 | _ => 1

/-- The flag symbols after a QUERY are judged: LO for half 0 of a set, HI for half 1 (R338, R339). -/
def execQueryRoundEnd (p : Fin 4) (flags : List ToneEnergy) (s : State) : Outc :=
  .next (if s.csc.p[p].wait = .query && txEn s p && symbolsPassed p 1 s then
      judgeRound p (flags.map fun e => (flagSeen .lo e, flagSeen .hi e)) s
    else s)

/-- A poll slot ends without a valid REPORT (R337). -/
def execPollSlotEnd (p : Fin 4) (s : State) : Outc :=
  .next (if symbolsPassed p (afterSlot s.csc.p[p]) s then noAnswer p s else s)

/-- A REPORT frame, as the decoder delivers it, with the SNR that the receiver measured (R337). -/
def execReport (p : Fin 4) (head : Word) (body : List Byte) (crc : Half) (snr : Byte) (s : State) : Outc :=
  .next (if symbolsPassed p (afterSlot s.csc.p[p]) s then gotReport p (rxBytes head body crc) snr s else s)

/-- A PAIR_ACK frame, as the decoder delivers it (R333). -/
def execPairAck (p : Fin 4) (head : Word) (body : List Byte) (crc : Half) (s : State) : Outc :=
  .next (if symbolsPassed p 1 s then pairAck p (rxBytes head body crc) s else s)

/-- The transmit enable of a port changes (R328). -/
def execTxEnableChange (p : Fin 4) (inFrame : Bool) (s : State) : Outc := .next (txChange p inFrame s)

/-- Transmit energy on a port whose enable is 0: the device fault CSC_TX_STUCK (R344). -/
def execCscTxStuck (p : Fin 4) (s : State) : Outc :=
  .next (if txEn s p then s else noting (devFault (devRep 0x47 8 (skeinSrc p 0))) s)

/-- CSC_CMD START. -/
def execCscStart (p : Fin 4) (s : State) : Outc := .next (fromHost (cscStart p) s)

/-- CSC_CMD STOP. -/
def execCscStop (p : Fin 4) (s : State) : Outc := .next (fromHost (cscStop p) s)

/-- CSC_CMD PAIR. -/
def execPair (p : Fin 4) (a : BitVec 10) (s : State) : Outc := .next (fromHost (cscPair p a) s)

/-- CSC_CMD UNPAIR. -/
def execUnpair (p : Fin 4) (a : BitVec 10) (s : State) : Outc := .next (fromHost (cscUnpair p a) s)

/-- CSC_CMD POLL. -/
def execPoll (p : Fin 4) (a : BitVec 10) (s : State) : Outc := .next (fromHost (cscPoll p a) s)

end Sys2Proof.Machine
end

