-- ==== Sys2Proof/Machine/OtpCmds.lean ====
section
/-! DEFINITION. Commands of the OTP controller and the boot core's fuse services (file 15). The steps of boot core and
update core use the same meanings through their class 0xE and 0xF ports (R389). -/

namespace Sys2Proof.Machine

/-- OTP_CMD READ. -/
def execOtpRead (src : Src) (key : Half) (s : State) : Outc := .next (fromSrc src (otpRead src key) s)
/-- OTP_CMD PROGRAM. -/
def execProgram (src : Src) (key : Half) (p : PulseEnv) (s : State) : Outc := .next (fromSrc src (otpProg src key p) s)
/-- OTP_CMD COMPUTE. -/
def execCompute (src : Src) (key : Half) (s : State) : Outc := .next (fromSrc src (otpCompute src key) s)
/-- OTP_CMD LOCK. -/
def execLock (src : Src) (key : Half) (p : PulseEnv) (s : State) : Outc := .next (fromSrc src (otpLock src key p) s)
/-- OTP_CMD READ_LOCK. -/
def execReadLock (src : Src) (key : Half) (p : PulseEnv) (s : State) : Outc := .next (fromSrc src (otpReadLock src key p) s)
/-- OTP_CMD ARM_FORCE. -/
def execArmForce (src : Src) (key : Half) (s : State) : Outc := .next (fromSrc src (otpArm src key) s)
/-- OTP_CMD FORCE_LOCK. -/
def execForceLock (src : Src) (key : Half) (p : PulseEnv) (s : State) : Outc := .next (fromSrc src (otpForce src key p) s)
/-- OTP_CMD STICKY. -/
def execSticky (src : Src) (key : Half) (s : State) : Outc := .next (fromSrc src (otpSticky src key) s)
/-- OTP_CMD SET_MODE. -/
def execSetMode (src : Src) (key : Half) (p : PulseEnv) (s : State) : Outc := .next (fromSrc src (otpSetMode src key p) s)
/-- OTP_CMD SET_POLICY. -/
def execSetPolicy (src : Src) (key : Half) (p : PulseEnv) (s : State) : Outc := .next (fromSrc src (otpSetPolicy src key p) s)
/-- OTP_CMD TAP_PROGRAM. -/
def execTapProgram (src : Src) (key : Half) (p : PulseEnv) (s : State) : Outc := .next (fromSrc src (otpTap src key p) s)

/-- 1 s has passed since ARM_FORCE (R397). -/
def execArmForceExpiry (s : State) : Outc := .next (s.onOtp fun o => { o with armed := none })

/-- OTP_COMMAND_DONE (R392, R400). -/
def execOtpCommandDone (s : State) : Outc := .next (otpDone s)

/-- A bit that waits for the re-pulse service is meant to be programmed (R387). -/
def stillMeant (o : OtpS) (i : Nat) : Bool := weakMeant o (i / 32) (i % 32)

/-- The re-pulse service gives its next bit: 10 ms after the one before it (R37). -/
def repulseDue (s : State) : Bool := match s.otp.repulseAt with | none => true | some t => past s t 10000

/-- The background reread at both margins (R388, R399): a new cause for an alarm is reported at once, then every weak bit (R369), and those
that are meant to be programmed wait for the re-pulse service, no others (R387). The shadows keep their values. -/
def execFuseReread (d : List (Nat × Word × Word)) (s : State) : Outc :=
  let s0 := s.onOtp fun o => (applyDrift d o).sealedNow
  let o := s0.otp
  let s1 := each ((List.range 16).filter fun r => (alarmCause o r || (weakAll o).any fun i =>
    i / 32 / 128 == r && !weakMeant o (i / 32) (i % 32) && o.wlocked r) && !bit s.otp.alarm r) (otpAlarm .counted) s0
  let s2 := each (weakAll o) (fun i => otpWeak (i / 32 / 128)) s1
  .next (s2.onOtp fun x =>
    { x with weak := x.weak.filter (stillMeant o) ++ (weakAll o).filter fun i => stillMeant o i && !x.weak.contains i })

/-- The boot core's re-pulse service (R37, R382 to R384, R394): after SAFE-HOLD, within 0-60 °C and with the controller
free, one weak bit that is still meant, tap copy or mirror, region 7 copy, or DEBUG_LOCK, at most one per 10 ms. -/
def execRepulse (p : PulseEnv) (s : State) : Outc :=
  let t := s.onOtp fun o => { o with repulseAt := some s.t.tbA }
  .next (
    if s.otp.busy || !tempOk s || !repulseDue s ||
      !(match s.sys.runState with | .safeHold | .run | .lockout | .service => true | _ => false) then s
    else match s.otp.weak.filter (stillMeant s.otp), s.otp.tapTodo, s.otp.copies with
    | i :: w, _, _ => repulseBit p .counted i (t.onOtp fun o => { o with weak := i :: w })
    | [], c :: rest, _ => tapCopy p c.1 c.2 (t.onOtp fun o => { o with weak := [], tapTodo := rest })
    | [], [], c :: rest =>
      (otpProgram p c.1 (BitVec.ofNat 32 (2 ^ c.2)) (t.onOtp fun o => { o with weak := [], copies := rest })).2
    | [], [], [] =>
      if s.otp.lockDebug then tapBit p 2 (t.onOtp fun o => { o with weak := [], lockDebug := false })
      else s.onOtp fun o => { o with weak := [] })

end Sys2Proof.Machine
end

