-- ==== Sys2Proof/Machine/Sessions.lean ====
section
/-! DEFINITION. Commands of the session unit (file 11). -/

namespace Sys2Proof.Machine

/-- A write frame at CSL_HL_RX, its length word first (R315). -/
def execHlRxWrite (head : Word) (ws : List Word) (s : State) : Outc := .next (fromHost (hlSubmit (head :: ws)) s)

/-- A 20-word read at CSL_HL_TX (R315); the words are the answer of the read. -/
def execHlTxRead (s : State) : Outc :=
  let q := hlTake s
  .next (fromHost (fun _ => q.2.onLink fun l => { l with rdata := q.1 }) s)

/-- The time for the next OPEN of an opening has come: max(5 ms, TE / 2) after the one before (R299). -/
def resendDue (s : State) (x : Sess) : Bool :=
  match x.times with
  | t :: _ => come s t && decide (max (usec 5000) (x.te / 2) ≤ since s t)
  | [] => true

/-- Work of the awake session unit, under its two checkers (R288, R307). -/
def sessWork (agree : Bool) (f : State → State) (s : State) : State := if cslAwake s then noting (checked agree f) s else s

/-- OPEN is sent again (R299). -/
def execOpenResend (c : Checked (Fin 256)) (s : State) : Outc :=
  let x := s.csl.s[c.what]
  .next (if x.st == .opening && !x.responder && resendDue s x then
    sessWork c.agree (fun s => sendOpen 1 c.what (s.onS c.what fun x => { x with times := [s.t.tbA] })) s else s)

/-- The time expectation of a session lapses: its data is no longer valid (R297). -/
def execTimeout (c : Checked (Fin 256)) (s : State) : Outc :=
  let x := s.csl.s[c.what]
  .next (if x.st == .run && !x.valid s.t.tbA then sessWork c.agree (sessFault c.what 1) s else s)

/-- The quarantine of a connection ID ends (R302, R304). -/
def execQuarantineEnd (c : Checked (Fin 256)) (s : State) : Outc :=
  let x := s.csl.s[c.what]
  .next (if x.quar && quarPassed s x then sessWork c.agree (quarEnd c.what) s else s)

/-- A whole hour of timebase A has passed (R306): the counts of the hour before it are those of the hour just ended, none where a
further hour has passed since. -/
def execCslHourRoll (s : State) : Outc :=
  let h := s.t.tbA.toNat / hourTicks
  .next (if h = s.csl.hour then s
    else s.onCsl fun c =>
      { c with
        s := c.s.map fun x => { x with hourPrev := if h = c.hour + 1 then x.hourNow else 0, hourNow := 0 }
        hour := h })

/-- OPEN of a session, as handed over at SEAL (R304, R310). -/
def execOpenSess (c : Checked (Fin 256)) (s : State) : Outc := .next (sessWork c.agree (sessOpen c.what) s)

/-- CLOSE of a session (R304). -/
def execCloseSess (c : Checked (Fin 256)) (s : State) : Outc := .next (sessWork c.agree (sessClose c.what) s)

/-- RESTART of a session (R305). -/
def execRestart (c : Checked (Fin 256)) (s : State) : Outc := .next (sessWork c.agree (sessRestart c.what) s)

end Sys2Proof.Machine
end

