-- ==== Sys2Proof/Machine/CastOn.lean ====
section
/-! DEFINITION. Resets and the cast-on (file 02, Tables 2-1, 2-2, 2-5, 2-7): what a reset keeps, the stages from TAP to the start
of CROSS, and the rows that begin them (R459, R460, R479). -/

namespace Sys2Proof.Machine

/-- A stage with its outcome: the state, and whether the next stage begins. -/
abbrev StageRes := State × Bool

/-- The next stage begins only where the previous one has ended well (R36). -/
def StageRes.next (p : StageRes) (f : State → StageRes) : StageRes := if p.2 then f p.1 else p

/-! ## TAP -/

/-- The stage now running. -/
def enterStage (st : Stage) (s : State) : State := s.onSys fun x => { x with runState := .castOn, stage := st }

/-- TAP (R381, R382). -/
def castTap (s : State) : StageRes :=
  let s1 := enterStage .tap s
  if tapResolves s1.otp then (s1.onOtp fun o => { o with tap := tapValue o, tapWeak := tapOdd o, tapped := true }, true)
  else (stageHalt .tap s1, false)

/-! ## SENSE -/

/-- Tap copies and mirror bits that wait for the re-pulse service (R382, R383). -/
def tapWork (o : OtpS) : List (Fin 64 × Fin 4) :=
  (List.finRange 64).flatMap fun b =>
    if !bit o.tap b.val then []
    else ((List.finRange 3).filter fun i => !(bit o.tapN[i] b.val && bit o.tapT[i] b.val)).map (fun i => (b, (⟨i.val, by omega⟩ : Fin 4))) ++
      (if bit (o.val 0 (b.val / 32)) (b.val % 32) then [] else [(b, (3 : Fin 4))])

/-- Blank copies in region 7 (R394). -/
def copyWork (o : OtpS) : List (Nat × Nat) :=
  (List.range 4).flatMap fun w => (List.range 32).flatMap fun b =>
    match bit (o.val 7 w) b, bit (o.val 7 (w + 4)) b with
    | true, false => [(otpAddr 7 (w + 4), b)]
    | false, true => [(otpAddr 7 w, b)]
    | _, _ => []

/-- The reads of SENSE, and the first 16 WEAK bits that are meant, re-pulsed within 0–60 °C (R386 to R388, R37). -/
def senseReads (env : CastEnv) (s : State) : State :=
  let s1 := (s.onOtp (applyDrift env.drift)).onPwr fun p => { p with tempProc := BitVec.ofNat 8 (min 255 (env.temp + 64).toNat) }
  let meant := (weakAll s1.otp).filter fun i => weakMeant s1.otp (i / 32) (i % 32)
  let now := if tempOk s1 then meant.take 16 else []
  let s2 := each now (repulseBit env.pulse .stage) s1
  s2.onOtp fun o => { o with weak := meant.filter fun i => !now.contains i }

/-- What SENSE derives from the array (R386, R394, R397 to R399, R383, R384). -/
def senseFields (s : State) : State :=
  let o := s.otp
  let life := o.life
  let causes : Half := maskOf 16 (alarmCause o)
  let later := life == .commissioned || life == .serviceLocked || life == .retired
  let s1 := s.onOtp fun o =>
    { o with
      shadow := (o.w.map fun e => (e.1, e.2.n)).filter fun e => e.2 != 0
      sensed := true, alarm := o.alarm ||| causes, incomplete := maskOf 16 o.broken
      rlock := BitVec.ofNat 16 (fld (o.lockWord 1) 15 0)
      tapTodo := tapWork o, copies := copyWork o
      lockDebug := later && !bit o.tap 2, debugOpen := !later && !bit o.tap 2 }
  let s2 := s1.onSys fun x => { x with life := life }
  let s3 := s2.onLink fun l =>
    { l with
      serialLo := o.val 1 0, serialHi := (o.val 1 1).truncate 16
      inc := if l.inc + 1 = 0 then 1 else l.inc + 1 }
  s3.onCsl fun c => { c with id := o.val 1 2 }

/-- A region whose alarm stands has the policy. -/
def alarmUnder (p : Nat) (s : State) : Bool := (List.range 16).any fun r => bit s.otp.alarm r && s.otp.policyOf r == p

/-- SENSE: an alarm under HALT ends the cast-on with INTEGRITY_ALARM as the stage failure (Table 14-2), one under HOLD keeps a device fault pending (Table 2-2, R48). -/
def castSense (env : CastEnv) (s : State) : StageRes :=
  let s1 := senseFields (senseReads env (enterStage .sense s))
  if alarmUnder 2 s1 then (haltEntry 0x51 (raise 121 s1), false)
  else (s1.onSys fun x => { x with senseHold := alarmUnder 1 s1 }, true)

/-! ## WIPE and SWATCH -/

/-- WIPE: all memories (R10), and the event flags that the stages before it raised (R453); in RETIRED the cast-on ends here with the
retired command (R40, R43). -/
def castWipe (env : CastEnv) (s : State) : StageRes :=
  let s1 := { enterStage .wipe s with mem := {}, evt := {}, eng := {} }
  if !env.wipeOk then (stageHalt .wipe s1, false)
  else if s1.sys.life == .retired then
    ((enterStage .retired s1).onHld fun h => { h with retired := true, superOn := false }, false)
  else (s1, true)

/-- SWATCH (R135 to R137). -/
def castSwatch (env : CastEnv) (s : State) : StageRes :=
  let bad := swatchFails env.swatch
  let s1 := noteSwatch bad (enterStage .swatch s)
  if bad.isEmpty then (s1, true) else (stageHalt .swatch s1, false)

/-! ## LOAD: journal recovery -/

/-- Index and first-commissioning flag of a commit marker. -/
def Marker.step (m : Marker) : Nat × Bool := ((bytesHalf m.payload).toNat, bit (m.payload.getD 2 0) 0)

/-- Wipes the key store and programs every remaining life-cycle bit (R429 steps 3 and 4). -/
def retireBits (p : PulseEnv) (s : State) : State :=
  each (List.range 5) (fun _ s => (otpAdvance p 3 0 1 s).2) (s.onMem fun m => { m with keyStore := [] })

/-- The log record of a life-cycle change. -/
def logLife (n : Nat) (s : State) : State := logPut 4 .counted 0 0x0021 (BitVec.ofNat 32 n) s

/-- The done marker of a commit, with its log record and EV123 (R430, R431). -/
def commitDone (idx : Nat) (first : Bool) (code : Word) (s : State) : State :=
  let pay := halfBytes (BitVec.ofNat 16 idx) ++ [if first then 1 else 0]
  raise 123 <| logPut 4 .counted 0 0x0011 (BitVec.ofNat 32 idx) <| s.onUpd fun u => readJournal (endIntent 0x11 0 code pay u)

/-- Completion of a commit whose counter step is burned (Table 2-7): the life-cycle bit of a first commissioning is programmed
from blank, or re-pulsed where it is weak, outside 0-60 °C by the service (R391); the flag says that it was programmed from blank. -/
def commitFinish (p : PulseEnv) (idx : Nat) (first : Bool) (code : Word) (s : State) : StageRes :=
  let life := otpAddr 3 0
  let blank := first && s.otp.count 3 0 1 == 2
  let s1 :=
    if blank then logLife 3 (otpAdvance p 3 0 1 s).2
    else if first && bit (s.otp.fuse life).weakBits 2 then
      (if tempOk s then repulseBit p .counted (32 * life + 2) (otpDone s) else leftWeak life 4 s)
    else s
  ((commitDone idx first code s1).onSys fun x => { x with commitPending := false }, blank)

/-- Settles an interrupted commit (R60, R61, Table 2-7); the flag says that a cast-on with cause LIFECYCLE follows. -/
def settleCommit (p : PulseEnv) (s : State) : StageRes :=
  match openCommit (journal s.upd) with
  | none => (s, false)
  | some m =>
    let idx := m.step.1
    let a := otpAddr 5 (idx / 32)
    if !bit (s.otp.fuse a).n (idx % 32) then
      (raise 123 <| logPut 4 .counted 0 0x0012 (BitVec.ofNat 32 idx) <| s.onUpd fun u =>
        readJournal (endIntent 0x12 0 m.arg (m.payload.take 3) u), false)
    else if bit (s.otp.fuse a).weakBits (idx % 32) && !tempOk s then (s.onSys fun x => { x with commitPending := true }, false)
    else
      let s1 := if bit (s.otp.fuse a).weakBits (idx % 32) then repulseBit p .counted (32 * a + idx % 32) (otpDone s) else s
      commitFinish p idx m.step.2 m.arg s1

/-- Counter `c` of region 4 advanced to its target (R421). -/
def advanceArb (p : PulseEnv) (c target : Nat) (s : State) : State :=
  each (List.range (min 256 target - s.otp.arb c)) (fun _ s => (otpAdvance p 4 (8 * c) 8 s).2) s

/-- The confirmation sequence from its open intent to CONFIRM_DONE (R421), logged with EV122; while a counter has not reached its target it
goes on. -/
def confirmFinish (p : PulseEnv) (s : State) : State :=
  match openConfirm (journal s.upd) with
  | none => s.onUpd fun u => { u with confirming := false }
  | some m =>
    let t := fun i => (bytesHalf ((m.payload.drop (2 * i)).take 2)).toNat
    let s1 := advanceArb p 2 (t 2) (advanceArb p 1 (t 1) (advanceArb p 0 (t 0) s))
    if (List.range 3).any fun c => decide (s1.otp.arb c < min 256 (t c)) then s1.onUpd fun u => { u with confirming := true }
    else raise 122 <| logPut 4 .counted 0 0x0006 m.arg <| s1.onUpd fun u =>
      let v := readJournal (endIntent 0x21 m.slot m.arg m.payload u)
      { v with confirming := false, trial := false, trialTime := none }

/-- Step 1 of a compaction (R410): where the next marker compacts the journal, an open commit and an open confirmation are resolved
first. A retirement is never open there, since a cast-on follows its intent at once. -/
def resolveIntents (p : PulseEnv) (s : State) : State :=
  if !compactDue s.upd then s
  else
    let s1 := if s.upd.commit.isNone then (settleCommit p s).1 else s
    if (openConfirm (journal s1.upd)).isSome then confirmFinish p s1 else s1

/-- Journal recovery: a retirement that has not come to its end, a commit and a confirmation that a reset cut (R429, R60, R421). The
flag says that the cast-on goes on. -/
def recoverJournal (p : PulseEnv) (s : State) : StageRes :=
  let s1 := s.onUpd readJournal
  if openRetire (journal s1.upd) && s1.sys.life != .retired then (resetDevice causeLife (logLife 5 (retireBits p s1)), false)
  else
    let q := settleCommit p s1
    if q.2 then (resetDevice causeLife q.1, false)
    else ((if (openConfirm (journal q.1.upd)).isSome then confirmFinish p q.1 else q.1), true)

/-! ## LOAD: slot selection (R417) -/

/-- The slot R417 begins with, and whether a FROG of this cast-on named it: a trial slot is counted, or fallen back from after
three trial cast-ons. Below COMMISSIONED there is no trial (R418). -/
def selectSlot (s : State) : Nat × Bool × State :=
  let l := journal s.upd
  let a := activeSlot l % 2
  if onTrial l && lifeRuns s then
    if 3 ≤ trialsMade l then (1 - a, true, writeFrog (1 - a) 2 s)
    else
      (a, false, raise 122 <| s.onUpd fun u =>
        { readJournal (writeMarker 0x02 (BitVec.ofNat 8 a) (BitVec.ofNat 32 (trialsMade l + 1)) [] u) with
          trial := true, trialCount := BitVec.ofNat 2 (trialsMade l + 1) })
  else (a, false, s)

/-- TRAPC of a trap in a program that the spec does not give: the bits of `mask` are known, the rest is a free value (R86). -/
def freeTrap (e : Fin 24) (mask known : Word) (s : State) : State :=
  let q := s.takeFree
  q.2.onE e fun x => { x with trapc := known ||| (Config.freeWord q.1 &&& ~~~mask) }

/-- A trap of the boot core on the way of a cast-on. -/
def bootTrap (s : State) : State := freeTrap 14 0 0 s

/-- One area is checked and loaded; a failure, or a trap of the boot core in it (R86), is a report of class stage (R408, Table 2-2). -/
def tryArea (env : CastEnv) (area : Nat) (s : State) : State ⊕ State :=
  let s1 := noteSlot area s
  match loadImage area s1 with
  | .inl t =>
    if env.traps.contains (5, area) then .inr (stageReport .load (bootTrap s1))
    else .inl (t.onSys fun x => { x with slotB := area == 1, recovery := area == 2 })
  | .inr _ => .inr (stageReport .load s1)

/-- The recovery image, or HALT. -/
def tryRecovery (env : CastEnv) (s : State) : StageRes :=
  match tryArea env 2 (s.onUpd fun u => { u with trial := false }) with
  | .inl t => (t, true)
  | .inr t => (haltEntry 0x50 t, false)

/-- Slot selection with its fall-backs (R417). -/
def loadSlots (env : CastEnv) (s : State) : StageRes :=
  let (a, frogged, s1) := selectSlot s
  match tryArea env a s1 with
  | .inl t => (t, true)
  | .inr s2 =>
    if frogged then tryRecovery env s2
    else match tryArea env (1 - a) ((writeFrog (1 - a) 3 s2).onUpd fun u => { u with trial := false }) with
      | .inl t => (t, true)
      | .inr s3 => tryRecovery env s3

/-! ## LOAD: what the image and the stores put in force -/

/-- Settings from the words of a settings block, as the model orders them; reserved bits read 0 (R5). -/
def settingsOf (l : List Word) : NetSet :=
  let w := fun i => l.getD i 0
  { ip := Tab.gen 2 fun i => w (3 * i.val), mask := Tab.gen 2 fun i => w (3 * i.val + 1), gw := Tab.gen 2 fun i => w (3 * i.val + 2)
    svc := w 6 &&& 0x0007FFFF, reqId := w 7, rspId := w 8, can := Tab.gen 2 fun i => w (9 + i.val) &&& 0x00FFFFFF
    irqen := w 14 ++ w 13 ++ w 12 ++ w 11 }

/-- The non-safety settings in force (R426, R447): the stored record, or the image's settings block where the record is missing
or of another settings-format ID. -/
def loadSettings (s : State) : State :=
  let want : Half := (s.upd.hdr.getN 5 0).truncate 16
  let put := fun (n : NetSet) (s : State) => s.onLink fun l => { l with set := n, act := n }
  match s.upd.settings with
  | some (id, n) => if id == want then put n s else fresh put s
  | none => fresh put s
where
  /-- The image's settings block, written as a new record after SAFE-HOLD. -/
  fresh (put : NetSet → State → State) (s : State) : State :=
    let blk := (s.upd.running.bind fun a => readImage s.upd.flash a.toNat).bind fun m => Config.settingsBlock (m.all s.upd.flash 0x12)
    (put (match blk with | some b => settingsOf b.2 | none => {}) s).onUpd fun u => { u with newSet := true }

/-- Stored records of the session unit, the analog channels and the carrier (R300, R279, R335); a session that leaves CLOSED raises EV96
(R318). -/
def loadStores (s : State) : State :=
  let inc : Half := (s.upd.epoch + 1).zeroExtend 16 * 256
  let changed := s.csl.s.any fun x => (x.castOn inc).st != x.st
  let s1 := when changed (raise 96) <|
    s.onCsl fun c => { c with epoch := s.upd.epoch + 1, s := c.s.map (Sess.castOn inc), hour := s.t.tbA.toNat / hourTicks }
  let s2 := s1.onAlp fun x =>
    { x with ch := Tab.gen 8 fun n =>
        { x.ch[n] with zero := (s.upd.trims[n]).truncate 16, gain := (s.upd.trims[n]).extractLsb' 16 16 } }
  s2.onCsc fun x =>
    { x with p := Tab.gen 4 fun p => { x.p[p] with tab := s.upd.table p, inc := inc } }

/-- The sticky locks that the end of LOAD sets (R395). -/
def loadSticky (s : State) : State :=
  s.onOtp fun o =>
    { o with sticky := maskOf 16 fun r => decide (8 ≤ r) && (o.seen.modeOf r == 0 || o.seen.modeOf r == 2) && !bit (s.upd.hdr.getN 5 0) (16 + r) }

/-- A timer channel at the end of LOAD (R241, R251): its loaded compare is armed, LOCKED runs, FREE with AUTOSTART starts. The odd half
of a linked pair runs with its even half (R247). -/
def TmrCh.begin_ (now : DWord) (odd : Bool) (c : TmrCh) : TmrCh :=
  if odd || c.mode == 0 then c
  else
    { c with
      armed := c.modv == 0 || c.cmp.ult c.modv
      err := c.err || !(c.modv == 0 || c.cmp.ult c.modv)
      run := c.mode == 2 || bit c.cfg 3, base := now }

/-- Domains that the start of LOAD switches on (Table 18-2). -/
def loadDomains (s : State) : State :=
  let ce := !cscAbsent s
  s.onPwr fun p =>
    { p with domains := maskOf 10 fun i =>
        if i = 6 then true else if i = 3 || i = 9 then ce else if i = 7 then p.vf1 || p.vf2 else if i = 8 then p.van
        else bit p.domains i }

/-- An input starts sampling: no settle time measured yet, and the configured maximum as its settle delay (R187). -/
def InA.startSampling (i : InA) : InA :=
  if i.mode == 0 then i
  else { i with settles := [], settleDelay := BitVec.ofNat 6 (fld i.cfg 13 8), win := none, testWin := none, sampleAt := none, testAt := none, gapAt := none }

/-- Test-pulse sources that the image assigns drive high (R199), inputs start sampling (R187), CONTINUOUS inputs present their level
(R184), forced inputs their safe side (R188), and readbacks theirs (R219, R516). -/
def fieldBegin (s : State) : State :=
  let s1 := when (!stopped s) sourcesOn <| s.onSin fun x => { x with i := x.i.map InA.startSampling }
  if bit s.pwr.domains 7 then
    let s0 := each (List.finRange 8) (fun j s => tpPresent j s.sin.tp[j].raw s) s1
    let s0 := trackOuts (each (List.finRange 16) (fun k s => readbackA k s.sout.o[k].raw s) s0)
    let s2 := each ((List.finRange 32).filter fun n => s1.sin.i[n].forced) (fun n s => presentEdge n (safeLevel s.sin n) s) s0
    each ((List.finRange 32).filter fun n => s1.sin.i[n].mode == 2) (fun n s => sample n s.sin.i[n].raw s) s2
  else s1

/-- The gauge test that each power-up of PD-FAN runs (R276): every channel in use is forced, then the test ends. -/
def gaugeAll (ms : List GaugeMeas) (s : State) : State :=
  if bit s.pwr.domains 8 then
    let use := (List.finRange 8).filter fun n => s.alp.ch[n].mode != 0
    each use (fun n s => gaugeEnd n (ms.getD n.val {}) (s.onA n fun c => { c with gaugeRun := true })) s
  else s

/-- Monitoring of the bank supplies begins: a bank whose supply is absent is BANK_SUPPLY, any other has no condition (R17, R218). -/
def bankBegin (s : State) : State :=
  each (List.finRange 2) (fun n s =>
    if if n = 0 then s.pwr.vf1 else s.pwr.vf2 then s.onSout fun x => { x with bankCond := x.bankCond.upd n fun _ => false }
    else bankFail n s) s

/-- The end of LOAD; the core rail stands at 0.95 V (R464). -/
def endLoad (env : CastEnv) (s : State) : State :=
  let s1 := ceLoad (loadSticky (loadStores (loadSettings (s.onUpd fun u => u.spoil env.spoiled))))
  let s2 := (s1.onCvu fun x => { x with u := x.u.map Cvu.fix }).onTmr fun x =>
    { x with ch := Tab.gen 32 fun n => TmrCh.begin_ s.t.tbA (oddHalf x n) x.ch[n] }
  (gaugeAll env.gauge (bankBegin (fieldBegin s2))).onPwr fun p => { p with tensionMax := true }

/-- The report of class stage for each region whose alarm SENSE raised (R366), then a WEAK_BIT for each region with a weak bit that SENSE
found, region 0 also for a tap copy that is weak or disagrees (R382, R387). -/
def loadAlarms (s : State) : State :=
  let weak := fun (r : Nat) => s.otp.weak.any (fun i => i / 32 / 128 == r) || (weakAll s.otp).any (fun i => i / 32 / 128 == r) ||
    (r == 0 && s.otp.tapWeak != 0)
  each ((List.range 16).filter weak) otpWeak (each ((List.range 16).filter fun r => bit s.otp.alarm r) (fun r => otpAlarm .stage r) s)

/-- LOAD (Table 2-1); where the flash does not answer no image passes its checks, which is HALT (R417, R34). -/
def castLoad (env : CastEnv) (s : State) : StageRes :=
  let s1 := loadAlarms (loadDomains (enterStage .load s))
  if !flashRuns s1 then (haltEntry 0x50 (stageReport .load s1), false)
  else ((recoverJournal env.pulse s1 |> fun q => q.next (loadSlots env)) |> fun q => if q.2 then (endLoad env q.1, true) else q)

/-! ## PATTERN and CROSS -/

/-- One load of the pattern into channel B (Table 6-11): the vector test, which clears the store; the structural check; the store with
PATTERN_OK. Then the boot core compares HLD_PATTERN_ID with the check code of the image (R176). -/
def patternTry (vec store : Bool) (s : State) : StageRes :=
  let s1 := s.onHld fun h => { h with vectorOk := vec, patternOk := false, store := [] }
  match patternCheck s.upd.pattern (cscAbsent s) with
  | none => (s1, false)
  | some rs => if vec && store then checkCode (s1.onHld (storePattern s.upd.pattern rs)) else (s1, false)
where
  /-- The boot core's comparison; where it passes, PATTERN ends, and channel B leaves load mode. -/
  checkCode (s : State) : StageRes :=
    if s.hld.hdr.getN 2 0 == s.upd.code then (s.onHld fun h => { h with loadMode := false, superOn := false }, true) else (s, false)

/-- PATTERN: a second failure is HALT (Table 2-2). A mismatch is a report of channel B too (DESIGN CHOICE, log 130). -/
def castPattern (env : CastEnv) (s : State) : StageRes :=
  let s1 := enterStage .pattern s
  let try_ := fun (k : Nat) (vec store : Bool) (s : State) =>
    if env.traps.contains (6, k) then (stageReport .pattern (bootTrap s), false)
    else
      let q := patternTry vec store s
      if q.2 then q else (stageReport .pattern (bReport 0x13 0 q.1), false)
  let q1 := try_ 0 env.vectorOk.1 env.storeOk.1 s1
  if q1.2 then q1
  else
    let q2 := try_ 1 env.vectorOk.2 env.storeOk.2 q1.1
    if q2.2 then q2 else (haltEntry 0x13 q2.1, false)

/-- A stage; where it does not end, the device stands in it until the cast-on supervisor acts (R40). A trap of the boot core in TAP to
SWATCH, or in LOAD while no slot is selected, is HALT (R86). -/
def castStage (env : CastEnv) (st : Stage) (f : State → StageRes) (s : State) : StageRes :=
  if env.stuck == some st.code then (enterStage st s, false)
  else if env.traps.contains (st.code, 3) || (st.code < 5 && env.traps.any fun x => x.1 == st.code) then
    (haltState 0x50 (stageReport st (bootTrap (enterStage st s))), false)
  else f s

/-- A cast-on up to the start of CROSS (R36, Table 2-1), from registers at their reset values (R6) and with the supervisor's count
at the release of the internal reset line (R40). -/
def runCastOn (env : CastEnv) (s : State) : State :=
  let s0 := (powerDown s).onHld fun h => { h with loadMode := true, superOn := true }
  let st := castStage env
  let q := (((((st .tap castTap s0).next (st .sense (castSense env))).next (st .wipe (castWipe env))).next
    (st .swatch (castSwatch env))).next (st .load (castLoad env))).next (st .pattern (castPattern env))
  if !q.2 then q.1
  else
    let s1 := startCross q.1
    if env.traps.any fun x => x.1 == 7 then haltState 0x50 (stageReport .cross (bootTrap s1)) else s1

/-- A cast-on after the power-on that CASTON_COUNT counts from. -/
def countCastOn (s : State) : State := s.onSys fun x => { x with castOns := satInc x.castOns }

/-! ## The rows -/

/-- Clocks as they qualify the start of a cast-on (R459). -/
def clocksGood (s : State) : State := (s.onPwr fun p => { p with xtalOk := true, pllLock := true }).onT fun t => { t with runA := true }

/-- POWER_GOOD (R459, R57, R436): timebase A counts from zero; a power-on clears PD-AON, any other return is BROWNOUT. While
RESET_N holds the device the cast-on waits for its release. -/
def execPowerGood (env : CastEnv) (s : State) : Outc :=
  .next (if s.pwr.good then s
    else
      let por := s.pwr.aonLost
      let s1 := clocksGood <| (s.onPwr fun p => { p with good := true, aonLost := false, hldBad := false }).onT fun t => { t with tbA := 0, cyc := 0 }
      let s2 :=
        if por then
          ((s1.onSys fun x => { x with cause := 1, lastState := 0, lastStage := 0, castOns := 0 }).onPwr fun p =>
            { p with wakeCause := 0, refuse := 0, entries := 0 }).onLink fun l => { l with inc := if env.jitter = 0 then 1 else env.jitter }
        else s1.onSys fun x => { x with cause := x.cause ||| 2 }
      if s2.pwr.resetN then s2
      else noting (runCastOn env) (if por then s2 else countCastOn s2))

/-- POWER_GOOD_LOSS (R459): every engine and the hard logic die are held in reset. -/
def execPowerGoodLoss (s : State) : Outc :=
  .next (if s.pwr.good then (holdReset 0 s).onPwr fun p => { p with good := false } else s)

/-- AON_LOSS (R460). -/
def execAonLoss (s : State) : Outc :=
  .next ((if s.pwr.good then holdReset 0 s else s).onPwr fun p => { p with good := false, aonLost := true })

/-- EV124 (R474): in DORMANT the event fabric has no activity, and the event comes at the wake (R32). -/
def supplyEvent (s : State) : State :=
  if s.sys.runState == .dormant then s.onPwr fun p => { p with supplyEv := true } else raise 124 s

/-- VLOGIC_HIGH (R460, R474): nothing else changes. -/
def execVlogicHigh (high : Bool) (s : State) : Outc :=
  .next (if s.pwr.vlogicHigh = high then s else supplyEvent (s.onPwr fun p => { p with vlogicHigh := high }))

/-- XTAL_READY (R459): the cast-on that waits begins. -/
def execXtalReady (env : CastEnv) (s : State) : Outc :=
  .next (if s.pwr.good && !s.pwr.resetN && s.sys.clockWait then noting (runCastOn env) (countCastOn (clocksGood s)) else s)

/-- RESET_N_ASSERT (R479): under power-good the cause PIN is set at once (Table 2-5), so that it stands in the next cast-on even where
power-good is lost before the release. -/
def execResetNAssert (s : State) : Outc :=
  .next (if s.pwr.resetN then s
    else (if s.pwr.good then holdReset causePin s else s).onPwr fun p => { p with resetN := true })

/-- RESET_N_RELEASE (R479): timebase A restarts from zero, and a cast-on with cause PIN waits for the clocks. -/
def execResetNRelease (s : State) : Outc :=
  .next (if !s.pwr.resetN then s
    else
      let s1 := s.onPwr fun p => { p with resetN := false }
      if s1.pwr.good then
        (s1.onSys fun x => { x with cause := x.cause ||| causePin, clockWait := true }).onT fun t => { t with tbA := 0, cyc := 0 }
      else s1)

end Sys2Proof.Machine
end

