-- ==== Sys2Proof/Machine/Scan.lean ====
section
/-! DEFINITION. Releases of the safety cores (R74 to R81), the binding-off of HOLD at a release (R49), and the dispatch of event
tasks (R82). -/

namespace Sys2Proof.Machine

/-- Every hosting core has passed its release since the HOLD. -/
def holdPassedAll (s : State) : Bool := (s.sout.hosting &&& ~~~s.sys.holdPassed) == 0

/-- The end of a HOLD (R49, R416, R420): SAFE-HOLD is entered; a trial that expired then falls back and casts on. -/
def holdEnd (s : State) : State :=
  let cause : Word := match s.sys.holdWhy with | .command => 2 | .seal => 0xF2 | .trial => 0xF3
  let reason : Byte := if s.sys.holdWhy == .seal || s.sys.sealGone then 3 else (startUnmet s).getD 7
  let s1 := holdAll <| setRun .safeHold cause <| s.onSys fun x =>
    { x with holding := false, result := if x.result = 1 then 0 else x.result, holdReason := reason }
  if s.sys.holdWhy == .trial then trialFall s1 else s1

/-- A HOLD begins (R49): each core binds off at its next release; with no hosting core it ends at once. -/
def holdStart (why : HoldWhy) (s : State) : State :=
  let s1 := s.onSys fun x => { x with holding := true, holdWhy := why, holdPassed := 0, sealGone := false }
  if holdPassedAll s1 then holdEnd s1 else s1

/-- A core passes its first release after HOLD (R49): the switch A hold is set on every output that it owns. -/
def holdBind (c : Fin 4) (s : State) : State :=
  let own := ownedOut s.sout.used s.sout.owners c
  let s1 := driveA <| s.onSout fun x => { x with o := Tab.gen 16 fun k => if bit own k.val then { x.o[k] with hold := true } else x.o[k] }
  let s2 := s1.onSys fun x => { x with holdPassed := setBit x.holdPassed c.val true }
  if holdPassedAll s2 then holdEnd s2 else s2

/-- A scan has not sealed before the next release (R80): the core stops and sends no record. -/
def scanDeadline (c : Fin 4) (s : State) : State :=
  devFault (devRep 0x40 1 c.val) <| (s.onE (engOf c) fun e => { e with on := false, task := none }).onC c fun x =>
    { x with mode := 0, deadline := true, inScan := false, staged := [] }

/-- The trap of a twin-pass safety core (R86): the core stops, its staged writes are dropped, and SC_TRAP is a device fault. -/
def coreTrap (c : Fin 4) (cause : Byte) (word : Half) (s : State) : State :=
  devFault (devRep 0x41 1 c.val) <| (s.onE (engOf c) fun e => { e with on := false, task := none }).onC c fun x =>
    { x with mode := 0, trapped := true, cause := cause, word := word, inScan := false, staged := [] }

/-- A release of the core occurs at timebase A time `t`: modulo the period it equals the phase (R74). -/
def releaseDue (x : Core) (t : DWord) : Bool :=
  x.periodU != 0 && t.toNat % (x.periodU * 10000) == fld x.scanCfg 21 11 * 10000

/-- A release of a safety core (R75, R77, R80, R49). -/
def scanRelease (c : Fin 4) (s : State) : State :=
  let e := s.eng.e[engOf c]
  let x := s.eng.c[c]
  if !e.on || x.mode != 1 || !s.t.runA || s.sys.runState == .dormant || !releaseDue x s.t.tbA then s
  else if x.inScan then scanDeadline c s
  else if !x.initDone then s
  else
    let s1 := if s.sys.holding && s.sys.runState == .run && !bit s.sys.holdPassed c.val then holdBind c s else s
    if s1.eng.e[engOf c].on then releaseCore c s1 else s1

/-- SCAN_RELEASE (R75). -/
def execScanRelease (c : Fin 4) (s : State) : Outc := .next (noting (fun s => trackOuts (scanRelease c s)) s)

/-- TEST is suspended until the next SEAL (R81). -/
def suspendTest (c : Fin 4) (s : State) : State :=
  (s.onE (engOf c) fun e => { e with task := none }).onC c fun x => { x with testCapped := true }

/-- TEST_CAP (R81): TEST has reached its cap, so that no instruction, of 2 steps at least, fits. -/
def execTestCap (c : Fin 4) (s : State) : Outc :=
  .next (if s.eng.e[engOf c].task = some 2 && decide (s.eng.c[c].testCap < s.eng.c[c].testSteps + 2) then suspendTest c s else s)

/-- The lowest-numbered pending task: one whose event has come, or one that is triggered and waits for no event (R82, R117). -/
def Engine.nextTask (e : Engine) : Option (Fin 16) :=
  (List.finRange 16).find? fun t => bit e.resumes t.val || (bit e.tasks t.val && e.waiting[t] == none)

/-- A free engine or hart starts its lowest-numbered pending task at its entry, or goes on after the EVWAIT that the task
waited in (R82, R117). -/
def Engine.dispatch (e : Engine) : Engine :=
  if !e.on || e.task.isSome then e
  else match e.nextTask with
    | none => e
    | some t =>
      if bit e.resumes t.val then { e with task := some t, resumes := setBit e.resumes t.val false }
      else
        let e1 := { e with task := some t, tasks := setBit e.tasks t.val false }
        { e1 with pc := e1.pc.upd t fun _ => e1.entry[t], steps := e1.steps.upd t fun _ => 0, tbHi := e1.tbHi.upd t fun _ => 0 }

/-- TASK_DISPATCH (R82): every engine but a twin-pass safety core; the boot core runs the cast-on sequence first, and its service
tasks after SAFE-HOLD (R84). In DORMANT no engine is active (R32). -/
def execTaskDispatch (e : Fin 24) (s : State) : Outc :=
  .next (if e.val < 4 || (e == 14 && s.sys.runState == .castOn) || s.sys.runState == .dormant then s else s.onE e Engine.dispatch)

end Sys2Proof.Machine
end

