-- ==== Sys2Proof/Machine/RunState.lean ====
section
/-! DEFINITION. The commands of SYS_CTRL (R47 to R53). A command that arrives while the host link serves no write of SYS_CTRL
(CAST-ON, HALT, DORMANT, no power) changes nothing. -/

namespace Sys2Proof.Machine

/-- RESULT of SYS_CTRL. -/
def ctrlResult (r : Byte) (s : State) : State := s.onSys fun x => { x with result := r }

/-- A write of SYS_CTRL: a wrong key is refused and otherwise ignored; else LAST_CMD holds the code and `f` acts (SYS_CTRL). -/
def sysCmd (key : Half) (cmd : Byte) (f : State → State) (s : State) : State :=
  if !ctrlServed s then s
  else if key ≠ 0x6A5C then ctrlResult 4 s
  else f (s.onSys fun x => { x with lastCmd := cmd })

/-- START (R48, R49). -/
def ctrlStart (s : State) : State :=
  if s.sys.runState != .safeHold then ctrlResult 2 s
  else match startUnmet s with
    | some r => ctrlResult 3 (s.onSys fun x => { x with holdReason := r })
    | none => enterRun 1 (ctrlResult 0 s)

/-- START. -/
def execStart (key : Half) (s : State) : Outc := .next (noting (sysCmd key 1 ctrlStart) s)

/-- HOLD (R49, R53): refused while a device fault takes the device to LOCKOUT. -/
def ctrlHold (s : State) : State :=
  if s.sys.devPending then ctrlResult 6 s
  else if s.sys.runState != .run then ctrlResult 2 s
  else if s.sys.holding then ctrlResult 1 s
  else holdStart .command (ctrlResult 1 s)

/-- HOLD. -/
def execHold (key : Half) (s : State) : Outc := .next (noting (sysCmd key 2 ctrlHold) s)

/-- SERVICE_ENTER (Table 2-3). -/
def ctrlService (s : State) : State :=
  if s.sys.runState != .safeHold then ctrlResult 2 s
  else if s.sys.life == .serviceLocked || s.sys.life == .retired || s.sys.recovery then ctrlResult 5 s
  else setRun .service 3 (ctrlResult 0 s)

/-- SERVICE_ENTER. -/
def execServiceEnter (key : Half) (s : State) : Outc := .next (sysCmd key 3 ctrlService s)

/-- SERVICE_EXIT (Table 2-3, R52). -/
def ctrlExit (env : ReevalEnv) (s : State) : State :=
  if s.sys.runState != .service || s.sys.reeval then ctrlResult 2 s else reevaluate true env (ctrlResult 1 s)

/-- SERVICE_EXIT. -/
def execServiceExit (key : Half) (env : ReevalEnv) (s : State) : Outc := .next (noting (sysCmd key 4 (ctrlExit env)) s)

/-- A demand is on or a group granted in the latest record of a core (R50). -/
def anyDemand (s : State) : Bool :=
  s.eng.c.any fun x => x.sealedDemand != 0 || x.sealedPermit.any fun p => p != 0

/-- REFUSE of the first of the conditions of R50 and R466 that a SLEEP meets. -/
def sleepBar (s : State) : Option (BitVec 4) :=
  if anyDemand s then some 2
  else if s.csc.p.any fun p => p.st != .off then some 3
  else if s.pwr.ck32Drift then some 4
  else if s.upd.owner != 0 then some 5
  else if s.upd.armed || s.upd.commit.isSome || s.upd.confirming then some 6
  else if s.otp.busy then some 7
  else if s.link.setBusy then some 8
  else none

/-- A refused SLEEP with its reason (R466). -/
def sleepRefuse (result : Byte) (why : BitVec 4) (s : State) : State :=
  ctrlResult result (s.onPwr fun p => { p with refuse := why })

/-- SLEEP (R50, R466): accepted, it waits for the end of the current scan of every safety core. -/
def ctrlSleep (s : State) : State :=
  if s.sys.devPending then ctrlResult 6 s
  else if s.sys.runState != .safeHold && s.sys.runState != .run then sleepRefuse 2 1 s
  else match sleepBar s with
    | some r => sleepRefuse 3 r s
    | none => ctrlResult 1 (s.onSys fun x =>
        { x with sleeping := true, sleepDone := maskOf 4 fun c => !(s.eng.c.getN c {}).inScan })

/-- SLEEP. -/
def execSleep (key : Half) (s : State) : Outc := .next (sysCmd key 5 ctrlSleep s)

/-- DEV_RELEASE counts as a device release where the image header and the pattern header permit it (R51, R164). -/
def ctrlRelease (env : ReevalEnv) (s : State) : State :=
  if s.sys.runState != .lockout || s.sys.reeval then ctrlResult 2 s
  else if !bit (s.upd.hdr.getN 3 0) 1 || !bit (s.hld.hdr.getN 3 0) 3 then ctrlResult 5 s
  else if s.sys.devPending then ctrlResult 6 s
  else reevaluate false env (ctrlResult 1 s)

/-- DEV_RELEASE. -/
def execDevRelease (key : Half) (env : ReevalEnv) (s : State) : Outc := .next (noting (sysCmd key 6 (ctrlRelease env)) s)

/-- RESET (R53, R56): it waits for the end of a commissioning commit. -/
def ctrlReset (s : State) : State :=
  if s.upd.commit.isSome then ctrlResult 1 (s.onSys fun x => { x with resetWait := true }) else resetDevice causeHost s

/-- RESET. -/
def execReset (key : Half) (s : State) : Outc := .next (sysCmd key 7 ctrlReset s)

/-- UNDEFINED_CMD (R47): CMD 0 and 8–255 start nothing. A CMD that is defined is no such write. -/
def execUndefinedCmd (key : Half) (cmd : Byte) (s : State) : Outc :=
  .next (if 1 ≤ cmd.toNat ∧ cmd.toNat ≤ 7 then s else sysCmd key cmd (ctrlResult 5) s)

/-- The meaning of a write of SYS_CTRL by its CMD field; what a re-evaluation meets is passed along (Table 2-3). -/
def writeCtrl (env : ReevalEnv) (v : Word) (s : State) : State :=
  let key : Half := v.extractLsb' 16 16
  let cmd : Byte := v.truncate 8
  sysCmd key cmd (fun s =>
    match cmd.toNat with
    | 1 => ctrlStart s
    | 2 => ctrlHold s
    | 3 => ctrlService s
    | 4 => ctrlExit env s
    | 5 => ctrlSleep s
    | 6 => ctrlRelease env s
    | 7 => ctrlReset s
    | _ => ctrlResult 5 s) s

end Sys2Proof.Machine
end

