-- ==== Sys2Proof/Machine/Power.lean ====
section
/-! DEFINITION. Supplies, clocks, the tension loop and DORMANT (file 18). -/

namespace Sys2Proof.Machine

/-! ## Supplies and PD-FDIG (R460, R516) -/

/-- PD-FDIG is off: every coupler presents low to both channels (R516). A source's readback that falls starts its test mask
(R200). -/
def fdigLow (s : State) : State :=
  let s0 := each (List.finRange 8) (fun j s => if s.sin.tp[j].rb then followTp j (maskStart j s) else s) s
  let s1 := each (List.finRange 32) (fun n s => presentEdge n false s) s0
  trackOuts (each (List.finRange 16) (fun k => readbackA k false) s1)

/-- PD-FDIG switches off. -/
def fdigOff (s : State) : State :=
  fdigLow <| (s.onPwr fun p => { p with domains := setBit p.domains 7 false }).onSin fun x => { x with checking := false }

/-- What starts afresh once a returned PD-FDIG is checked (R516): settle tracking, failure counts, widths, readback delays. -/
def fdigFresh (s : State) : State :=
  let s1 := s.onSin fun x =>
    { x with
      checking := false
      i := x.i.map fun i => { i with overN := 0, within := 0, tpFail := false, foreign := 0, forOnce := 0 } }
  let s2 := s1.onHld fun h =>
    { h with
      ev := h.ev.map fun c => { c with tpA := false, tpB := false, forA := 0, forB := 0 }
      out := h.out.map fun c => { c with openFor := 0 } }
  let s3 := s2.onSout fun x => { x with o := x.o.map fun o => { o with width := 0, again := none, goodSince := none, openSince := o.openSince.map fun _ => s.t.tbA } }
  fieldBegin s3

/-- A bank without its supply takes down its test-pulse sources: T0 to T3 with VF1, T4 to T7 with VF2 (R202). -/
def sourcesLost (n : Fin 2) (s : State) : State :=
  each ((List.finRange 8).filter fun j => j.val / 4 == n.val && s.sin.tp[j].rb) (fun j s => followTp j (maskStart j (s.onTp j fun x => { x with raw := false }))) s

/-- PD-FAN is off: what the analog loop die held is gone, the comparators, the modems and a conversion under way (R33, R461). -/
def AlpCh.unpowered (c : AlpCh) : AlpCh :=
  { c with cmp := 0, conv := false, rx := [], tx := [], cd := false, txOn := false, supplyOff := false }

/-- PD-FAN switches off. -/
def fanOff (s : State) : State :=
  (s.onPwr fun p => { p with domains := setBit p.domains 8 false }).onAlp fun x => { x with ch := x.ch.map AlpCh.unpowered }

/-- SUPPLY_PRESENT_CHANGE (Table 18-1, R474): VF1, VF2 or VAN crosses 15.0 V, with the voltage measured in 50 mV. A supply that
falls has the reaction of its bank or of the analog channels, and switches off the domain it alone carries; in DORMANT those
domains are off already, and the wake looks at the supplies. -/
def supplyChange (which : Fin 3) (present : Bool) (meas : BitVec 10) (s : State) : State :=
  let was := if which = 0 then s.pwr.vf1 else if which = 1 then s.pwr.vf2 else s.pwr.van
  let s1 := s.onPwr fun p =>
    if which = 0 then { p with vf1 := present, vf1Meas := meas }
    else if which = 1 then { p with vf2 := present, vf2Meas := meas }
    else { p with van := present, vanMeas := meas }
  if was = present || !s.pwr.good then s1
  else
    let s2 := supplyEvent s1
    if present || s.sys.clockWait || s.pwr.resetN || s.sys.runState == .dormant then s2
    else if which = 2 then vanLowAll (fanOff s2)
    else
      let n : Fin 2 := Fin.ofNat 2 which.val
      let s3 := sourcesLost n (if s2.sout.bankCond[n] then s2 else bankFail n s2)
      if !s3.pwr.vf1 && !s3.pwr.vf2 && bit s3.pwr.domains 7 then fdigOff s3 else s3

/-- SUPPLY_PRESENT_CHANGE. -/
def execSupplyPresentChange (which : Fin 3) (present : Bool) (meas : BitVec 10) (s : State) : Outc :=
  .next (noting (supplyChange which present meas) s)

/-- HLD_REGULATOR_FAULT (Table 18-1): the hard logic die opens every switch B and stops its line; LINE_B. -/
def execHldRegulatorFault (s : State) : Outc :=
  .next (if !s.pwr.good || s.sys.clockWait || s.pwr.resetN then s
    else noting (fun s =>
      let s1 := (s.onPwr fun p => { p with hldBad := true }).onHld fun h =>
        { h with h := true, out := h.out.map fun c => { c with closed := false }, gate := h.gate.map fun g => { g with tx := false } }
      devFault (devRep 0x48 0 0) s1) s)

/-- The run states in which PD-FDIG, once back, is configured and checked. -/
def pastLoad (s : State) : Bool :=
  s.pwr.good && !s.sys.clockWait && !s.pwr.resetN &&
    (match s.sys.runState with | .castOn => s.sys.stage == .cross || s.sys.stage == .pattern | .dormant => false | _ => true)

/-- PD_FDIG_RETURN (R516): the domain is on, and levels stay low until it is checked. -/
def execPdFdigReturn (s : State) : Outc :=
  .next (if pastLoad s && (s.pwr.vf1 || s.pwr.vf2) && !bit s.pwr.domains 7 then
      (s.onPwr fun p => { p with domains := setBit p.domains 7 true }).onSin fun x => { x with checking := true }
    else s)

/-- PD_FDIG_CHECK_END (R516). -/
def execPdFdigCheckEnd (ok : Bool) (s : State) : Outc :=
  .next (if !s.sin.checking then s
    else noting (fun s => if ok then fdigFresh s else devFault (devRep 0x4B 10 0x0E) s) s)

/-! ## Clocks (R463) -/

/-- CLOCK_FAIL (R463, R35, R474): timebase A stops. -/
def execClockFail (xtal : Bool) (s : State) : Outc :=
  .next (if !s.pwr.good || s.sys.runState == .dormant || !s.pwr.pllLock then s
    else noting (fun s =>
      let s1 := (s.onPwr fun p => { p with pllLock := false, xtalOk := !xtal, lockLoss := satInc p.lockLoss }).onT fun t =>
        { t with runA := false }
      if s.sys.clockWait || s.pwr.resetN then s1 else devFault (devRep 0x49 0 0) (raise 126 s1)) s)

/-- PLL_LOCK_REGAINED (R474). -/
def execPllLockRegained (s : State) : Outc :=
  .next (if !s.pwr.good || s.pwr.pllLock || s.sys.clockWait || s.pwr.resetN || s.sys.runState == .dormant then s
    else raise 126 (clocksGood s))

/-- Deviation of CK-32K beyond ±2 %. -/
def k32Off (dev : Byte) : Bool := decide (20 < dev.toInt.natAbs)

/-- CLOCK_CHECK (Table 14-3, R474): PLL lock, and CK-32K against timebase A, their reports in ascending code (R369). -/
def clockCheck (dev : Byte) (run : Bool) (s : State) : State :=
  let bad := !run || k32Off dev
  let turn := s.pwr.k32Run != run || k32Off s.pwr.k32Dev != k32Off dev
  let s1 := s.onPwr fun p =>
    { p with k32Run := run, k32Dev := dev, ck32Drift := bad, wakeOn := if run then p.wakeOn.upd 5 fun _ => none else p.wakeOn }
  let s2 := if turn then raise 126 s1 else s1
  let s3 := when (!s.pwr.pllLock) (report (devRep 0x49 0 0)) s2
  let s4 := when bad (report (cntRep 0xAC 0 0)) s3
  if s.pwr.pllLock then s4 else lockoutEntry 0x49 s4

/-- CLOCK_CHECK. -/
def execClockCheck (dev : Byte) (run : Bool) (s : State) : Outc :=
  .next (if s.pwr.good && !s.sys.clockWait && s.sys.runState != .dormant && s.sys.runState != .castOn then noting (clockCheck dev run) s else s)

/-! ## The tension loop (R464, R465, R141, R142) -/

/-- The loop runs from the end of LOAD until entry to DORMANT or HALT (R141, R464). -/
def tensionRuns (s : State) : Bool := pastLoad s && s.sys.runState != .halt

/-- A new setpoint, with TENSION_MAX and the lowest one. -/
def putSetpoint (n : Nat) (p : PwrS) : PwrS :=
  let v : BitVec 5 := BitVec.ofNat 5 (min 28 n)
  { p with setpoint := v, tensionMax := v == 28, lowSet := if v < p.lowSet then v else p.lowSet }

/-- One update of the loop: a raise of R142 in the same update is the larger and stands alone. -/
def tensionStep (rate : BitVec 9) (sensor : BitVec 3) (p : PwrS) : PwrS :=
  let t := max 270 (fld p.tensionCfg 8 0)
  let m := rate.toNat
  let above := if t + 15 < m then min 8 (p.above + 1) else 0
  let sp := p.setpoint.toNat
  let next := if p.raised then sp else if m < t then sp + 1 else if above = 8 then sp - 1 else sp
  putSetpoint next { p with minRate := rate, minSensor := sensor, above := above, raised := false
                            lowest := if rate < p.lowest then rate else p.lowest }

/-- TENSION_UPDATE (R464, R474), with the temperatures of both dies. -/
def execTensionUpdate (rate : BitVec 9) (sensor : BitVec 3) (proc hld : Byte) (s : State) : Outc :=
  .next (let s0 := s.onPwr fun p => { p with tempProc := proc, tempHld := hld }
    if !tensionRuns s then s0
    else
      let s1 := s0.onPwr (tensionStep rate sensor)
      if !s.pwr.tensionMax && s1.pwr.tensionMax then raise 125 s1 else s1)

/-- STEP_RATE_RAISE (R142, R465): 25 mV more, or STEP_RATE_LOW at 0.95 V. -/
def execStepRateRaise (core : Fin 4) (rate : BitVec 9) (s : State) : Outc :=
  .next (if !tensionRuns s || decide (260 ≤ rate.toNat) then s
    else if s.pwr.setpoint = 28 then noting (devFault (devRep 0x43 1 core.val)) s
    else raise 125 <| s.onPwr fun p =>
      putSetpoint (p.setpoint.toNat + 2) { p with emergency := satInc p.emergency, raised := true })

/-! ## DORMANT (R466 to R473) -/

/-- Every hosting core has ended its scan since the SLEEP (R50). -/
def scansEnded (s : State) : Bool := (s.sout.hosting &&& ~~~s.sys.sleepDone) == 0

/-- A connection as both channels hold it in DORMANT: it starts again from the first levels after the wake (R179, R194). -/
def ConnA.restart (c : ConnA) : ConnA :=
  { c with st := if c.locked then .locked else .safe, started := false, guardPend := false, guardRun := false, bandWait := false, unclassed := false
           reported := false }

/-- Channel A's inputs without PD-FDIG, waiting for their first levels. -/
def inputsRestart (x : SinS) : SinS :=
  { x with
    i := x.i.map fun i => { i with present := false, sampled := false, level := false, primed := false, running := false, masked := false, win := none, testWin := none, sampleAt := none, testAt := none, gapAt := none }
    pair := x.pair.map fun p => { p with lo := p.lo.restart, hi := p.hi.restart }
    tp := x.tp.map fun t => { t with drive := false, rb := false, mask := false, due := none, diffAt := none, okSince := none }
    checking := false }

/-- The check of one bank (R468): CRC-32C of its base address and of its words as they read. -/
def bankSum (get : Nat → Byte) (base n : Nat) : Word :=
  crcWords (BitVec.ofNat 32 base :: (List.range (n / 4)).map fun j => bytesWord ((List.range 4).map fun i => get (base + 4 * j + i)))

/-- The checks of the banks of a memory, 16 KiB each and less for the last (R468). -/
def bankSumsOf (get : Nat → Byte) (w : Nat × Nat) : List Word :=
  (List.range ((w.2 + 0x3FFF) / 0x4000)).map fun i => bankSum get (w.1 + 0x4000 * i) (min 0x4000 (w.2 - 0x4000 * i))

/-- The checks of every bank of the retained memories (R468): those of the safety cores, the stitch engines, the boot core's RAM, the
update core with its key store above, and the shared SRAM. -/
def bankSums (m : MemS) : List Word :=
  (((List.finRange 24).filter fun e => e.val < 12 || e.val == 15).flatMap fun e =>
    bankSumsOf (readByte m e) (codeWin m e) ++ bankSumsOf (readByte m e) (dataWin m e)) ++
  bankSumsOf (readByte m 14) (dataWin m 14) ++
  bankSumsOf (fun a => Sparse.get 0 m.keyStore (a - bothBytes 15)) (bothBytes 15, 0x2000) ++
  bankSumsOf (readByte m 14) (0x20000000, 0x200000)

/-- Words that DORMANT has changed in a retained memory (R468). -/
def upsetMem (l : List (Fin 24 × Nat × Word)) (m : MemS) : MemS :=
  l.foldl (fun m x => writeBytes x.1 x.2.1 (wordBytes x.2.2) m) m

/-- PD-NET is off: what the MACs and the controllers held is gone (R33). -/
def LinkS.unpowered (l : LinkS) : LinkS :=
  { l with
    canErr := Tab.fill 2 .active, canRx := Tab.fill 2 [], ethRx := Tab.fill 2 [], canTx := Tab.fill 2 {}, ethTx := Tab.fill 2 {}
    canLen := Tab.fill 2 0, ethLen := Tab.fill 2 0, txBusy := Tab.fill 4 false }

/-- A current-loop channel over DORMANT: PD-FAN is off and its gauge test is to pass again, and channel A's filters and counts start
afresh (R33, R461). -/
def AlpCh.restart (c : AlpCh) : AlpCh :=
  { c.unpowered with
    wf := Tab.fill 2 {}, mm := Tab.fill 4 (0, 0), mmOk := 0, driftOk := 0, gaugeRun := false, gaugeOk := false, passed := false }

/-- Entry to DORMANT (Table 18-5): sessions close, DMA and FREE timers stop, five domains go off, the bank checks are formed,
timebase A is latched and the PLL goes off. -/
def dormantEnter (s : State) : State :=
  let free : Word := maskOf 32 fun n => let c := s.tmr.ch.getN n {}; c.mode == 1 && c.run
  let s1 := ceOff (stopFree (dmaDormant (closeAll s)))
  let s2 := (((s1.onSin inputsRestart).onSout fun x =>
      { x with o := x.o.map fun o => { o with rb := false, pulse := none, test := false } }).onLink LinkS.unpowered).onAlp fun x =>
    { x with ch := x.ch.map AlpCh.restart }
  let s3 := s2.onPwr fun p =>
    { p with
      domains := p.domains &&& 0x037, bankSums := bankSums s1.mem, lost := 0, dormantA := s.t.tbA, freeRun := free
      entries := satInc p.entries, above := 0, raised := false, pllLock := false, supplyEv := false }
  let s4 := s3.onHld fun h =>
    { h with
      h := true, exchArmed := false, inbox := [], waiting := [], mon := h.mon.map fun m => { m with armed := false }
      out := h.out.map fun c => { c with closed := false }, gate := h.gate.map fun g => { g with tx := false } }
  let s5 := s4.onSys fun x => { x with sleeping := false, holding := false, result := if x.result = 1 then 0 else x.result }
  (setRun .dormant 5 (holdAll s5)).onT fun t => { t with runA := false }

/-- RETENTION_SUPPLY_DIP (R468). -/
def execRetentionSupplyDip (d : Fin 10) (s : State) : Outc :=
  .next (if s.sys.runState = .dormant then s.onPwr fun p => { p with lost := setBit p.lost d.val true } else s)

/-- The checks of a wake all pass (R33, R468, R470, R177, R408). -/
def wakeOk (w : WakeEnv) (s : State) : Bool :=
  w.clocksOk && bankSums s.mem == s.pwr.bankSums && s.pwr.lost == 0 && w.storeOk && crcWords s.hld.store.dropLast == s.hld.loadCrc && codeIntact s

/-- Event tasks of the engines restart with none pending (R472). -/
def engineRestart (e : Engine) : Engine :=
  { e with task := none, tasks := 0, resumes := 0, waiting := Tab.fill 16 none, inTrap := false }

/-- FREE timers that ran at entry to DORMANT count on from their held counts (R471). -/
def resumeFree (s : State) : State :=
  s.onTmr fun x =>
    { x with ch := Tab.gen 32 fun n => if bit s.pwr.freeRun n.val then { x.ch[n] with run := true, base := s.t.tbA } else x.ch[n] }

/-- The events of steps 2 and 3 of a wake (R474): a supply bit that changed in DORMANT, the core rail at 0.95 V, PLL lock. -/
def wakeEvents (s : State) : State := raise 126 (raise 125 (when s.pwr.supplyEv (raise 124) s))

/-- SAFE-HOLD after a wake whose checks passed (Table 18-6, R471 to R473, R257, R303). -/
def wakeUp (cause : BitVec 3) (w : WakeEnv) (s0 : State) : State :=
  let s := wakeEvents s0
  let s1 := s.onPwr fun p =>
    { p with
      setpoint := 28, tensionMax := true, supplyEv := false
      domains := maskOf 10 fun i => if i = 6 then true else if i = 7 then p.vf1 || p.vf2 else if i = 8 then p.van else bit p.domains i }
  let s2 := resumeFree s1
  let s3 := each (List.range 24) unlockOwned s2
  let s4 := s3.onEng fun x => { x with e := Tab.gen 24 fun e => if 4 ≤ e.val then engineRestart x.e[e] else x.e[e] }
  let s5 := (s4.onSin slotsFresh).onHld fun h => { h.initCells with h := true, line := .hold, linePrev := .hold, skipNext := true }
  let s6 := armMonitor <| each ((List.finRange 4).filter fun c => bit s.sout.hosting c.val) startInit s5
  let s7 := gaugeAll w.gauge (bankBegin (fieldBegin s6))
  let s8 := quarAll <| raise 127 <| setRun .safeHold (0x80 + cause.zeroExtend 32) s7
  s8.onSys fun x => { x with stage := .none, holdReason := (startUnmet s8).getD 7 }

/-- A wake source is enabled (R469): WAKE and the loss of CK-32K always. -/
def wakeEnabled (s : State) (cause : BitVec 3) : Bool :=
  match cause.toNat with
  | 1 | 5 => true
  | 2 => bit s.pwr.wakeCfg 0 && s.pwr.wakeTimer != 0
  | 3 => bit s.pwr.wakeCfg 1
  | 4 => bit s.pwr.wakeCfg 2
  | _ => false

/-- The cause a wake records: the lowest code of the enabled sources of its CK-32K period (R470). -/
def wakeCode (cause : BitVec 3) (w : WakeEnv) (s : State) : BitVec 3 :=
  (w.also.filter (wakeEnabled s)).foldl (fun a b => if b < a then b else a) cause

/-- A wake (R470, R471): the cause is recorded, timebase A goes on from the value latched at entry, and a failed check is a
cast-on with cause WAKE_FAIL. Outside DORMANT no source wakes anything (R479). -/
def wake (cause : BitVec 3) (w : WakeEnv) (s : State) : State :=
  if s.sys.runState != .dormant || !s.pwr.good || s.pwr.resetN then s
  else
    let c := wakeCode cause w s
    let s1 := (s.onMem (upsetMem w.upset)).onPwr fun p =>
      { p with wakeCause := c, pllLock := w.clocksOk, dormantMs := BitVec.ofNat 32 (min 0xFFFFFFFF (w.periods * 1000 / 32768)) }
    let s2 := s1.onT fun t => { t with runA := w.clocksOk, tbA := s.pwr.dormantA + BitVec.ofNat 64 (w.periods * 390625 / 64) }
    if wakeOk w s1 then wakeUp c w s2 else resetDevice causeWake s2

/-- A source with a level, WAKE, the CAN receive line or the lost CK-32K, becomes active, and in DORMANT it wakes where it is enabled;
or it is active no more (R50, R469). -/
def wakeSource (cause : BitVec 3) (w : WakeEnv) (s : State) : State :=
  let s1 := s.onPwr fun p => { p with wakeOn := p.wakeOn.upd (Fin.ofNat 6 cause.toNat) fun _ => if w.ends then none else some w }
  if w.ends || !wakeEnabled s cause then s1 else wake cause w s1

/-- The wake source that is active at the moment of entry, the lowest cause code of those that are enabled (R50, R470). -/
def activeSource (s : State) : Option (BitVec 3 × WakeEnv) :=
  ([1, 4, 5] : List (BitVec 3)).findSome? fun c =>
    if wakeEnabled s c then (s.pwr.wakeOn[Fin.ofNat 6 c.toNat]).map fun w => (c, w) else none

/-- DORMANT_ENTRY (R50, R466, R467): at the end-of-scan point the conditions are judged once more; a source that is active then
wakes the device at once. Whether the two checkers agree on the CLOSE telegrams is a free value; a disagreement is CSL_CHECK, a
device fault that ends the SLEEP (R288, R53). -/
def execDormantEntry (s : State) : Outc :=
  .next (if !s.sys.sleeping || !scansEnded s || (s.sys.runState != .safeHold && s.sys.runState != .run) then s
    else match sleepBar s with
      | some r => sleepRefuse 3 r (s.onSys fun x => { x with sleeping := false })
      | none =>
        let q := s.takeFree
        if closeFails (Config.writeEnv q.1).agree s then noting (checked false id) q.2
        else noting (fun s =>
          let s1 := dormantEnter s
          match activeSource s with
          | some q => wake q.1 q.2 s1
          | none => s1) q.2)

/-- WAKE_PIN (R469, R479). -/
def execWakePin (w : WakeEnv) (s : State) : Outc := .next (noting (wakeSource 1 w) s)
/-- WAKE_TIMER (R469): the periods of PWR_WAKE_TIMER have been counted. -/
def execWakeTimer (w : WakeEnv) (s : State) : Outc :=
  .next (if bit s.pwr.wakeCfg 0 && s.pwr.wakeTimer != 0 && decide (s.pwr.wakeTimer.toNat ≤ w.periods) then noting (wake 2 w) s else s)
/-- CAN_WAKE (R469). -/
def execCanWake (w : WakeEnv) (s : State) : Outc := .next (noting (wakeSource 4 w) s)
/-- K32_LOST (R469): the watchdog's wake, and EV126 where K32_RUN changes (R474). After DORMANT CK-32K counts as drifted, which bars
SLEEP until a clock check passes (Table 14-3). -/
def execK32Lost (w : WakeEnv) (s : State) : Outc :=
  .next (if w.ends then wakeSource 5 w s
    else if s.sys.runState = .dormant then
      let s1 := noting (wakeSource 5 w) (s.onPwr fun p => { p with k32Run := false, ck32Drift := true })
      report (cntRep 0xAC 0 0) (if s.pwr.k32Run then raise 126 s1 else s1)
    else
      let s1 := wakeSource 5 w (s.onPwr fun p => { p with k32Run := false })
      if s.pwr.k32Run && s.pwr.good then raise 126 s1 else s1)

end Sys2Proof.Machine
end

