-- ==== Sys2Proof/Machine/Update.lean ====
section
/-! DEFINITION. Commissioning, update, trial and life-cycle (file 16), and the settings commit (R447). Commands act only while the
host link serves them (Table 17-5). -/

namespace Sys2Proof.Machine

/-- RESULT of UPD_CMD. -/
def updResult (r : BitVec 4) (s : State) : State := s.onUpd fun u => { u with result := r }

/-- Lease owner code of a source (UPD_LEASE). -/
def leaseCode : Src → BitVec 2
  | .host => 1 | .eth => 2 | .can => 3 | _ => 0

/-- The source holds the lease. -/
def holdsLease (s : State) (src : Src) : Bool := s.upd.owner != 0 && s.upd.owner == leaseCode src

/-- The end of the lease (R423, R430, R431): the target of an update that has not been activated stays invalid. -/
def endLease (reason : Nat) (s : State) : State :=
  if s.upd.owner = 0 then s
  else raise 122 <| logPut 4 .counted 0 0x0002 (BitVec.ofNat 32 reason) <| s.onUpd fun u =>
    { voidTarget u with owner := 0, phase := .idle }

/-- An accepted write of the lease owner (R423). -/
def touchLease (s : State) : State := s.onUpd fun u => { u with leaseAt := s.t.tbA }

/-- A commit or a confirmation runs. -/
def confirmBusy (s : State) : Bool := s.upd.commit.isSome || s.upd.confirming

/-! ## Lease (R422, R423) -/

/-- LEASE_CLAIM (R422). -/
def leaseClaim (src : Src) (key : Half) (s : State) : State :=
  let res := fun (r : BitVec 4) (s : State) => s.onUpd fun u => { u with leaseResult := r }
  if key ≠ 0x3C91 then res 4 s
  else if leaseCode src = 0 then res 2 s
  else if s.upd.owner != 0 || s.upd.armed || confirmBusy s then res 1 s
  else raise 122 <| logPut 4 .counted 0 0x0001 ((leaseCode src).zeroExtend 32) <|
    res 0 (s.onUpd fun u => { u with owner := leaseCode src, leaseAt := s.t.tbA, phase := .idle })

/-- LEASE_RELEASE (R423). -/
def leaseRelease (src : Src) (key : Half) (s : State) : State :=
  let res := fun (r : BitVec 4) (s : State) => s.onUpd fun u => { u with leaseResult := r }
  if key ≠ 0x3C91 then res 4 s
  else if !holdsLease s src then res 3 s
  else res 0 (endLease 1 s)

/-- LEASE_CLAIM. -/
def execLeaseClaim (src : Src) (key : Half) (s : State) : Outc := .next (if ctrlServed s then leaseClaim src key s else s)
/-- LEASE_RELEASE. -/
def execLeaseRelease (src : Src) (key : Half) (s : State) : Outc := .next (if ctrlServed s then leaseRelease src key s else s)
/-- LEASE_TIMEOUT (R423): 30 s without an accepted write. -/
def execLeaseTimeout (s : State) : Outc := .next (if past s s.upd.leaseAt 30000000 then endLease 2 s else s)

/-- A write of UPD_LEASE (UPD_LEASE register). -/
def writeLease (src : Src) (v : Word) (s : State) : State :=
  match fld v 9 8 with
  | 1 => leaseClaim src (v.extractLsb' 16 16) s
  | 2 => leaseRelease src (v.extractLsb' 16 16) s
  | _ => if v.extractLsb' 16 16 ≠ (0x3C91 : Half) then s.onUpd fun u => { u with leaseResult := 4 } else s

/-! ## Update commands (Table 16-9) -/

/-- Another source holds the lease (R422). -/
def foreignLease (s : State) (src : Src) : Bool := s.upd.owner != 0 && !holdsLease s src

/-- What a write of UPD_CMD with a wrong key sets: a source without the lease that another one holds is turned away first (R422). -/
def wrongKey (src : Src) (s : State) : State := updResult (if foreignLease s src then 3 else 4) s

/-- A command of UPD_CMD that the lease guards: the lease of another source first, then the key, then the need of a lease (R422); an
accepted write of the owner counts against inactivity (R423). `needs` marks the commands of Table 16-9 and LIFECYCLE, which only the
owner gives. -/
def updCmd (src : Src) (key : Half) (needs : Bool) (f : State → State) (s : State) : State :=
  if key ≠ 0x9E3D then wrongKey src s
  else if holdsLease s src then f (touchLease s)
  else if needs || s.upd.owner != 0 then updResult 3 s
  else f s

/-- A failed update command: the result, and the lease ends (R423). -/
def updFail (r : BitVec 4) (s : State) : State :=
  (endLease 3 (updResult r s)).onUpd fun u => { u with phase := .failed }

/-- BEGIN (Table 16-9). -/
def updBegin (target : BitVec 2) (s : State) : State :=
  let u := s.upd
  let slot := target.toNat < 2
  if u.phase == .erasing || u.phase == .verifying then updResult 13 s
  else if !flashRuns s then updResult 2 s
  else if target = 3 then updResult 5 s
  else if slot && (u.running == some target || (u.trial && decide (target.toNat = 1 - u.active.toNat % 2))) then updResult 5 s
  else if !slot && s.sys.runState != .safeHold && s.sys.runState != .service then updResult 2 s
  else if (areaOf target.toNat).2 < u.arg.toNat then updResult 5 s
  else s.onUpd fun u =>
    { u with
      target := target, offset := 0, phase := .erasing, result := 1
      flash := flashErase (areaOf target.toNat).1 (areaOf target.toNat).2 u.flash
      slot := u.slot.upd (Fin.ofNat 3 target.toNat) fun _ => {} }

/-- BEGIN. -/
def execUpdBegin (src : Src) (key : Half) (target : BitVec 2) (s : State) : Outc :=
  .next (if ctrlServed s then updCmd src key true (updBegin target) s else s)

/-- ERASE_DONE (R424, R430). -/
def execEraseDone (s : State) : Outc :=
  .next (if s.upd.phase == .erasing && flashRuns s then raise 122 (s.onUpd fun u => { u with phase := .receiving, result := 0 }) else s)

/-- Window words at the write offset (Table 16-9), within the area whatever UPD_ARG holds by then (R402). -/
def windowWrite (words : List Word) (s : State) : State :=
  let u := s.upd
  if u.phase != .receiving || !flashRuns s then updResult 2 s
  else if min u.arg.toNat (areaOf u.target.toNat).2 < u.offset.toNat + 4 * words.length then updFail 9 s
  else s.onUpd fun u =>
    { u with
      flash := flashWrite ((areaOf u.target.toNat).1 + u.offset.toNat) (words.flatMap wordBytes) u.flash
      offset := u.offset + BitVec.ofNat 32 (4 * words.length) }

/-- A write of UPD_WINDOW by a source (R422). -/
def writeWindow (src : Src) (words : List Word) (s : State) : State :=
  if holdsLease s src then windowWrite words (touchLease s) else updResult 3 s

/-- WINDOW_WRITE. -/
def execWindowWrite (src : Src) (words : List Word) (s : State) : Outc :=
  .next (if ctrlServed s then writeWindow src (words.take 64) s else s)

/-- VERIFY (Table 16-9). -/
def updVerify (s : State) : State :=
  if s.upd.phase != .receiving || !flashRuns s then updResult 2 s
  else if s.upd.offset != s.upd.arg then updResult 5 s
  else s.onUpd fun u => { u with phase := .verifying, result := 1 }

/-- VERIFY. -/
def execVerify (src : Src) (key : Half) (s : State) : Outc := .next (if ctrlServed s then updCmd src key true updVerify s else s)

/-- RESULT of the first failing check. -/
def verifyResult (n : Nat) : BitVec 4 := if n = 0 then 0 else if n ≤ 3 then 6 else if n = 4 then 7 else 8

/-- VERIFY_END (R424, R430, R431). -/
def execVerifyEnd (s : State) : Outc :=
  .next (if s.upd.phase != .verifying || !flashRuns s then s
    else
      let r := verifyResult (firstChecks s s.upd.target.toNat).2
      let s1 := raise 122 <| logPut 4 .counted 0 0x0003 (r.zeroExtend 32) (noteSlot s.upd.target.toNat s)
      if r = 0 then s1.onUpd fun u => { u with phase := .verified, result := 0 } else updFail r s1)

/-- First 16 bytes of the hash of header and section table (Table 16-6). -/
def imageTag (f : Sparse Byte) (m : Img) : List Byte := (sha256 (m.bytes f 0 (256 + 48 * m.secs.length))).take 16

/-- A verified update is complete: the lease ends. -/
def updDone (s : State) : State := endLease 0 (s.onUpd fun u => { u with phase := .idle, result := 0 })

/-- ACTIVATE of a slot: the marker, the log, and a cast-on with cause UPDATE. -/
def activateSlot (p : PulseEnv) (m : Img) (s : State) : State :=
  let s1 := (resolveIntents p s).onUpd fun u => readJournal (writeMarker 0x01 (BitVec.ofNat 8 m.area) (m.w 4) (imageTag u.flash m) u)
  resetDevice causeUpdate <| updDone <| raise 122 <| logPut 4 .counted 0 0x0004 (m.w 4) s1

/-- ACTIVATE of the recovery image: counter 2 advances to SV2 under R421. -/
def activateRecovery (p : PulseEnv) (m : Img) (s : State) : State :=
  let two := fun (n : Nat) => halfBytes (BitVec.ofNat 16 n)
  let pay := two (s.otp.arb 0) ++ two (s.otp.arb 1) ++ two (fld (m.w 7) 8 0)
  updDone <| confirmFinish p <| raise 122 <| logPut 4 .counted 0 0x0004 (m.w 4) <| (resolveIntents p s).onUpd fun u => writeMarker 0x20 2 (m.w 4) pay u

/-- ACTIVATE (Table 16-9). -/
def updActivate (p : PulseEnv) (s : State) : State :=
  let t := s.upd.target.toNat
  let held := s.sys.runState == .safeHold || s.sys.runState == .service || s.sys.recovery
  if s.upd.phase != .verified || !flashRuns s || (t != 2 && !held) then updResult 2 s
  else match readImage s.upd.flash t with
    | none => updFail 6 s
    | some m => if t = 2 then activateRecovery p m s else activateSlot p m s

/-- ACTIVATE. -/
def execActivate (src : Src) (key : Half) (p : PulseEnv) (s : State) : Outc :=
  .next (if ctrlServed s then updCmd src key true (updActivate p) s else s)

/-- ABORT (Table 16-9). -/
def updAbort (s : State) : State := endLease 3 (updResult 0 s)

/-- ABORT. -/
def execAbort (src : Src) (key : Half) (s : State) : Outc := .next (if ctrlServed s then updCmd src key true updAbort s else s)

/-! ## Trial (R418 to R421) -/

/-- The trial's time has passed (R418). -/
def trialOver (s : State) : Bool :=
  s.upd.trial && match s.upd.trialTime with | some q => past s q.1 (1000000 * q.2) | none => false

/-- RESULT of a CONFIRM_HEALTH whose confirmation has, or has not, come to its end. -/
def confirmEnd (s : State) : State := updResult (if s.upd.confirming then 1 else 0) s

/-- CONFIRM_HEALTH may come from the host, or from an engine whose task is an integrator slot (R419); the image's opening of the UPD
block to a slot is part of that (DESIGN CHOICE, log 120). -/
def mayConfirm (s : State) (src : Src) : Bool :=
  match src with | .host => true | .engine e => decide (4 ≤ e.val) && (s.eng.e[e].task.any fun t => bit s.eng.e[e].slots t.val) | _ => false

/-- CONFIRM_HEALTH (R419): only in RUN, from a trial image under the health rule whose time has not passed (R420), and with no lease
held. -/
def updConfirm (src : Src) (key : Half) (p : PulseEnv) (s : State) : State :=
  if key ≠ 0x9E3D then wrongKey src s
  else if !mayConfirm s src then s
  else if s.upd.owner != 0 || confirmBusy s then updResult 13 s
  else if s.sys.runState != .run || !s.upd.trial || s.upd.rule || trialOver s then updResult 2 s
  else confirmEnd (confirmFinish p (startConfirm (resolveIntents p s)))

/-- CONFIRM_HEALTH, by the host or a slot task to which the image opens the UPD block. -/
def execConfirmHealth (src : Src) (key : Half) (p : PulseEnv) (s : State) : Outc :=
  .next (if ctrlServed s then updConfirm src key p s else s)

/-- TRIAL_EXPIRY (R420): void while a commit or a confirmation runs. -/
def execTrialExpiry (s : State) : Outc :=
  .next (if !trialOver s || confirmBusy s then s
    else noting (fun s =>
      match s.sys.runState with
      | .run => holdStart .trial s
      | .safeHold | .service | .lockout =>
        fallBack (s.onSys fun x => { x with fallDue := true })
      | _ => s) s)

/-! ## Life-cycle (R428, R429) -/

/-- A region has a word that is not 0 among the first `n`. -/
def holdsData (o : OtpS) (r n : Nat) : Bool := (List.range n).any fun w => o.val r w != 0

/-- The single step of a change that R428 accepts; none where it does not. -/
def lifeStep (s : State) (target : Nat) : Option (PulseEnv → State → BitVec 4 × State) :=
  match s.sys.life, target with
  | .manufacture, 1 => if holdsData s.otp 1 2 && holdsData s.otp 2 32 then some lifeAdvance else none
  | .provisioned, 2 => some lifeAdvance
  | .commissioned, 4 => some lifeAdvance
  | _, _ => none

/-- The change to RETIRED (R429). -/
def retire (p : PulseEnv) (s : State) : State :=
  let s1 := if bit (tapNow s.otp) 2 then s else tapBit p 2 (otpDone s)
  let s2 := (resolveIntents p s1).onUpd fun u => writeMarker 0x40 0 (BitVec.ofNat 32 s.sys.life.code) [] u
  resetDevice causeLife (logLife 5 (retireBits p s2))

/-- LIFECYCLE (R428, R54). -/
def updLifecycle (p : PulseEnv) (s : State) : State :=
  if s.sys.runState != .safeHold && s.sys.runState != .service then updResult 2 s
  else if s.upd.arg = 5 then
    match s.upd.retireAt with
    | some t => if since s t ≤ 2000000000 then retire p s else updResult 0 (s.onUpd fun u => { u with retireAt := some s.t.tbA })
    | none => updResult 0 (s.onUpd fun u => { u with retireAt := some s.t.tbA })
  else match lifeStep s s.upd.arg.toNat with
    | none => updResult 5 s
    | some f =>
      let q := f p s
      if q.1 = 0 then resetDevice causeLife (logLife s.upd.arg.toNat (updResult 0 q.2)) else updResult 5 q.2

/-- LIFECYCLE. -/
def execLifecycle (src : Src) (key : Half) (p : PulseEnv) (s : State) : Outc :=
  .next (if ctrlServed s then updCmd src key true (updLifecycle p) s else s)

/-! ## Commissioning (R412 to R416) -/

/-- The seal has been read (R412): a value unchanged for 50 ms, five reads on, is counted. A match that is lost ends an arming
(R414) and holds the device in RUN; in a HOLD under way it leaves HOLD_REASON 3 at its end (R416). -/
def sealRead (v : BitVec 12) (s : State) : State :=
  let same := if v = s.pwr.sealRead then min 5 (s.pwr.sealSame + 1) else 0
  let s1 := s.onPwr fun p => { p with sealRead := v, sealSame := same, sealValue := if same = 5 then v else p.sealValue }
  let hit := s1.upd.running.isSome && s1.pwr.sealValue == s1.upd.code.truncate 12
  if same ≠ 5 || hit == s.sys.sealMatch then s1
  else
    let s2 := raise 123 (s1.onSys fun x => { x with sealMatch := hit })
    if hit then s2
    else
      let s3 := disarm s2
      if s3.sys.runState != .run then s3
      else
        let s4 := logPut 4 .counted 0 0x0014 (s3.pwr.sealValue.zeroExtend 32) s3
        if s4.sys.holding then s4.onSys fun x => { x with sealGone := true } else holdStart .seal s4

/-- SEAL_READ. -/
def execSealRead (v : BitVec 12) (s : State) : Outc :=
  .next (if s.pwr.good && !s.sys.clockWait && !s.pwr.resetN && s.sys.runState != .dormant then noting (sealRead v) s else s)

/-- RESULT of the first condition of Table 16-7 that is unmet. -/
def armBar (s : State) : Option (BitVec 4) :=
  if s.sys.runState != .safeHold || s.sys.recovery then some 2
  else if !(s.sys.life == .uncommissioned || s.sys.life == .commissioned || s.sys.life == .serviceLocked) then some 2
  else if s.upd.owner != 0 || confirmBusy s then some 13
  else if s.sys.commitPending || faultPending s then some 5
  else if s.upd.arg != s.upd.code then some 10
  else if !s.sys.sealMatch then some 11
  else if imageCommissioned s then some 14
  else if 512 ≤ s.otp.commCount then some 12
  else none

/-- COMMISSION_ARM (R413, R430, R431). -/
def updArm (src : Src) (key : Half) (s : State) : State :=
  if key ≠ 0x9E3D then wrongKey src s
  else match armBar s with
    | some r => updResult r s
    | none => raise 123 <| logPut 4 .counted 0 0x0010 s.upd.code <|
        s.onUpd fun u => { u with armed := true, armedAt := s.t.tbA, result := 0 }

/-- COMMISSION_ARM. -/
def execCommissionArm (src : Src) (key : Half) (s : State) : Outc := .next (if ctrlServed s then updArm src key s else s)

/-- COMMISSION_CANCEL (R414). -/
def execCommissionCancel (src : Src) (key : Half) (s : State) : Outc :=
  .next (if ctrlServed s then updCmd src key false (fun s => updResult 0 (disarm s)) s else s)

/-- COMMISSION_ARM_EXPIRY (R414): the 120 s have passed. -/
def execCommissionArmExpiry (s : State) : Outc := .next (if past s s.upd.armedAt 120000000 then disarm s else s)

/-- A counted COMMIT edge that does nothing (R415, R430, R431). -/
def commitIgnored (s : State) : State := raise 123 (logPut 4 .counted 0 0x0013 0 s)

/-- A counted COMMIT edge outside DORMANT (R415): an armed commissioning with a matching seal starts its commit, but
not once a trial has expired (R420). -/
def commitEdge (s : State) : State :=
  if s.upd.armed && s.sys.sealMatch && s.upd.commit.isNone && !trialOver s then
    s.onUpd fun u =>
      { u with
        armed := false, trialTime := if u.trial && u.rule then none else u.trialTime
        commit := some { idx := s.otp.commCount, first := s.sys.life == .uncommissioned } }
  else commitIgnored s

/-- COMMIT_EDGE (R415, R469): in DORMANT the activation is spent on a wake; a device held in reset counts no edge. -/
def execCommitEdge (w : WakeEnv) (s : State) : Outc :=
  .next (if s.sys.runState = .dormant then (if bit s.pwr.wakeCfg 1 then noting (wake 3 w) s else s)
    else if ctrlServed s then commitEdge s
    else if !s.pwr.good || s.sys.clockWait || s.pwr.resetN then s else commitIgnored s)

/-- A commit that has come to its end under the commissioning rule of a trial is followed by the confirmation (R419). -/
def commitConfirms (p : PulseEnv) (done : Bool) (s : State) : State :=
  if done && s.upd.trial && s.upd.rule then confirmFinish p (startConfirm (resolveIntents p s)) else s

/-- The end of a commit (Table 2-6 step 5, R54, R53, R419): the done marker, or the discard marker where the counter step did not
burn; then the confirmation it stands for, and the cast-ons that wait. -/
def commitEnd (p : PulseEnv) (c : Commit) (s : State) : State :=
  let burned := bit (s.otp.fuse (otpAddr 5 (c.idx / 32))).n (c.idx % 32)
  let pay := halfBytes (BitVec.ofNat 16 c.idx) ++ [if c.first then 1 else 0]
  let s0 := s.onUpd fun u => { u with commit := none }
  let s1 :=
    if burned then commitDone c.idx c.first s.upd.code s0
    else raise 123 <| logPut 4 .counted 0 0x0012 (BitVec.ofNat 32 c.idx) <| s0.onUpd fun u =>
      readJournal (endIntent 0x12 0 s.upd.code pay u)
  let s2 := commitConfirms p burned s1
  let wait : BitVec 7 := if s2.sys.resetWait then causeHost else 0
  if c.first && burned then resetDevice (causeLife ||| wait) s2
  else if s2.sys.resetWait then resetDevice wait s2
  else if s2.sys.runState == .safeHold then s2.onSys fun x => { x with holdReason := (startUnmet s2).getD 7 }
  else s2

/-- The next timed step of a commit (Table 2-6); without a commit, a confirmation that the entry to SAFE-HOLD started runs to its
end (R418, R421). -/
def commitStep (p : PulseEnv) (s : State) : State :=
  match s.upd.commit with
  | none =>
    if !s.upd.confirming then s
    else if s.upd.result = 1 && s.upd.owner = 0 then confirmEnd (confirmFinish p s) else confirmFinish p s
  | some c =>
    let pay := halfBytes (BitVec.ofNat 16 c.idx) ++ [if c.first then 1 else 0]
    match c.phase with
    | 0 =>
      let s1 := (resolveIntents p s).onUpd fun u => { writeMarker 0x10 0 u.code pay u with commit := some { c with phase := 1 } }
      (otpAdvance p 5 0 16 s1).2
    | 1 =>
      let s1 := s.onUpd fun u => { u with commit := some { c with phase := 2 } }
      if c.first && bit (s.otp.fuse (otpAddr 5 (c.idx / 32))).n (c.idx % 32) then logLife 3 (otpAdvance p 3 0 1 s1).2 else s1
    | _ => commitEnd p c s

/-- COMMIT_STEP_DUE (R55, Table 2-6); a step waits for the flash. -/
def execCommitStepDue (p : PulseEnv) (s : State) : Outc := .next (if flashRuns s then commitStep p s else s)

/-- COMMIT_RETRY (R60); a commit on trial that it completes stands as the confirmation (R419). -/
def execCommitRetry (p : PulseEnv) (s : State) : Outc :=
  .next (if !s.sys.commitPending || s.sys.runState != .safeHold || !flashRuns s then s
    else
      let q := settleCommit p s
      if q.1.sys.commitPending then q.1
      else
        let s1 := commitConfirms p (openCommit (journal s.upd)).isSome q.1
        if q.2 then resetDevice causeLife s1
        else s1.onSys fun x => { x with holdReason := (startUnmet s1).getD 7 })

/-- A write of UPD_CMD by its CMD field; `p` is what programming pulses leave. -/
def writeUpdCmd (src : Src) (p : PulseEnv) (v : Word) (s : State) : State :=
  let key : Half := v.extractLsb' 16 16
  match fld v 3 0 with
  | 1 => updCmd src key true (updBegin (v.extractLsb' 4 2)) s
  | 2 => updCmd src key true updVerify s
  | 3 => updCmd src key true (updActivate p) s
  | 4 => updCmd src key true updAbort s
  | 5 => updConfirm src key p s
  | 6 => updArm src key s
  | 7 => updCmd src key false (fun s => updResult 0 (disarm s)) s
  | 8 => updCmd src key true (updLifecycle p) s
  | _ => if key ≠ 0x9E3D then wrongKey src s else if foreignLease s src then updResult 3 s else s

/-! ## Settings (R447) -/

/-- SETTINGS_COMMIT (R447): accepted in SAFE-HOLD, RUN, LOCKOUT and SERVICE. -/
def setCommit (key : Half) (s : State) : State :=
  if key ≠ 0x5E77 then s
  else if !ctrlServed s || confirmBusy s || s.link.setBusy then s.onLink fun l => { l with setResult := 2 }
  else s.onLink fun l => { l with setBusy := true, setResult := 1 }

/-- SETTINGS_COMMIT. -/
def execSettingsCommit (key : Half) (s : State) : Outc := .next (if ctrlServed s then setCommit key s else s)

/-- SETTINGS_COMMIT_DONE: the record 0x10 holds the settings registers, and EV12; where the flash does not answer no record is written,
RESULT 3 (SYS_SET_CMD). -/
def execSettingsCommitDone (s : State) : Outc :=
  .next (if s.link.setBusy then
      let b := SetBody.settings ((s.upd.hdr.getN 5 0).truncate 16) s.link.set
      raise 12 <| ((s.keepRec b).onUpd fun u => { u with newSet := u.newSet && !flashRuns s }).onLink
        fun l => { l with setBusy := false, setResult := if flashRuns s then 0 else 3 }
    else s)

end Sys2Proof.Machine
end

