-- ==== Sys2Proof/Machine/SelfTest.lean ====
section
/-! DEFINITION. The background tests of Table 14-3 and the commands of DIAG (R369 to R373). -/

namespace Sys2Proof.Machine

/-- The background tests run (Table 14-3). -/
def testsRun (s : State) : Bool := ctrlServed s

/-- RESULT of DIAG_CMD. -/
def diagResult (r : BitVec 4) (s : State) : State := s.onDiag fun d => { d with result := r }

/-- CLEAR_ENTRY (R369): counted-only, local and group entries. -/
def clearEntry (i : Fin 256) (s : State) : State :=
  let e := s.diag.rct[i]
  if !e.valid then diagResult 0 s
  else match e.cls with
    | .counted | .loc | .group => diagResult 0 (s.onDiag fun d => { d with rct := d.rct.upd i fun _ => {} })
    | _ => diagResult 4 s

/-- CLEAR_COUNTED (R369). -/
def clearCounted (s : State) : State :=
  diagResult 0 <| s.onDiag fun d => { d with rct := d.rct.map fun e => if e.valid && e.cls == .counted then {} else e }

/-- CLEAR_ENTRY. -/
def execClearEntry (i : Fin 256) (s : State) : Outc := .next (if ctrlServed s then clearEntry i s else s)
/-- CLEAR_COUNTED. -/
def execClearCounted (s : State) : Outc := .next (if ctrlServed s then clearCounted s else s)
/-- SWITCH_TEST (R373). -/
def execSwitchTest (k : Fin 16) (s : State) : Outc := .next (if ctrlServed s then noting (switchTest k) s else s)
/-- DIAG_UNDEFINED_CMD (R369): CMD 0 and 4–15. A CMD that is defined is no such write. -/
def execDiagUndefinedCmd (cmd : BitVec 4) (s : State) : Outc :=
  .next (if ctrlServed s && !(1 ≤ cmd.toNat ∧ cmd.toNat ≤ 3) then diagResult 5 s else s)

/-- A write of DIAG_CMD by its fields. -/
def writeDiagCmd (v : Word) (s : State) : State :=
  match fld v 3 0 with
  | 1 => clearEntry (Fin.ofNat 256 (fld v 11 4)) s
  | 2 => clearCounted s
  | 3 => if fld v 11 4 < 16 then noting (switchTest (Fin.ofNat 16 (fld v 11 4))) s else s
  | _ => diagResult 5 s

/-- LOG_ARCHIVE (R370). -/
def execLogArchive (s : State) : Outc := .next (if ctrlServed s then archiveLog s else s)

/-- A word that a memory pass finds with failing check bits: the memory (16 stands for the shared SRAM), its address, and whether
it is not correctable (R72, Table 14-3). A corrected word is written again; one that is not correctable traps in the core that runs the
pass, TEST on a safety core, a service task on the boot core (R86). -/
def memFound (x : Fin 17 × Nat × Bool) (s : State) : State :=
  let e : Fin 24 := if x.1 = 16 then 14 else Fin.ofNat 24 x.1.val
  if !x.2.2 then (eccCorrected e x.2.1 s).onMem (eccSet e x.2.1 none)
  else
    let s1 := s.onMem (eccSet e x.2.1 (some true))
    if x.1.val < 4 then
      let c : Fin 4 := Fin.ofNat 4 x.1.val
      if s.eng.e[e].on && s.eng.c[c].mode == 1 then
        let s2 := freeTrap e 0xFFFF 0x0203 s1
        coreTrap c 0x03 ((s2.eng.e[e].trapc).extractLsb' 16 16) s2
      else s1
    else devFault (devRep 0x42 10 0x0E) (freeTrap 14 0xFF 0x03 s1)

/-- MEMORY_PASS (Table 14-3): what the pass finds, in order. -/
def execMemoryPass (found : List (Fin 17 × Nat × Bool)) (s : State) : Outc :=
  .next (if testsRun s then noting (each found memFound) s else s)

/-- KNOWN_ANSWER (Table 14-3): the test of a hosting safety core. -/
def execKnownAnswer (core : Fin 4) (ok : Bool) (s : State) : Outc :=
  .next (if testsRun s && !ok && bit s.sout.hosting core.val && s.eng.e[engOf core].on then noting (devFault (devRep 0x4B 1 core.val)) s else s)

/-- CODE_REHASH (Table 14-3). -/
def execCodeRehash (s : State) : Outc :=
  .next (if testsRun s && !codeIntact s then noting (devFault (devRep 0x4B 10 0x0E)) s else s)

/-- SELFTEST_LATE (R371): a safety core's test, or one of the boot core. -/
def execSelftestLate (core : Option (Fin 4)) (s : State) : Outc :=
  .next (if !testsRun s then s
    else match core with
      | some c => if bit s.sout.hosting c.val then noting (devFault (devRep 0x4A 1 c.val)) s else s
      | none => noting (devFault (devRep 0x4A 10 0x0E)) s)

end Sys2Proof.Machine
end

