-- ==== Sys2Proof/Machine/RegWrite.lean ====
section
/-! DEFINITION. Writes of the register space (R439, R458): what a write of one word does by its address, source and access
code, and the write rows that no other file holds. A reserved, read-only or unassigned word ignores writes (R5). -/

namespace Sys2Proof.Machine

/-- Gives a write what it meets on its way, a free value. -/
def withEnv (f : Config.WriteEnv → State → State) (s : State) : State :=
  let q := s.takeFree
  f (Config.writeEnv q.1) q.2

/-- Changes the settings registers. -/
def onSet (f : NetSet → NetSet) (s : State) : State := s.onLink fun l => { l with set := f l.set }

/-- Word `k` of 128 bits becomes `v`. -/
def putWord (b : BitVec 128) (k : Nat) (v : Word) : BitVec 128 :=
  (b &&& ~~~(BitVec.ofNat 128 (0xFFFFFFFF * 2 ^ (32 * k)))) ||| BitVec.ofNat 128 (v.toNat * 2 ^ (32 * k))

/-- The host clears event flags (EVT_PENDk, W1C). -/
def pendClear (k : Nat) (mask : Word) (s : State) : State :=
  s.onEvt fun x => { x with pend := putWord x.pend k (flagWord x.pend k &&& ~~~mask) }

/-- A write of mailbox word `n` by a source (R449): words 0–31 by the host link, others by their named writer. -/
def mbxMay (s : State) (src : Src) (n : Nat) : Bool :=
  if n < 32 then src == .host
  else match src with
    | .engine e => decide (n < 64) && (s.link.mbxWriter.getN (n - 32) 0x1F).toNat == e.val
    | _ => false

/-- Stores a mailbox word and raises its event (R449, R452). -/
def mbxStore (n : Nat) (v : Word) (s : State) : State :=
  raise (if n < 32 then 6 else 7) <| s.onLink fun l =>
    { l with mbx := Tab.gen 64 fun i => if i.val = n then v else l.mbx[i] }

/-- Writes of SYS. -/
def wrSys (src : Src) (off : Nat) (v : Word) (s : State) : State :=
  if off = 0x14 then withEnv (fun w => noting (writeCtrl w.reeval v)) s
  else if off = 0x18 then s.onSys fun x => { x with cause := x.cause &&& ~~~(v.truncate 7) }
  else if off = 0x420 then onSet (fun n => { n with svc := v &&& 0x7FFFF }) s
  else if off = 0x424 then onSet (fun n => { n with reqId := v }) s
  else if off = 0x428 then onSet (fun n => { n with rspId := v }) s
  else if off = 0x440 then (if fld v 3 0 = 1 then setCommit (v.extractLsb' 16 16) s else s)
  else match slotAt 0x100 4 64 off, slotAt 0x400 0x10 2 off, slotAt 0x430 4 2 off with
    | some (n, _), _, _ => if mbxMay s src n then mbxStore n v s else s
    | _, some (i, r), _ =>
      let j : Fin 2 := Fin.ofNat 2 i
      if r = 0 then onSet (fun n => { n with ip := n.ip.upd j fun _ => v }) s
      else if r = 4 then onSet (fun n => { n with mask := n.mask.upd j fun _ => v }) s
      else if r = 8 then onSet (fun n => { n with gw := n.gw.upd j fun _ => v }) s
      else s
    | _, _, some (c, _) => onSet (fun n => { n with can := n.can.upd (Fin.ofNat 2 c) fun _ => v &&& 0xFFFFFF }) s
    | _, _, _ => s

/-- Writes of EVT. -/
def wrEvt (off : Nat) (v : Word) (s : State) : State :=
  match slotAt 0 4 4 off, slotAt 0x10 4 4 off with
  | some (k, _), _ => pendClear k v s
  | _, some (k, _) => onSet (fun n => { n with irqen := putWord n.irqen k v }) s
  | _, _ => s

/-! ## The rights of engines to the register space (R451) -/

/-- An engine may read the register at `a` through HREG (Table 17-9). -/
def hregReads (e : Fin 24) (a : Nat) : Bool := clsOf e != .sc && (blockAt a).isSome

/-- The resource that the register at `a` belongs to is the engine's: a timer channel, an analog channel, a check-value unit or a DMA
channel; a register that names its resource in the value written is open, and the block judges the value. -/
def ownsReg (s : State) (e : Fin 24) (a : Nat) : Bool :=
  match blockAt a with
  | some (.tmr, o) => (match slotAt 0 0x40 32 o with | some (n, _) => tmrOwner s.tmr (Fin.ofNat 32 n) == e.val | none => true)
  | some (.alp, o) => (match slotAt 0 0x40 8 o with | some (n, _) => alpOwns (s.alp.ch.getN n {}) (.engine e) | none => true)
  | some (.cvu, o) =>
    (match slotAt 0 0x40 4 o, slotAt 0x1000 0x20 16 o with
      | some (u, _), _ => (s.cvu.u.getN u {}).owner == e.val
      | none, some (d, _) => (s.cvu.d.getN d {}).owner == e.val
      | none, none => true)
  | _ => true

/-- An engine may write the register at `a` (Table 17-9): the registers of its resources and its own mailbox words; the boot core every
block, but a check-value unit's registers to the unit's owner alone (R348). -/
def hregWrites (s : State) (e : Fin 24) (a : Nat) : Bool :=
  match clsOf e, blockAt a with
  | .sc, _ | _, none => false
  | .bc, some (.sys, o) => !(slotAt 0x100 4 64 o).isSome || mbxMay s (.engine e) ((o - 0x100) / 4)
  | .bc, some (.cvu, o) => !(slotAt 0 0x40 4 o).isSome || ownsReg s e a
  | .bc, some _ => true
  | _, some (.sys, o) => (slotAt 0x100 4 64 o).isSome && mbxMay s (.engine e) ((o - 0x100) / 4)
  | _, some (.tmr, _) | _, some (.alp, _) | _, some (.cvu, _) => ownsReg s e a
  | .uc, some (.upd, _) | .uc, some (.otp, _) => true
  | _, _ => false

/-- Writes of TMR (R242). -/
def wrTmr (src : Src) (off : Nat) (v : Word) (s : State) : State :=
  if off = 0x800 then
    match fld v 10 8 with
    | 1 => tmrStart src (Fin.ofNat 32 (fld v 4 0)) s
    | 2 => tmrStop src (Fin.ofNat 32 (fld v 4 0)) s
    | 3 => tmrSnap src (Fin.ofNat 16 (fld v 19 16)) s
    | _ => s
  else match slotAt 0 0x40 32 off with
    | some (n, r) =>
      if r = 0x14 then ownCmp src (Fin.ofNat 32 n) v s
      else if r = 0x18 then ownCount src (Fin.ofNat 32 n) v s
      else s
    | none => s

/-- ALP_CMD of channel `n` takes an engine's commands for the channels it owns alone, but for the boot core's (Table 17-9). -/
def alpMay (src : Src) (n : Fin 8) (s : State) : Bool :=
  match src with
  | .engine e => clsOf e == .bc || alpOwns s.alp.ch[n] src
  | .dma => false
  | _ => true

/-- Writes of ALP (R266, R276, R278). -/
def wrAlp (src : Src) (off : Nat) (v : Word) (s : State) : State :=
  if off = 0x400 then
    let n : Fin 8 := Fin.ofNat 8 (fld v 2 0)
    let u : Half := v.extractLsb' 8 16
    if !alpMay src n s then s else noting (fun s => match fld v 7 4 with
      | 1 => gaugeTest n s
      | 2 => trimArm n s
      | 3 => trimCmd false n s
      | 4 => trimCmd true n s
      | 5 => trimClear n s
      | 6 => trimOut false n u s
      | 7 => trimOut true n u s
      | _ => s) s
  else match slotAt 0 0x40 8 off with
    | some (n, r) => if r = 0x0C then noting (writeSet src (Fin.ofNat 8 n) (v.truncate 16)) s else s
    | none => s

/-- Writes of CSL: the host's telegrams (R315). -/
def wrCsl (src : Src) (off : Nat) (ws : List Word) (s : State) : State :=
  if off = 0x4280 ∧ src = .host then hlSubmit ws s else s

/-- Writes of CSC (R328, R333, R334, R337); none on the TK9640-EN (R320). -/
def wrCsc (off : Nat) (v : Word) (s : State) : State :=
  if cscAbsent s then s
  else if off = 0x1000 then
    let p : Fin 4 := Fin.ofNat 4 (fld v 1 0)
    let a : BitVec 10 := v.extractLsb' 8 10
    match fld v 7 4 with
    | 1 => cscStart p s
    | 2 => cscStop p s
    | 3 => cscPair p a s
    | 4 => cscUnpair p a s
    | 5 => cscPoll p a s
    | _ => s
  else if off = 0x1004 then s.onCsc fun c => { c with pairSn := (c.pairSn.extractLsb' 32 16 : Half) ++ v }
  else if off = 0x1008 then s.onCsc fun c => { c with pairSn := (v.truncate 16 : Half) ++ (c.pairSn.truncate 32 : Word) }
  else s

/-- Writes of CVU and DMA (R348 to R357). -/
def wrCvu (src : Src) (off : Nat) (v : Word) (s : State) : State :=
  match slotAt 0 0x40 4 off, slotAt 0x1000 0x20 16 off with
  | some (n, r), _ =>
    let u : Fin 4 := Fin.ofNat 4 n
    if r = 0x14 then cvuValue src u v s
    else if r = 0x18 then cvuContext src u 0 v s
    else if r = 0x1C then cvuContext src u 1 v s
    else if r = 0x20 then cvuContext src u 2 v s
    else if r = 0x24 then withEnv (fun w => noting (cvuFeed src u v w.agree)) s
    else if r = 0x28 then withEnv (fun w => noting (cvuFold src u (fld v 1 0) w.agree)) s
    else s
  | _, some (n, r) =>
    let d : Fin 16 := Fin.ofNat 16 n
    if r = 0x04 then dmaWrite src d 0 v s
    else if r = 0x08 then dmaWrite src d 1 v s
    else if r = 0x0C then dmaWrite src d 2 v s
    else if r = 0x10 then (match fld v 1 0 with | 1 => withEnv (fun w => noting (dmaStart src d w.agree)) s | 2 => dmaStop src d s | _ => s)
    else s
  | _, _ => s

/-- A write of OTP_CMD (R389 to R398). -/
def writeOtpCmd (src : Src) (p : PulseEnv) (v : Word) (s : State) : State :=
  let key : Half := v.extractLsb' 16 16
  match fld v 3 0 with
  | 1 => otpRead src key s
  | 2 => otpProg src key p s
  | 3 => otpCompute src key s
  | 4 => otpLock src key p s
  | 5 => otpReadLock src key p s
  | 6 => otpArm src key s
  | 7 => otpForce src key p s
  | 8 => otpSticky src key s
  | 9 => otpSetMode src key p s
  | 10 => otpSetPolicy src key p s
  | 11 => otpTap src key p s
  | _ => match otpRefused src key true none s with
    | some r => otpResult r s
    | none => s

/-- Writes of OTP. -/
def wrOtp (src : Src) (off : Nat) (v : Word) (s : State) : State :=
  if off = 0x30 then s.onOtp fun o => { o with addr := v &&& 0x3F0F7F }
  else if off = 0x34 then s.onOtp fun o => { o with data := v }
  else if off = 0x38 then withEnv (fun w => writeOtpCmd src w.pulse v) s
  else s

/-- Writes of UPD; while the lease is held, UPD_ARG, UPD_OFFSET and UPD_WINDOW take writes of its owner only (R422). -/
def wrUpd (src : Src) (off : Nat) (ws : List Word) (s : State) : State :=
  let v := ws.getD 0 0
  let held := s.upd.owner != 0
  if off = 0x00 then writeLease src v s
  else if off = 0x04 then withEnv (fun w => noting (writeUpdCmd src w.pulse v)) s
  else if off = 0x08 ∨ off = 0x0C then
    if held && !holdsLease s src then updResult 3 s
    else
      let s1 := if held then touchLease s else s
      if off = 0x08 then s1.onUpd fun u => { u with arg := v } else s1
  else if 0x1000 ≤ off ∧ off < 0x1100 then writeWindow src ws s
  else s

/-- Writes of PWR. -/
def wrPwr (off : Nat) (v : Word) (s : State) : State :=
  if off = 0x20 then s.onPwr fun p => { p with wakeCfg := v &&& 0xF }
  else if off = 0x24 then s.onPwr fun p => { p with wakeTimer := v }
  else s

/-- Writes of DIAG (R369, R373). -/
def wrDiag (off : Nat) (v : Word) (s : State) : State :=
  if off = 0x08 then writeDiagCmd v s
  else if off = 0x3004 then s.onDiag fun d => { d with archIdx := v.truncate 18 }
  else s

/-- Writes the words of a burst that one register takes together: all of them at CSL_HL_RX and UPD_WINDOW, one elsewhere. -/
def writeWords (src : Src) (a : Nat) (ws : List Word) (s : State) : State :=
  let v := ws.getD 0 0
  match blockAt a with
  | some (.sys, o) => wrSys src o v s
  | some (.evt, o) => wrEvt o v s
  | some (.tmr, o) => wrTmr src o v s
  | some (.alp, o) => wrAlp src o v s
  | some (.csl, o) => wrCsl src o ws s
  | some (.csc, o) => wrCsc o v s
  | some (.cvu, o) => wrCvu src o v s
  | some (.otp, o) => wrOtp src o v s
  | some (.upd, o) => wrUpd src o ws s
  | some (.pwr, o) => wrPwr o v s
  | some (.diag, o) => wrDiag o v s
  | _ => s

/-- A write of one register. -/
def writeReg (src : Src) (a : Nat) (v : Word) (s : State) : State := writeWords src a [v] s

/-- The words of a write frame in ascending order (R439); a cast-on that one of them starts ends the burst. -/
def writeEach (src : Src) : Nat → List Word → State → State
  | _, [], s => s
  | a, v :: ws, s => if ctrlServed s then writeEach src (a + 4) ws (writeReg src a v s) else s

/-- A write frame: one that starts at CSL_HL_RX or UPD_WINDOW is taken as a whole (R315, R424). -/
def writeFrameAt (src : Src) (a : Nat) (ws : List Word) (s : State) : State :=
  if a = 0x064280 ∨ a = 0x0A1000 then writeWords src a ws s else writeEach src a ws s

/-- Registers that a service path may write (R444). -/
def serviceMay (a : Nat) : Bool :=
  (decide (0x0A0000 ≤ a) && decide (a < 0x0B0000)) || a == 0x420 || a == 0x440 || a == 0x430 || a == 0x434 ||
    [0x400, 0x404, 0x408, 0x410, 0x414, 0x418].contains a

/-- A source may write the register at `a`, as its path or engine has it (R444, R451). -/
def srcMay (src : Src) (a : Nat) : Bool :=
  match src with
  | .eth | .can => serviceMay a
  | _ => (blockAt a).isSome


/-- The owner of the lowest-numbered running channel whose next element goes to the register at `a` (R356, R358). -/
def dmaWriter (a : Nat) (s : State) : Option (Fin 24) :=
  ((List.finRange 16).find? fun d => s.cvu.d[d].busy && s.cvu.d[d].burst != 0 && s.cvu.d[d].dst.toNat == 0x30000000 + a).bind fun d =>
    if h : s.cvu.d[d].owner < 24 then some ⟨s.cvu.d[d].owner, h⟩ else none

/-- REGISTER_WRITE (R439): a write of one register; host and service paths only where the run state serves them, an engine and a DMA
channel with the rights of Table 17-9. -/
def execRegisterWrite (src : Src) (addr : BitVec 24) (v : Word) (s : State) : Outc :=
  .next (
    let go := fun src s => if addr.toNat % 4 == 0 then writeReg src addr.toNat v s else s
    match src with
    | .host | .eth | .can => if srcMay src addr.toNat then fromHost (go src) s else s
    | .engine e => if hregWrites s e addr.toNat then go src s else s
    | .dma => match dmaWriter addr.toNat s with
      | some e => if hregWrites s e addr.toNat then go (.engine e) s else s
      | none => s)

/-- MBX_WRITE (R449). -/
def execMbxWrite (n : Fin 32) (v : Word) (s : State) : Outc := .next (fromHost (mbxStore n.val v) s)

/-- EVT_PEND_CLEAR (R454). -/
def execEvtPendClear (k : Fin 4) (mask : Word) (s : State) : Outc := .next (fromHost (pendClear k.val mask) s)

end Sys2Proof.Machine
end

