-- ==== Sys2Proof/Machine/Link.lean ====
section
/-! DEFINITION. The frames of the host link and of the service paths (R433 to R444): check code, checks in order, retry,
execution and response. -/

namespace Sys2Proof.Machine

/-- The paths on which requests arrive: 0 host link, 1 Ethernet service, 2 CAN service. -/
abbrev Path := Fin 3

/-- The path as a source of accesses. -/
def pathSrc (p : Path) : Src := if p = 0 then .host else if p = 1 then .eth else .can

/-- Header bytes of a request (Table 17-1). -/
def frameHeader (cmd : Byte) (f : Frame) : List Byte :=
  [cmd, f.seq, f.addr.extractLsb' 0 8, f.addr.extractLsb' 8 8, f.addr.extractLsb' 16 8, f.count] ++ halfBytes f.pad

/-- The four commands of Table 17-2. -/
def knownCmd (cmd : Byte) : Bool := cmd == 0xA1 || cmd == 0xA2 || cmd == 0xA4 || cmd == 0xA8

/-- Payload words of a request (Table 17-2). -/
def reqWords (cmd : Byte) (count : Byte) : Nat := if cmd = 0xA2 then count.toNat else if cmd = 0xA8 then 1 else 0

/-- What enters the check code ahead of the header: on a service path CSL_ID, then the context word, whose incarnation is 0
for the status command (R435, R444). -/
def linkCtx (s : State) (p : Path) (cmd seq : Byte) : List Byte :=
  (if p = 0 then [] else wordBytes s.csl.id) ++ wordBytes (((if cmd = 0xA4 then 0 else s.link.inc) : BitVec 24) ++ seq)

/-- The check code of a request (R435). -/
def reqCrc (s : State) (p : Path) (cmd : Byte) (f : Frame) : Word :=
  crc32c (linkCtx s p cmd f.seq ++ frameHeader cmd f ++ f.payload)

/-- Check 1 of Table 17-4. -/
def crcGood (s : State) (p : Path) (cmd : Byte) (f : Frame) : Bool :=
  f.payload.length % 4 == 0 && f.crc == reqCrc s p cmd f &&
    (!knownCmd cmd || f.payload.length == 4 * reqWords cmd f.count)

/-- Check 2 of Table 17-4, with the limits of R443. -/
def formatGood (p : Path) (cmd : Byte) (f : Frame) : Bool :=
  f.pad == 0 &&
    (if cmd = 0xA1 ∨ cmd = 0xA2 then
      decide (1 ≤ f.count.toNat) && decide (f.count.toNat ≤ if p = 2 then 13 else 64) && f.addr.toNat % 4 == 0
    else if cmd = 0xA4 then f.addr == 0 && f.count == 4
    else if cmd = 0xA8 then p == 0 && f.addr == 0 && f.count == 1
    else false)

/-- The register addresses of a burst. -/
def burst (f : Frame) : List Nat := (List.range f.count.toNat).map fun i => f.addr.toNat + 4 * i

/-- Check 3 of Table 17-4: the run state serves the request (Table 17-5). -/
def stateGood (s : State) (cmd : Byte) (f : Frame) : Bool :=
  cmd == 0xA4 || ctrlServed s ||
    (cmd == 0xA1 &&
      match s.sys.runState with
      | .castOn => (burst f).all fun a => a == 0x00 || a == 0x10
      | .halt => (burst f).all fun a => match blockAt a with | some (b, _) => b == .sys || b == .diag | none => false
      | _ => false)

/-- Check 4 of Table 17-4 (R444, R458). -/
def addrGood (p : Path) (cmd : Byte) (f : Frame) : Bool :=
  if cmd = 0xA1 then (burst f).all fun a => (blockAt a).isSome
  else if cmd = 0xA2 then (burst f).all fun a => (blockAt a).isSome && srcMay (pathSrc p) a
  else true

/-- No response comes: no power, held in reset, before the end of SENSE, or DORMANT (R44, R441). -/
def linkSilent (s : State) : Bool :=
  !s.pwr.good || s.sys.clockWait || s.sys.runState == .dormant ||
    (s.sys.runState == .castOn && (s.sys.stage == .tap || s.sys.stage == .sense))

/-- A response (Table 17-3): the context is that of the request. -/
def respBytes (ctx : List Byte) (status : Byte) (f : Frame) (ws : List Word) (s : State) : List Byte :=
  let b := [status, f.seq, f.addr.extractLsb' 0 8, f.addr.extractLsb' 8 8, f.addr.extractLsb' 16 8,
      BitVec.ofNat 8 ws.length, BitVec.ofNat 8 (s.sys.runState.code + 16 * s.sys.stage.code), if irqN s then 1 else 0] ++
    ws.flatMap wordBytes
  b ++ wordBytes (crc32c (ctx ++ b))

/-- Counts a NAK 0x81 and raises EV8 at most once per 10 ms (R452). -/
def nakCrc (s : State) : State :=
  let s1 := s.onLink fun l => { l with errCrc := satInc l.errCrc }
  let late := match s.link.ev8At with | none => true | some t => decide (usec 10000 ≤ since s t)
  if late then raise 8 (s1.onLink fun l => { l with ev8At := some s.t.tbA }) else s1

/-- Counts a NAK 0x82. -/
def nakFormat (s : State) : State := s.onLink fun l => { l with errFormat := satInc l.errFormat }

/-- The effect of a request that passed every check, with the words of its answer (R434, R439). -/
def linkDo (p : Path) (cmd : Byte) (f : Frame) (s : State) : List Word × State :=
  let a := f.addr.toNat
  if cmd = 0xA1 then
    if p = 0 ∧ a = 0x064200 ∧ f.count = 20 then hlTake s else readRegs (pathSrc p) f.count.toNat a s
  else if cmd = 0xA2 then ([], writeFrameAt (pathSrc p) a (bytesWords f.payload) s)
  else if cmd = 0xA4 then ([sysStatus s, at_ s.link.inc.toNat 0, sysCause s, irqWord s], s)
  else
    let s1 := writeLease .host (at_ ((bytesWord f.payload).toNat % 4) 8 ||| 0x3C910000) s
    ([updLease s1], s1)

/-- The first refusal of checks 2 to 4 (Table 17-4). -/
def refusal (p : Path) (cmd : Byte) (f : Frame) (s : State) : Option Byte :=
  if !formatGood p cmd f then some 0x82
  else if !stateGood s cmd f then some 0x84
  else if !addrGood p cmd f then some 0x83
  else none

/-- A request is judged, and its answer formed (Table 17-4, R437, R438); `whole` tells that its bytes are whole words, at
least 12 of them. None where the device is silent, as it is from a cast-on that the request itself starts. -/
def serve (p : Path) (cmd : Byte) (whole : Bool) (f : Frame) (s : State) : Option (List Byte) × State :=
  if linkSilent s then (none, s)
  else
    let ctx := linkCtx s p cmd f.seq
    let r := s.link.retry[p]
    if !(whole && crcGood s p cmd f) then
      let s1 := nakCrc s
      (some (respBytes ctx 0x81 f [] s1), s1)
    else if r.valid && r.seq == f.seq && r.crc == f.crc then (some r.resp, s)
    else match refusal p cmd f s with
      | some n =>
        let s1 := if n = 0x82 then nakFormat s else s
        (some (respBytes ctx n f [] s1), s1)
      | none =>
        let q := linkDo p cmd f s
        let b := respBytes ctx 0 f q.1 q.2
        if linkSilent q.2 then (none, q.2)
        else (some b, q.2.onLink fun l => { l with retry := l.retry.upd p fun _ => ⟨true, f.seq, f.crc, b⟩ })

/-- A request on the host link; the response is what the host clocks out. -/
def hostFrame (cmd : Byte) (f : Frame) (s : State) : State :=
  let q := serve 0 cmd true f s
  q.2.onLink fun l => { l with resp := l.resp.upd 0 fun _ => q.1.getD [] }

/-- READ (0xA1). -/
def execReadFrame (f : Frame) (s : State) : Outc := .next (hostFrame 0xA1 f s)

/-- WRITE (0xA2). -/
def execWriteFrame (f : Frame) (s : State) : Outc := .next (hostFrame 0xA2 f s)

/-- STATUS (0xA4). -/
def execStatusFrame (f : Frame) (s : State) : Outc := .next (hostFrame 0xA4 f s)

/-- LEASE (0xA8). -/
def execLeaseFrame (f : Frame) (s : State) : Outc := .next (hostFrame 0xA8 f s)

/-- UNKNOWN_FRAME: a command byte outside Table 17-2. -/
def execUnknownFrame (cmd : Byte) (f : Frame) (s : State) : Outc := .next (if knownCmd cmd then s else hostFrame cmd f s)

/-- TRANSACTION_ABORT (R433): a request that was complete is executed and its response kept for retry; chip select then ends the
transaction, which is counted. -/
def execTransactionAbort (req : Option (Byte × Frame)) (s : State) : Outc :=
  .next (if linkSilent s then s
    else
      let s1 := match req with | none => s | some (cmd, f) => (serve 0 cmd true f s).2
      if linkSilent s1 then s1 else s1.onLink fun l => { l with errAborted := satInc l.errAborted })

/-! ## Requests as bytes, on the service paths (R443) -/

/-- The frame that bytes hold; missing bytes are 0. -/
def parseFrame (b : List Byte) : Byte × Frame :=
  let g := fun i => b.getD i 0
  (g 0, { seq := g 1, addr := g 4 ++ g 3 ++ g 2, count := g 5, pad := g 7 ++ g 6
          payload := (b.drop 8).take (b.length - 12), crc := bytesWord (b.drop (b.length - 4)) })

/-- A request of bytes on a service path. -/
def serveBytes (p : Path) (b : List Byte) (s : State) : Option (List Byte) × State :=
  let q := parseFrame b
  serve p q.1 (decide (12 ≤ b.length) && b.length % 4 == 0) q.2 s

/-- The request in a CAN frame of 64 bytes, whose padding its command and count tell. -/
def unpad (b : List Byte) : List Byte :=
  let cmd := b.getD 0 0
  let n := 12 + 4 * reqWords cmd (b.getD 5 0)
  if knownCmd cmd && decide (n ≤ 64) then b.take n else b

end Sys2Proof.Machine
end

