-- ==== Sys2Proof/Machine/Network.lean ====
section
/-! DEFINITION. The network interfaces (R443 to R448): what received datagrams and frames reach, the integrator queues and
staging areas, link and error states, and the queries that the stack answers. -/

namespace Sys2Proof.Machine

/-- The network interfaces are powered. -/
def netOn (s : State) : Bool := s.pwr.good && bit s.pwr.domains 6 && s.pwr.pllLock

/-- Interface `n` has an IPv4 address; it runs on the settings loaded at LOAD (R447). -/
def ethOn (s : State) (n : Fin 2) : Bool := netOn s && s.link.act.ip[n] != 0

/-- CAN controller `n` is on (SYS_CANc_BIT.NOMINAL). -/
def canOn (s : State) (n : Fin 2) : Bool := netOn s && fld s.link.act.can[n] 7 0 != 0

/-- UDP port of the Ethernet service, if it is enabled. -/
def svcPort (s : State) : Option Half :=
  if bit s.link.act.svc 16 then some (s.link.act.svc.truncate 16) else none

/-- A frame's identifier as a settings word: [28:0], with [31] set for 29 bits. -/
def idWord (ext : Bool) (id : BitVec 29) : Word := id.zeroExtend 32 ||| flag ext 31

/-! ## Reception -/

/-- A datagram on the Ethernet service: the response returns to the sender (R443). -/
def ethService (n : Fin 2) (d : Datagram) (s : State) : State :=
  let q := serveBytes 1 d.data s
  match q.1 with
  | none => q.2
  | some b => q.2.onLink fun l => { l with
      resp := l.resp.upd 1 fun _ => b, ethOut := consOut (n, { d with data := b }) l.ethOut }

/-- A datagram enters the integrator queue of an interface, if there is room (R448). -/
def ethQueue (n : Fin 2) (d : Datagram) (s : State) : State :=
  if 8 ≤ s.link.ethRx[n].length ∨ 240 < d.data.length then s
  else raise 13 (s.onLink fun l => { l with ethRx := l.ethRx.upd n fun q => q ++ [d] })

/-- A received datagram goes by its destination port (R445). -/
def ethReceive (n : Fin 2) (d : Datagram) (agree : Bool) (s : State) : State :=
  if !ethOn s n then s
  else if d.own = s.csl.udpPort then recvUdp n d agree s
  else if svcPort s = some d.own then ethService n d s
  else if s.link.udpPort[n] = some d.own then ethQueue n d s
  else s

/-- ETH_DATAGRAM_RX (R445). -/
def execEthDatagramRx (n : Fin 2) (d : Datagram) (agree : Bool) (s : State) : Outc := .next (noting (ethReceive n d agree) s)

/-- A frame is one of the CAN service (R443, R446). -/
def canService (s : State) (n : Fin 2) (f : CanFrame) : Bool :=
  let v := s.link.act.svc
  bit v 17 && (bit v 18 == (n == 1)) && idWord f.ext f.id == s.link.act.reqId &&& 0x9FFFFFFF

/-- The response of a request on the CAN service, padded to 64 bytes (R443). -/
def canServe (n : Fin 2) (f : CanFrame) (s : State) : State :=
  if !f.fd || f.data.length != 64 then s
  else
    let q := serveBytes 2 (unpad f.data) s
    let id := s.link.act.rspId
    match q.1 with
    | none => q.2
    | some b => q.2.onLink fun l => { l with
        resp := l.resp.upd 2 fun _ => b
        canOut := consOut (n, { ext := bit id 31, id := id.extractLsb' 0 29, fd := true,
                                data := b ++ List.replicate (64 - b.length) 0 }) l.canOut }

/-- A frame enters the integrator queue of a controller, if there is room (R448). -/
def canQueue (n : Fin 2) (f : CanFrame) (s : State) : State :=
  if 8 ≤ s.link.canRx[n].length then s
  else raise 13 (s.onLink fun l => { l with canRx := l.canRx.upd n fun q => q ++ [f] })

/-- A received frame is taken by the first that matches its identifier; remote frames are ignored (R446). -/
def canReceive (n : Fin 2) (f : CanFrame) (agree : Bool) (s : State) : State :=
  if !canOn s n || f.rtr || s.link.canErr[n] == .busOff then s
  else if canSession s n f then recvCan n f agree s
  else if canService s n f then canServe n f s
  else if s.link.accept[n].contains (idWord f.ext f.id) then canQueue n f s
  else s

/-- CAN_FRAME_RX (R446). -/
def execCanFrameRx (n : Fin 2) (f : CanFrame) (agree : Bool) (s : State) : Outc := .next (noting (canReceive n f agree) s)

/-! ## Links and errors (R446, R452) -/

/-- ETH_LINK_CHANGE: EV9 on a change of the link state that the PHY reports. -/
def execEthLinkChange (n : Fin 2) (up : Bool) (s : State) : Outc :=
  .next (if !netOn s || s.link.ethUp[n] == up then s
    else raise 9 (s.onLink fun l => { l with ethUp := l.ethUp.upd n fun _ => up }))

/-- A controller's error state changes, with EV10. -/
def canState (n : Fin 2) (e : CanErr) (s : State) : State :=
  if !canOn s n || s.link.canErr[n] == e then s
  else raise 10 (s.onLink fun l => { l with canErr := l.canErr.upd n fun _ => e })

/-- CAN_ERROR_STATE (R452). -/
def execCanErrorState (n : Fin 2) (e : CanErr) (s : State) : Outc := .next (canState n e s)

/-- CAN_BUS_OFF_RECOVERY (R446). -/
def execCanBusOffRecovery (n : Fin 2) (s : State) : Outc :=
  .next (if s.link.canErr[n] == .busOff then canState n .active s else s)

/-- MAC address of an interface: 02 + 4 × i and bits [39:0] of the serial (R445). -/
def macOf (s : State) (n : Fin 2) : BitVec 48 :=
  BitVec.ofNat 8 (2 + 4 * n.val) ++ (s.link.serialHi.truncate 8 : Byte) ++ s.link.serialLo

/-- ARP_ICMP_FRAME_RX (R445): the stack answers queries for its own address. -/
def execArpIcmpFrameRx (n : Fin 2) (q : NetQuery) (s : State) : Outc :=
  let target := match q with | .arp t => t | .echo t _ => t
  .next (if ethOn s n && target == s.link.act.ip[n] then s.onLink fun l => { l with netOut := consOut (n, macOf s n, q) l.netOut } else s)

/-! ## Integrator frames (R448, Table 17-7) -/

/-- An identifier belongs to a CSL session or to the CAN service (R448). -/
def reservedId (s : State) (w : Word) : Bool :=
  (s.csl.s.any fun x => x.present && x.transport == 1 && (x.addr &&& 0x9FFFFFFF == w || x.addr2 &&& 0x9FFFFFFF == w)) ||
    (bit s.link.act.svc 17 && (w == s.link.act.reqId &&& 0x9FFFFFFF || w == s.link.act.rspId &&& 0x9FFFFFFF))

/-- A UDP port belongs to the session unit or to the Ethernet service (R448). -/
def reservedPort (s : State) (p : Half) : Bool := p == s.csl.udpPort || svcPort s == some p

/-- A slot frame is discarded and counted (R448). -/
def slotDrop (s : State) : State := s.onLink fun l => { l with errSlot := satInc l.errSlot }

/-- A list of exactly `n` bytes: cut, or filled with 0. -/
def fitBytes (n : Nat) (b : List Byte) : List Byte := b.take n ++ List.replicate (n - b.length) 0

/-- The lengths of a CAN FD frame above 8 bytes. -/
def canLengths : List Nat := [12, 16, 20, 24, 32, 48, 64]

/-- A staged frame as ISO 11898-1 has it (R446): a classic frame carries 8 bytes at most and never switches its bit rate, an FD frame is
filled with 0 to the next length that exists, and switches where a data rate is set (SYS_CANc_BIT). -/
def canForm (s : State) (n : Fin 2) (f : CanFrame) : CanFrame :=
  let len := f.data.length
  if f.fd then
    { f with
      brs := f.brs && fld s.link.act.can[n] 15 8 != 0
      data := fitBytes (if len ≤ 8 then len else (canLengths.find? fun k => decide (len ≤ k)).getD 64) f.data }
  else { f with brs := false, data := f.data.take 8 }

/-- SEND of the frame staged for CAN controller `n`: a reserved identifier is discarded and counted first (R448); a controller that is off or
in bus-off sends nothing. -/
def canSend (n : Fin 2) (s : State) : State :=
  let f := { s.link.canTx[n] with data := fitBytes s.link.canLen[n] s.link.canTx[n].data }
  let i : Fin 4 := Fin.ofNat 4 n.val
  if reservedId s (idWord f.ext f.id) then slotDrop s
  else if s.link.txBusy[i] || !canOn s n || s.link.canErr[n] == .busOff then s
  else s.onLink fun l => { l with canOut := consOut (n, canForm s n f) l.canOut, txBusy := l.txBusy.upd i fun _ => true }

/-- SEND of the datagram staged for Ethernet interface `n`: a reserved port is discarded and counted first (R448); an interface without an
address sends nothing. -/
def ethSend (n : Fin 2) (s : State) : State :=
  let d := { s.link.ethTx[n] with data := fitBytes s.link.ethLen[n] s.link.ethTx[n].data }
  let i : Fin 4 := Fin.ofNat 4 (2 + n.val)
  if reservedPort s d.port then slotDrop s
  else if s.link.txBusy[i] || !ethOn s n then s
  else s.onLink fun l => { l with
    ethOut := consOut (n, { d with own := l.udpPort[n].getD 0 }) l.ethOut, txBusy := l.txBusy.upd i fun _ => true }

/-- SEND. -/
def frameSend (eth : Bool) (n : Fin 2) (s : State) : State := if eth then ethSend n s else canSend n s

/-- FRAME_SEND (R448). -/
def execFrameSend (eth : Bool) (n : Fin 2) (s : State) : Outc := .next (frameSend eth n s)

/-- POP of the head of a receive queue. -/
def framePop (eth : Bool) (n : Fin 2) (s : State) : State :=
  s.onLink fun l =>
    if eth then { l with ethRx := l.ethRx.upd n fun q => q.drop 1 } else { l with canRx := l.canRx.upd n fun q => q.drop 1 }

/-- FRAME_POP (R448). -/
def execFramePop (eth : Bool) (n : Fin 2) (s : State) : Outc := .next (framePop eth n s)

/-- FRAME_SENT (R452): the staging area becomes free. -/
def execFrameSent (eth : Bool) (n : Fin 2) (s : State) : Outc :=
  let i : Fin 4 := Fin.ofNat 4 (if eth then 2 + n.val else n.val)
  .next (if s.link.txBusy[i] then raise 14 (s.onLink fun l => { l with txBusy := l.txBusy.upd i fun _ => false }) else s)

/-! ## The ports of Table 17-7 -/

/-- Bytes 4w to 4w + 3 of a list as a word. -/
def wordOf (b : List Byte) (w : Nat) : Word := bytesWord ((b.drop (4 * w)).take 4)

/-- Bytes 4w to 4w + 3 of a list replaced. -/
def putBytes (b : List Byte) (w : Nat) (v : Word) : List Byte :=
  (List.range b.length).map fun i => if i / 4 = w then (wordBytes v).getD (i % 4) 0 else b.getD i 0

/-- IN of word `w` of CAN controller `n`. -/
def canIn (s : State) (n : Fin 2) (w : Nat) : Word :=
  match s.link.canRx[n] with
  | [] => 0
  | f :: _ =>
    if w = 0 then at_ f.data.length 0 ||| flag true 7 ||| flag f.fd 8 ||| flag f.ext 9 ||| flag f.brs 10
    else if w = 1 then f.id.zeroExtend 32
    else wordOf f.data (w - 2)

/-- OUT of word `w` of CAN controller `n`. -/
def canPort (n : Fin 2) (w : Nat) (v : Word) (s : State) : State :=
  let tx := fun (g : CanFrame → CanFrame) (s : State) => s.onLink fun l => { l with canTx := l.canTx.upd n g }
  if w = 0 then
    let len := min 64 (fld v 6 0)
    let s1 := (tx (fun f => { f with fd := bit v 8, ext := bit v 9, brs := bit v 10 }) s).onLink fun l =>
      { l with canLen := l.canLen.upd n fun _ => len }
    let s2 := if bit v 15 then frameSend false n s1 else s1
    if bit v 16 then framePop false n s2 else s2
  else if w = 1 then tx (fun f => { f with id := v.truncate 29 }) s
  else tx (fun f => { f with data := putBytes (fitBytes 64 f.data) (w - 2) v }) s

/-- IN of word `w` of Ethernet interface `n`. -/
def ethIn (s : State) (n : Fin 2) (w : Nat) : Word :=
  match s.link.ethRx[n] with
  | [] => 0
  | d :: _ =>
    if w = 0 then at_ d.data.length 0 ||| flag true 15
    else if w = 1 then d.ip
    else if w = 2 then d.port.zeroExtend 32
    else if w = 3 then 0
    else wordOf d.data (w - 4)

/-- OUT of word `w` of Ethernet interface `n`. -/
def ethPort (n : Fin 2) (w : Nat) (v : Word) (s : State) : State :=
  let tx := fun (g : Datagram → Datagram) (s : State) => s.onLink fun l => { l with ethTx := l.ethTx.upd n g }
  if w = 0 then
    let len := min 240 (fld v 8 0)
    let s1 := s.onLink fun l => { l with ethLen := l.ethLen.upd n fun _ => len }
    let s2 := if bit v 15 then frameSend true n s1 else s1
    if bit v 16 then framePop true n s2 else s2
  else if w = 1 then tx (fun d => { d with ip := v }) s
  else if w = 2 then tx (fun d => { d with port := v.truncate 16 }) s
  else if w = 3 then s
  else tx (fun d => { d with data := putBytes (fitBytes 240 d.data) (w - 4) v }) s

end Sys2Proof.Machine
end

