-- ==== Sys2Proof/Machine/Dma.lean ====
section
/-! DEFINITION. The rights of engines to the register space (R451), and the movement of DMA elements (R356 to R360). -/

namespace Sys2Proof.Machine

/-! ## Ends of an element -/

/-- The register space begins at 0x3000_0000 (R356). -/
def dmaReg (a : Nat) : Option Nat := if 0x30000000 ≤ a ∧ a < 0x31000000 then some (a - 0x30000000) else none

/-- The unit whose FEED register an address is. -/
def feedAt (a : Nat) : Option (Fin 4) :=
  match dmaReg a with
  | none => none
  | some o => match slotAt 0x080000 0x40 4 o with
    | some (u, 0x24) => some (Fin.ofNat 4 u)
    | _ => none

/-- What is wrong with the source of an element of `n` bytes: code 1 or 2 of Table 13-2. -/
def dmaSrcBad (s : State) (e : Fin 24) (a n : Nat) : Option (BitVec 4) :=
  if inShared a n then
    if !mayLoad s.mem e a n then some 1 else if a % n != 0 then some 2 else none
  else match dmaReg a with
    | some o => if !hregReads e o || n != 4 then some 1 else if a % 4 != 0 then some 2 else none
    | none => some 1

/-- What is wrong with the destination of an element: code 1, 2 or 4. A FEED register takes 1, 2 or 4 bytes (R354). -/
def dmaDstBad (s : State) (e : Fin 24) (d : Fin 16) (a n : Nat) : Option (BitVec 4) :=
  if inShared a n then
    if !mayStore s.mem e a n then some 1 else if a % n != 0 then some 2 else none
  else match feedAt a, dmaReg a with
    | some u, _ => if s.cvu.u[u].dmaFed && s.cvu.u[u].channel == d then none else some 4
    | none, some o => if !hregWrites s e o || n != 4 then some 1 else if a % 4 != 0 then some 2 else none
    | none, none => some 1

/-- A word of the shared SRAM that an element reads, or rewrites in part, is not correctable (R72). -/
def dmaEcc (s : State) (a : Nat) : Bool := inShared a 1 && eccAt s.mem 14 a == some true

/-- Reads the bytes of an element, with the report of a corrected word or the clearing of read-clear fields. -/
def dmaFetch (a n : Nat) (s : State) : List Byte × State :=
  match dmaReg a with
  | some o => let q := readReg .dma o s; (wordBytes q.1, q.2)
  | none =>
    let s1 := if eccAt s.mem 14 a == some false then eccCorrected 14 a s else s
    (readBytes s.mem 14 a n, s1)

/-- Writes the bytes of an element. A word written in part is read first, with the report of a corrected one; whole or in part it leaves
with good check bits (R70, R72, R358). -/
def dmaPut (e : Fin 24) (a : Nat) (bs : List Byte) (agree : Bool) (s : State) : State :=
  match feedAt a, dmaReg a with
  | some u, _ => cvuTake u agree Cvu.open_ (Cvu.feed bs) s
  | none, some o => writeReg (.engine e) o (bytesWord bs) s
  | none, none =>
    let s1 := if bs.length < 4 && eccAt s.mem 14 a == some false then eccCorrected 14 a s else s
    s1.onMem fun m => eccSet 14 a none (writeBytes 14 a bs m)

/-! ## Ends of a block -/

/-- Steps 4 to 6 of R354 for a unit whose block has ended. -/
def blockEnd (agree : Bool) (u : Fin 4) (s : State) : State :=
  raise (112 + u.val) <| cvuTake u agree (fun x => bit x.cfg 9 && x.open_) (fun x =>
    let x1 := if bit x.cfg 9 then x.stop x.ctxe else x
    { x1 with match_ := if bit x.cfg 10 then x1.read == x.expect else x1.match_, done := true }) s

/-- The channel after an element: addresses advance, COUNT and the burst count down; a held request starts the next burst; at
COUNT 0 it stops, or reloads under CIRC (R357). -/
def Dma.moved (c : Dma) : Dma :=
  let n : Word := BitVec.ofNat 32 c.size
  let left := c.burst - 1
  let next := fun (x : Dma) => if x.held then { x with burst := fld x.cfg 15 10, held := false } else { x with burst := 0 }
  let c1 := { c with
    src := if bit c.cfg 2 then c.src + n else c.src
    dst := if bit c.cfg 3 then c.dst + n else c.dst
    count := c.count - 1
    burst := left }
  if c1.count = 0 then
    if bit c.cfg 4 then next { c1 with done := true, src := c.src0, dst := c.dst0, count := c.count0 }
    else { c1 with done := true, busy := false, burst := 0, held := false }
  else if left = 0 then next c1
  else c1

/-- A channel of a lower number has an element to move, and is served first (R358). -/
def dmaBefore (d : Fin 16) (s : State) : Bool := (List.finRange 16).any fun k => decide (k < d) && s.cvu.d[k].busy && s.cvu.d[k].burst != 0

/-- One element of channel `d`, where none of a lower number waits (R356 to R359). -/
def dmaElement (d : Fin 16) (agree : Bool) (s : State) : State :=
  let c := s.cvu.d[d]
  if !c.busy || c.burst == 0 || dmaBefore d s then s
  else if h : c.owner < 24 then
    let e : Fin 24 := ⟨c.owner, h⟩
    let a := c.src.toNat
    let b := c.dst.toNat
    match (dmaSrcBad s e a c.size).orElse fun _ => dmaDstBad s e d b c.size with
    | some code => dmaFail code d s
    | none =>
      if dmaEcc s a || (dmaEcc s b && c.size != 4) then dmaFail 3 d s
      else
        let q := dmaFetch a c.size s
        let s1 := (dmaPut e b q.1 agree q.2).onD d Dma.moved
        if c.count = 1 then raise (116 + d.val / 4) (each (fedBy s d) (blockEnd agree) s1) else s1
  else dmaFail 1 d s

/-- DMA_ELEMENT (R358). -/
def execDmaElement (d : Fin 16) (agree : Bool) (s : State) : Outc := .next (noting (dmaElement d agree) s)

end Sys2Proof.Machine
end

