-- ==== Sys2Proof/Machine/Encode.lean ====
section
/-! DEFINITION. The encodings of TSL-32 (R88, R89, R91, Tables 3-7 to 3-16 and 4-2 to 4-14): the formats, the bits that a word's
instruction uses, and what a word is to an instruction. The word of an instruction stands at the head of its meaning. -/

namespace Sys2Proof.Machine

/-! ## Formats (Table 3-7) -/

/-- A register field. -/
def regF (d : WReg) : BitVec 5 := BitVec.ofNat 5 d.val
/-- A predicate field. -/
def predF (p : PReg) : BitVec 6 := BitVec.ofNat 6 p.val
/-- Format A. -/
def encA (op : BitVec 6) (d a b : BitVec 5) (fn : BitVec 11) : Word := op ++ d ++ a ++ b ++ fn
/-- Formats I, M and X. -/
def encI (op : BitVec 6) (d a : BitVec 5) (imm : Half) : Word := op ++ d ++ a ++ imm
/-- Format J. -/
def encJ (op : BitVec 6) (off : BitVec 26) : Word := op ++ off
/-- Format C. -/
def encC (op : BitVec 6) (p : BitVec 6) (off : BitVec 20) : Word := op ++ p ++ off
/-- Format P. -/
def encP (op pd pa pb : BitVec 6) (fn : Byte) : Word := op ++ pd ++ pa ++ pb ++ fn
/-- A three-register ALU instruction. -/
def encAlu (d a b : WReg) (fn : BitVec 11) : Word := encA 0x00 (regF d) (regF a) (regF b) fn
/-- A multiply or divide. -/
def encMul (d a b : WReg) (fn : BitVec 11) : Word := encA 0x01 (regF d) (regF a) (regF b) fn
/-- An immediate instruction, a load or a store. -/
def encImm (op : BitVec 6) (d a : WReg) (imm : Half) : Word := encI op (regF d) (regF a) imm
/-- A compare with an immediate. -/
def encCmp (op : BitVec 6) (pd : Fin 32) (a : WReg) (imm : Half) : Word := encI op (BitVec.ofNat 5 pd.val) (regF a) imm
/-- Predicate logic. -/
def encLog (pd pa pb : PReg) (fn : Byte) : Word := encP 0x03 (predF pd) (predF pa) (predF pb) fn
/-- An X instruction with the selector in function and argument. -/
def encX (op : BitVec 6) (d a : WReg) (f : BitVec 4) (arg : BitVec 12) : Word := encI op (regF d) (regF a) (f ++ arg)
/-- A SYS instruction. -/
def encSys (d a : WReg) (f arg : Byte) : Word := encI 0x20 (regF d) (regF a) (f ++ arg)

/-! ## Words that no instruction is (R89, R91) -/

/-- Bits that the ALU and MUL functions use (Tables 3-9 and 3-10). -/
def usedA (op fn : Nat) : Option Word :=
  if op = 0 then
    if fn % 32 < 0x10 then some 0xFFFFF81F
    else if fn % 32 = 0x10 then some 0xFFFFFFFF
    else if fn % 32 < 0x14 then some 0xFFFF001F
    else none
  else if fn < 8 then some 0xFFFFFFFF else none

/-- Bits that the PLOG functions use (Table 3-12). -/
def usedP (fn : Nat) : Option Word :=
  if fn < 4 then some 0xFFFFFFFF else if fn < 6 then some 0xFFFFC0FF else if fn < 8 then some 0xFFF000FF else none

/-- Bits that the SYS functions use (Table 3-13). -/
def usedSys (f : Nat) : Option Word :=
  match f with
  | 1 => some 0xFFE0FFFF
  | 2 => some 0xFC1FFFFF
  | 3 | 4 | 6 => some 0xFC00FF00
  | 5 => some 0xFC00FF3F
  | _ => none

/-- Bits that the SAFE, TB, CVU, TMR and EVT functions use (Tables 3-15 and 3-16). -/
def usedX (op f : Nat) : Option Word :=
  match op, f with
  | 0x23, 1 => some 0xFC1FF000
  | 0x23, 2 => some 0xFC1FFF01
  | 0x23, 3 => some 0xFC00F000
  | 0x24, 1 | 0x24, 2 | 0x24, 3 => some 0xFFE0F000
  | 0x25, 2 => some 0xFFE0F003
  | 0x25, 1 | 0x25, 3 | 0x25, 4 | 0x25, 5 => some 0xFC1FF003
  | 0x26, 1 => some 0xFC00F00F
  | 0x26, 3 => some 0xFC1FF01F
  | 0x26, 2 | 0x26, 4 | 0x26, 5 | 0x26, 6 => some 0xFFE0F01F
  | 0x27, 2 => some 0xFFE0F003
  | 0x27, 1 | 0x27, 3 => some 0xFC00F07F
  | _, _ => none

/-- Bits that the instruction of a word uses; none for a reserved opcode, function code or function (Table 3-8). -/
def usedBits (w : Word) : Option Word :=
  let op := fld w 31 26
  if op < 2 then usedA op (fld w 10 0)
  else if op = 0x02 then some 0xFFFFFFE0
  else if op = 0x03 then usedP (fld w 7 0)
  else if op = 0x08 then some 0xFFE0FFFF
  else if op = 0x09 then some 0xFFFF007F
  else if op < 0x1C then some 0xFFFFFFFF
  else if op = 0x1C then
    if fld w 10 0 = 0 then some 0xFC1F07FF else if fld w 10 0 = 1 then some 0xFFFF07FF else none
  else if op = 0x1D then some 0xFC00FFFF
  else if op = 0x20 then usedSys (fld w 15 8)
  else if op = 0x21 ∨ op = 0x22 then some 0xFFFFFFFF
  else usedX op (fld w 15 12)

/-- What a word is to an instruction. -/
inductive WordIs where
  /-- Its encoding. -/
  | itself
  /-- Its encoding, but for a field that the instruction does not use and that is not 0. -/
  | dirty
  /-- Another instruction. -/
  | other
  /-- No instruction. -/
  | reserved
  deriving DecidableEq, Repr

/-- What the word `w` is to the instruction that `v` encodes (R89, R91). -/
def wordIs (v w : Word) : WordIs :=
  if w = v then .itself
  else match usedBits w with
    | none => .reserved
    | some m => if w &&& m = v then .dirty else .other

end Sys2Proof.Machine
end

