-- ==== Sys2Proof/Machine/Alu.lean ====
section
/-! DEFINITION. The values that the integer instructions form on true operands, which is the knit pass (R100, R101, Tables 3-9, 3-10,
4-2 to 4-4). -/

namespace Sys2Proof.Machine

/-- A sign-extended 16-bit field. -/
def sext (imm : Half) : Word := imm.signExtend 32

/-- A signed number saturated to 32 bits. -/
def satS (x : Int) : Word :=
  if x < -2147483648 then 0x80000000 else if 2147483647 < x then 0x7FFFFFFF else BitVec.ofInt 32 x

/-- ADDS. -/
def addS (a b : Word) : Word := satS (a.toInt + b.toInt)
/-- SUBS. -/
def subS (a b : Word) : Word := satS (a.toInt - b.toInt)
/-- The shift count of a register shift (R100). -/
def shCount (b : Word) : Nat := b.toNat % 32
/-- SHL. -/
def shl (a : Word) (n : Nat) : Word := a <<< n
/-- SHR. -/
def shr (a : Word) (n : Nat) : Word := a >>> n
/-- SAR. -/
def sar (a : Word) (n : Nat) : Word := a.sshiftRight n
/-- ROL. -/
def rol (a : Word) (n : Nat) : Word := a.rotateLeft n
/-- MIN. -/
def minS (a b : Word) : Word := if a.slt b then a else b
/-- MAX: w[a] where it is the greater. -/
def maxS (a b : Word) : Word := if b.slt a then a else b
/-- MINU. -/
def minU (a b : Word) : Word := if a.ult b then a else b
/-- MAXU. -/
def maxU (a b : Word) : Word := if b.ult a then a else b
/-- CLZ: leading zeros, 32 for 0. -/
def clz (a : Word) : Word :=
  BitVec.ofNat 32 (((List.range 32).find? fun i => a.getLsbD (31 - i)).getD 32)
/-- SEXTB. -/
def sextB (a : Word) : Word := (a.truncate 8 : Byte).signExtend 32
/-- SEXTH. -/
def sextH (a : Word) : Word := (a.truncate 16 : Half).signExtend 32
/-- MUL. -/
def mulLo (a b : Word) : Word := a * b
/-- MULH. -/
def mulHi (a b : Word) : Word := BitVec.ofInt 32 (a.toInt * b.toInt / 4294967296)
/-- MULHU. -/
def mulHiU (a b : Word) : Word := BitVec.ofNat 32 (a.toNat * b.toNat / 4294967296)
/-- MULQ: the product shifted right by 16, saturated. -/
def mulQ (a b : Word) : Word := satS (a.toInt * b.toInt / 65536)
/-- DIV: truncated toward zero; 0x8000_0000 ÷ −1 gives 0x8000_0000. -/
def divS (a b : Word) : Word := BitVec.ofInt 32 (a.toInt.tdiv b.toInt)
/-- REM: sign of the dividend; 0x8000_0000 rem −1 gives 0. -/
def remS (a b : Word) : Word := BitVec.ofInt 32 (a.toInt.tmod b.toInt)
/-- DIVU. -/
def divU (a b : Word) : Word := a / b
/-- REMU. -/
def remU (a b : Word) : Word := a % b

/-- The shift of SHI by its kind. -/
def shiftKind (k : BitVec 2) (n : Nat) (a : Word) : Word :=
  if k = 0 then shl a n else if k = 1 then shr a n else if k = 2 then sar a n else rol a n

end Sys2Proof.Machine
end

