-- ==== Sys2Proof/Machine/Twin.lean ====
section
/-! DEFINITION. The purl pass (R118, R119, R126, R127): what it computes from complemented operands, whose complement the compare
lanes hold against the knit result (R130), and the order of the steps of both passes. -/

namespace Sys2Proof.Machine

/-! ## Complement-linear class (Table 5-1); operands as the purl pass receives them -/

/-- ADD. -/
def purlAdd (a b : Word) : Word := a + b + 1
/-- SUB. -/
def purlSub (a b : Word) : Word := a - b - 1
/-- ADDI. -/
def purlAddi (imm : Half) (a : Word) : Word := a - sext imm
/-- AND. -/
def purlAnd (a b : Word) : Word := a ||| b
/-- ANDI. -/
def purlAndi (imm : Half) (a : Word) : Word := a ||| ~~~(imm.zeroExtend 32)
/-- OR. -/
def purlOr (a b : Word) : Word := a &&& b
/-- ORI. -/
def purlOri (imm : Half) (a : Word) : Word := a &&& ~~~(imm.zeroExtend 32)
/-- XOR. -/
def purlXor (a b : Word) : Word := ~~~(a ^^^ b)
/-- XORI. -/
def purlXori (imm : Half) (a : Word) : Word := a ^^^ imm.zeroExtend 32
/-- ANDN. -/
def purlAndn (a b : Word) : Word := a ||| ~~~b
/-- The count of a register shift. -/
def purlCount (b : Word) : Nat := shCount (~~~b)
/-- SHL and SHI kind 0: ones enter from below. -/
def purlShl (a : Word) (n : Nat) : Word := (a <<< n) ||| ~~~(BitVec.allOnes 32 <<< n)
/-- SHR and SHI kind 1: ones enter from above. -/
def purlShr (a : Word) (n : Nat) : Word := (a >>> n) ||| ~~~(BitVec.allOnes 32 >>> n)
/-- SAR and SHI kind 2. -/
def purlSar (a : Word) (n : Nat) : Word := sar a n
/-- ROL and SHI kind 3. -/
def purlRol (a : Word) (n : Nat) : Word := rol a n
/-- MIN. -/
def purlMin (a b : Word) : Word := maxS a b
/-- MAX. -/
def purlMax (a b : Word) : Word := minS a b
/-- MINU. -/
def purlMinu (a b : Word) : Word := maxU a b
/-- MAXU. -/
def purlMaxu (a b : Word) : Word := minU a b
/-- SEL: `p` is the complemented predicate. -/
def purlSel (p : Bool) (a b : Word) : Word := if p then b else a
/-- SEXTB. -/
def purlSextb (a : Word) : Word := sextB a
/-- SEXTH. -/
def purlSexth (a : Word) : Word := sextH a
/-- LUI. -/
def purlLui (imm : Half) : Word := ~~~(imm ++ (0 : Half))
/-- CMP and CMPI: the condition on complemented operands that gives the inverse of the knit predicate. -/
def purlCond (c : Nat) (a b : Word) : Option Bool :=
  match c with
  | 0 => some (a != b)
  | 1 => some (a == b)
  | 2 => some (!b.slt a)
  | 3 => some (b.slt a)
  | 4 => some (!b.ult a)
  | 5 => some (b.ult a)
  | 6 => some ((a ||| b) == 0xFFFFFFFF)
  | 7 => some ((a ||| b) != 0xFFFFFFFF)
  | _ => none
/-- PAND. -/
def purlPand (a b : Bool) : Bool := a || b
/-- POR. -/
def purlPor (a b : Bool) : Bool := a && b
/-- PXOR. -/
def purlPxor (a b : Bool) : Bool := !(a ^^ b)
/-- PANDN. -/
def purlPandn (a b : Bool) : Bool := a || !b
/-- PNOT. -/
def purlPnot (a : Bool) : Bool := !a
/-- PMOV. -/
def purlPmov (a : Bool) : Bool := a
/-- PSET. -/
def purlPset : Bool := false
/-- PCLR. -/
def purlPclr : Bool := true
/-- SHI by its kind. -/
def purlShift (k : BitVec 2) (n : Nat) (a : Word) : Word :=
  if k = 0 then purlShl a n else if k = 1 then purlShr a n else if k = 2 then purlSar a n else purlRol a n
/-- The address of a load or store, in complemented form. -/
def purlAddr (a : Word) (imm : Half) : Word := a - sext imm
/-- LDW: `b` are the complemented bytes. -/
def purlLdw (b : List Byte) : Word := bytesWord b
/-- LDH. -/
def purlLdh (b : List Byte) : Word := (bytesHalf b).signExtend 32
/-- LDHU: ones above the loaded bits. -/
def purlLdhu (b : List Byte) : Word := (0xFFFF : Half) ++ bytesHalf b
/-- LDB. -/
def purlLdb (b : List Byte) : Word := (b.getD 0 0xFF).signExtend 32
/-- LDBU: ones above the loaded bits. -/
def purlLdbu (b : List Byte) : Word := (0xFFFFFF : BitVec 24) ++ b.getD 0 0xFF
/-- The sequential address, and the link of JAL and JALR: `pc` is the purl program counter. -/
def purlNext (pc : Word) : Word := pc - 4
/-- The target of a J or C instruction. -/
def purlTarget (pc off : Word) : Word := pc - off * 4
/-- SIGF: `s` is the purl signature accumulator. -/
def purlSig (s : Word) (imm : Half) : Word := sigFold s (~~~imm) ^^^ sigFold 0xFFFFFFFF 0xFFFF ^^^ 0xFFFFFFFF

/-! ## Alternate-algorithm class (Table 5-2): complemented back, another method, complemented -/

/-- CLZ: leading ones, by halves. -/
def purlClz (a : Word) : Word :=
  let go := fun (p : Nat × Word) (k : Nat) =>
    if p.2 >>> (32 - k) == BitVec.allOnes 32 >>> (32 - k) then (p.1 + k, p.2 <<< k) else p
  let q := [16, 8, 4, 2, 1].foldl go (0, a)
  ~~~(BitVec.ofNat 32 (q.1 + if a == BitVec.allOnes 32 then 1 else 0))
/-- A product by radix-8 Booth recoding of `x` in `k` digits, each from −4 to 4; `c` is the digit carried in from below. -/
def booth8 : Nat → Int → Int → Int → Int
  | 0, _, _, _ => 0
  | k + 1, x, c, y =>
    let r := x % 8
    let up : Int := if 4 ≤ r then 1 else 0
    (r + c - 8 * up) * y + 8 * booth8 k (x / 8) up y
/-- Signed b × a: eleven digits hold 32 bits and the sign. -/
def purlProdS (a b : Word) : Int := booth8 11 (~~~b).toInt 0 (~~~a).toInt
/-- Unsigned b × a. -/
def purlProdU (a b : Word) : Int := booth8 11 (~~~b).toNat 0 (~~~a).toNat
/-- MUL. -/
def purlMul (a b : Word) : Word := ~~~(BitVec.ofInt 32 (purlProdU a b))
/-- MULH. -/
def purlMulh (a b : Word) : Word := ~~~(BitVec.ofInt 32 (purlProdS a b / 4294967296))
/-- MULHU. -/
def purlMulhu (a b : Word) : Word := ~~~(BitVec.ofInt 32 (purlProdU a b / 4294967296))
/-- MULQ: shift and saturation follow the product. -/
def purlMulq (a b : Word) : Word := ~~~(satS (purlProdS a b / 65536))
/-- The separate detector of the special cases of Table 3-10, on the operands complemented back. -/
def purlSpecial (x y : Word) : Bool := x == 0x80000000 && y == 0xFFFFFFFF
/-- DIV: on −a and −b. -/
def purlDiv (a b : Word) : Word :=
  ~~~(if purlSpecial (~~~a) (~~~b) then 0x80000000 else BitVec.ofInt 32 ((-(~~~a).toInt).tdiv (-(~~~b).toInt)))
/-- REM: on −a and −b, the remainder negated back. -/
def purlRem (a b : Word) : Word :=
  ~~~(if purlSpecial (~~~a) (~~~b) then 0 else BitVec.ofInt 32 (-((-(~~~a).toInt).tmod (-(~~~b).toInt))))
/-- One bit of a non-restoring division by `y`: the quotient in digits −1 and 1, and the signed remainder. -/
def divBit (y : Int) (p : Int × Int) (x : Int) : Int × Int :=
  if 0 ≤ p.2 then (2 * p.1 + 1, 2 * p.2 + x - y) else (2 * p.1 - 1, 2 * p.2 + x + y)
/-- One step of radix 4: two bits. -/
def divStep (y : Int) (p : Int × Int) (x : Int) : Int × Int := divBit y (divBit y p (x / 2)) (x % 2)
/-- Non-restoring division of a number of `k` radix-4 digits. -/
def divRun (y : Int) : Nat → Int → Int × Int
  | 0, _ => (0, 0)
  | k + 1, x => divStep y (divRun y k (x / 4)) (x % 4)
/-- The last correction: a negative remainder takes the divisor back. -/
def divEnd (y : Int) (p : Int × Int) : Int × Int := if p.2 < 0 then (p.1 - 1, p.2 + y) else p
/-- DIVU and REMU. -/
def purlDivRemU (a b : Word) : Int × Int := divEnd (~~~b).toNat (divRun (~~~b).toNat 16 (~~~a).toNat)
/-- DIVU. -/
def purlDivu (a b : Word) : Word := ~~~(BitVec.ofInt 32 (purlDivRemU a b).1)
/-- REMU. -/
def purlRemu (a b : Word) : Word := ~~~(BitVec.ofInt 32 (purlDivRemU a b).2)
/-- ADDS: overflow from the signs of the operands and of the raw result. -/
def purlAdds (a b : Word) : Word :=
  let x := ~~~a
  let y := ~~~b
  let r := x + y
  ~~~(if x.msb == y.msb && r.msb != x.msb then (if x.msb then 0x80000000 else 0x7FFFFFFF) else r)
/-- SUBS: overflow from the signs of the operands and of the raw result. -/
def purlSubs (a b : Word) : Word :=
  let x := ~~~a
  let y := ~~~b
  let r := x - y
  ~~~(if x.msb != y.msb && r.msb != x.msb then (if x.msb then 0x80000000 else 0x7FFFFFFF) else r)

/-! ## The pass sequence -/

/-- A step of a safety core: a knit step, its purl step, or the empty step of R119. -/
inductive PassStep (α : Type) where
  | knit (x : α)
  | purl (x : α)
  | empty
  deriving DecidableEq, Repr

/-- The stream of a task's knit steps as the core issues it: in pairs, each followed by the purl steps of both; an odd last knit
step is followed by one empty step (R118, R119). -/
def passes {α : Type} : List α → List (PassStep α)
  | x :: y :: l => .knit x :: .knit y :: .purl x :: .purl y :: passes l
  | [x] => [.knit x, .empty, .purl x]
  | [] => []

/-- The knit steps that instructions of the given costs contribute: instruction and step (R118). -/
def knitSteps (costs : List Nat) : List (Nat × Nat) :=
  (List.range costs.length).flatMap fun k => (List.range (costs.getD k 0)).map fun j => (k, j)

end Sys2Proof.Machine
end

