-- ==== Sys2Proof/Machine/Operands.lean ====
section
/-! DEFINITION. What every TSL-32 instruction shares: the register banks and their check bits (R64, R65, R125), its own fetch and
decoding (R68, R72, R89, R91), the knit and the purl pass with the compare lanes (R118 to R133), the step count (R97, R514), traps
and their reactions (R85, R86), and the loads and stores of memory (R68 to R72). -/

namespace Sys2Proof.Machine

/-! ## Causes (Table 3-5) -/

/-- Codes of the trap causes. -/
inductive Cause where
  | mismatch | rfparity | ecc | illegal | priv | align | access | port | owner | divzero | sealseq | stepcap
  | user (n : BitVec 6)
  deriving DecidableEq, Repr

/-- Code of a cause. -/
def Cause.code : Cause → Byte
  | .mismatch => 0x01 | .rfparity => 0x02 | .ecc => 0x03 | .illegal => 0x04 | .priv => 0x05 | .align => 0x06
  | .access => 0x07 | .port => 0x08 | .owner => 0x09 | .divzero => 0x0A | .sealseq => 0x0B | .stepcap => 0x0C
  | .user n => 0x40 + n.zeroExtend 8

/-- One value that a compare lane holds against the other pass, by its place in Table 5-3: the knit value, and the purl value in
complemented form. -/
structure Field where
  /-- Lane 1-6. -/
  lane : Nat
  /-- Place in the lane, from 0. -/
  ix : Nat
  /-- Bits compared. -/
  width : Nat
  /-- As the knit pass has it. -/
  knit : Word
  /-- As the purl pass has it. -/
  purl : Word
  deriving DecidableEq, Repr

/-- The decision and next address of a transfer or branch in both passes; the purl ones are inverted and complemented. -/
structure Hop where
  /-- Knit decision. -/
  taken : Bool := true
  /-- Purl decision. -/
  purlTaken : Bool := false
  /-- Knit address. -/
  next : Word
  /-- Purl address. -/
  purlNext : Word
  deriving DecidableEq, Repr

/-- Operands as one pass receives them. -/
structure Regs where
  /-- W registers. -/
  w : WReg → Word
  /-- Predicates. -/
  p : PReg → Bool

/-- What the work of an instruction gives: a trap, or the state with its effects, its transfer if it is one, and what lanes 1, 2, 4
and 6 compare. -/
inductive Res where
  | trap (c : Cause)
  | ok (s : State) (hop : Option Hop) (cmp : List Field)

/-- The work of an instruction: its knit operands, its purl operands, and the state after its fetch. -/
abbrev Work := Regs → Regs → State → Res

/-- The sequential outcome of an instruction that reaches no memory, port or register. -/
def okay (s : State) : Res := .ok s none []

/-! ## The running task -/

/-- A safety core in twin-pass mode. -/
def twin (e : Fin 24) : Bool := clsOf e == .sc

/-- The running task; 0 where none runs. -/
def taskOf (s : State) (e : Fin 24) : Fin 16 := s.eng.e[e].task.getD 0

/-- Address of the executing instruction. -/
def pcOf (s : State) (e : Fin 24) : Word := s.eng.e[e].pc[taskOf s e]

/-- The purl program counter of the running task, in complemented form (R124). -/
def purlPcOf (s : State) (e : Fin 24) : Word := s.eng.e[e].purlPc[taskOf s e]

/-- Bank T serves TEST on a safety core (R65). -/
def bankIsT (s : State) (e : Fin 24) : Bool := twin e && taskOf s e == 2

/-- The bank of the running task. -/
def rbank (s : State) (e : Fin 24) : Bank := if bankIsT s e then s.eng.e[e].bankT else s.eng.e[e].bankS

/-- Changes the bank of the running task. -/
def onBank (e : Fin 24) (f : Bank → Bank) (s : State) : State :=
  s.onE e fun x => if bankIsT s e then { x with bankT := f x.bankT } else { x with bankS := f x.bankS }

/-! ## Registers and predicates (R64, R125) -/

/-- w[n]: W0 reads as 0. -/
def wGet (s : State) (e : Fin 24) (n : WReg) : Word := if n = 0 then 0 else (rbank s e).w[n]

/-- p[n]: P0 reads as 1. -/
def pGet (s : State) (e : Fin 24) (n : PReg) : Bool := n == 0 || bit (rbank s e).p n.val

/-- A register write in a bank, with its check bits; a write to W0 is discarded. -/
def Bank.put (n : WReg) (v : Word) (b : Bank) : Bank :=
  if n = 0 then b else { b with w := b.w.upd n fun _ => v, chk := b.chk.upd n fun _ => regCheck n.val v }

/-- A predicate write in a bank, with the check bit of its byte; a write to P0 is discarded. -/
def Bank.putP (n : PReg) (v : Bool) (b : Bank) : Bank :=
  if n = 0 then b
  else
    let p := setBit b.p n.val v
    { b with p := p, pchk := setBit b.pchk (n.val / 8) (predCheck p (n.val / 8)) }

/-! ## The pending queue (R122, R123) -/

/-- A result enters the register file, the predicate file or memory. -/
def Pend.apply (e : Fin 24) (s : State) : Pend → State
  | .reg d v => onBank e (Bank.put d v) s
  | .pred d v => onBank e (Bank.putP d v) s
  | .store a b => s.onMem fun m => eccSet e a none (writeBytes e a b m)

/-- The knit pass puts a result into the queue. -/
def pendPut (e : Fin 24) (p : Pend) (s : State) : State := s.onC (coreOf e) fun x => { x with pend := x.pend ++ [p] }

/-- The purl pass has ended the instruction: the result that it queued last commits and leaves the queue. -/
def commit (e : Fin 24) (s : State) : State :=
  match s.eng.c[coreOf e].pend.getLast? with
  | some p => (p.apply e s).onC (coreOf e) fun x => { x with pend := x.pend.dropLast }
  | none => s

/-- A result of an instruction: a safety core queues it and commits it once every lane has passed; any other engine has no queue. -/
def commitPut (e : Fin 24) (p : Pend) (s : State) : State := if twin e then commit e (pendPut e p s) else p.apply e s

/-- w[n] = v. -/
def wPut (e : Fin 24) (n : WReg) (v : Word) (s : State) : State := commitPut e (.reg n v) s

/-- p[n] = v. -/
def pPut (e : Fin 24) (n : PReg) (v : Bool) (s : State) : State := commitPut e (.pred n v) s

/-- The latest pending value of a W register. -/
def forwardW (l : List Pend) (n : WReg) : Option Word :=
  l.reverse.findSome? fun p => match p with | .reg d v => if d = n then some v else none | _ => none

/-- The latest pending value of a predicate. -/
def forwardP (l : List Pend) (n : PReg) : Option Bool :=
  l.reverse.findSome? fun p => match p with | .pred d v => if d = n then some v else none | _ => none

/-- The pending queue that the knit pass of an engine reads; a single-pass engine has none. -/
def pendOf (s : State) (e : Fin 24) : List Pend := if twin e then s.eng.c[coreOf e].pend else []

/-- Both queues as an instruction begins: a command is a whole instruction with both passes, so that no earlier one is still in flight, and
an entry of none is discarded (R118, R121). -/
def issue (e : Fin 24) (s : State) : State :=
  if twin e then s.onC (coreOf e) fun x => { x with pend := [], samples := [] } else s

/-- The check bits of a register fail (R125). -/
def Bank.badW (b : Bank) (n : WReg) : Bool := b.chk[n] != regCheck n.val b.w[n]

/-- The check bit of a predicate's byte fails (R125). -/
def Bank.badP (b : Bank) (n : PReg) : Bool := bit b.pchk (n.val / 8) != predCheck b.p (n.val / 8)

/-- What the knit pass reads: the pending queue by forwarding, otherwise the files (R123). -/
def knitRegs (s : State) (e : Fin 24) : Regs :=
  ⟨fun r => if r = 0 then 0 else (forwardW (pendOf s e) r).getD (wGet s e r),
    fun p => if p = 0 then true else (forwardP (pendOf s e) p).getD (pGet s e p)⟩

/-- What the purl pass reads: the committed files alone, through a path that complements every value (R123). -/
def purlRegs (s : State) (e : Fin 24) : Regs := ⟨fun r => ~~~(wGet s e r), fun p => !pGet s e p⟩

/-- Operands complemented back. -/
def Regs.back (q : Regs) : Regs := ⟨fun r => ~~~(q.w r), fun p => !q.p p⟩

/-- A register or predicate that the instruction reads fails its check bits. -/
def rfBad (s : State) (e : Fin 24) (rs : List WReg) (ps : List PReg) : Bool :=
  rs.any (rbank s e).badW || ps.any (rbank s e).badP

/-! ## When an engine executes -/

/-- An instruction of `n` steps does not fit into what TEST may still spend in this scan period (R81). -/
def testFull (s : State) (e : Fin 24) (n : Nat) : Bool :=
  bankIsT s e && decide (s.eng.c[coreOf e].testCap < s.eng.c[coreOf e].testSteps + n)

/-- The engine executes instructions: it is released, a task runs, and the device is powered, released from reset and not in
DORMANT. -/
def tslReady (s : State) (e : Fin 24) : Bool :=
  s.eng.e[e].on && s.eng.e[e].task.isSome && s.pwr.good && !s.sys.clockWait && s.sys.runState != .dormant

/-- The step limit of the running task: 50 000 in INIT (R77), the budget of an event task (R82); none in SCAN and TEST, and none
for the boot core during the cast-on (R84). -/
def stepLimit (s : State) (e : Fin 24) : Option Nat :=
  if twin e then (if taskOf s e = 0 then some 50000 else none)
  else if clsOf e == .bc && s.sys.runState == .castOn then none
  else some (16 * (s.eng.e[e].budget[taskOf s e]).toNat)

/-- Adding steps saturates at 0xFFFF_FFFF (R66). -/
def addSteps (x : Word) (n : Nat) : Word := BitVec.ofNat 32 (min 0xFFFFFFFF (x.toNat + n))

/-- Steps of this execution: within the range of the instruction by the arbitration it meets, twice that in twin-pass (R97). -/
def stepsOf (i : Issue) (lo hi : Nat) : Nat := (if twin i.eng then 2 else 1) * min hi (lo + i.extra)

/-- The task passes its step limit with this instruction. -/
def passesLimit (s : State) (e : Fin 24) (n : Nat) : Bool :=
  match stepLimit s e with
  | none => false
  | some l =>
    let used := (s.eng.e[e].steps[taskOf s e]).toNat
    decide (used ≤ l) && decide (l < used + n)

/-- Spends steps of a task; those of TEST count against its cap. -/
def spend (e : Fin 24) (t : Fin 16) (n : Nat) (s : State) : State :=
  let s1 := s.onE e fun x => { x with steps := x.steps.upd t fun v => addSteps v n }
  if twin e && t == 2 then s1.onC (coreOf e) fun x => { x with testSteps := x.testSteps + n } else s1

/-! ## Traps (R85 to R87) -/

/-- TRAPC of a trap of task `t` at `pc`. -/
def trapWord (c : Cause) (t : Fin 16) (pc : Word) : Word :=
  at_ c.code.toNat 0 ||| at_ t.val 8 ||| at_ (pc.toNat / 4 % 65536) 16

/-- ENGINE_TRAP of an engine, whose task ends (Table 3-6). -/
def engineTrap (e : Fin 24) (s : State) : State :=
  devFault (devRep 0x42 10 e.val) <| s.onE e fun x => { x with task := none, inTrap := false }

/-- The update core's memory is written again from the running image, and it starts anew (Table 3-6); where a section fails its hash the
memory is not written from it and the core stays in reset (R38). -/
def ucReload (s : State) : State :=
  let q := match s.upd.running.bind fun a => readImage s.upd.flash a.toNat with
    | some m =>
      if secsIntact s m 5 then ((m.secs.filter fun (x : Sec) => x.engine == some 15).foldl (putSection s.upd.flash m) s, s.eng.e[(15 : Fin 24)].on)
      else (s, false)
    | none => (s, false)
  (unlockOwned 15 q.1).onE 15 fun x => { x with
    on := q.2, bankS := {}, task := none, inTrap := false, tasks := 0, resumes := 0, waiting := Tab.fill 16 none }

/-- A trap of the update core (Table 3-6, R423): which of the failed results the update ends with is a free value. -/
def ucTrap (s : State) : State :=
  let q := s.takeFree
  let s1 := if s.upd.owner = 0 then q.2 else updFail (BitVec.ofNat 4 (6 + (Config.freeWord q.1).toNat % 4)) q.2
  report (cntRep 0xA8 10 15) (ucReload s1)

/-- The reaction to a trap by the class of the engine (Table 3-6). A hart leaves CAUSE and WORD of its core (DESIGN CHOICE, log 126). -/
def reactTo (e : Fin 24) (t : Fin 16) (c : Cause) (pc : Word) (s : State) : State :=
  match clsOf e with
  | .sc => coreTrap (coreOf e) c.code (BitVec.ofNat 16 (pc.toNat / 4)) s
  | .hart | .se | .ce =>
    if s.eng.e[e].inTrap then engineTrap e s
    else s.onE e fun x => { x with inTrap := true, pc := x.pc.upd t fun _ => x.handler }
  | .bc => if s.sys.runState == .castOn then haltState 0x50 s else engineTrap e s
  | .uc => ucTrap s

/-- A trap: TRAPC, the steps it takes (R514), and the reaction. The instruction has no other effect (R95). -/
def trapNow (e : Fin 24) (c : Cause) (n : Nat) (s : State) : State :=
  let t := taskOf s e
  let pc := pcOf s e
  noting (reactTo e t c pc) (spend e t n <| s.onE e fun x => { x with trapc := trapWord c t pc })

/-! ## Compare lanes (R130 to R133, Table 5-3) -/

/-- The bits that a lane compares of a value. -/
def Field.mask (f : Field) : Word := BitVec.ofNat 32 (2 ^ f.width - 1)

/-- The knit value differs from the complement of the purl value. -/
def Field.off (f : Field) : Bool := (f.knit ^^^ ~~~f.purl) &&& f.mask != 0

/-- What a disturbance inverts in a value. -/
def flips (i : Issue) (lane ix : Nat) : Word :=
  (i.dis.filter fun u => u.lane == lane && u.field == ix).foldl (fun w u => w ^^^ u.mask) 0

/-- A value under the disturbance of its instruction. -/
def Field.hit (i : Issue) (f : Field) : Field :=
  let m := flips i f.lane f.ix
  if i.inKnit then { f with knit := f.knit ^^^ m } else { f with purl := f.purl ^^^ m }

/-- The first disagreeing value of the lowest-numbered lane (R132). -/
def firstOff (l : List Field) : Option Field := [1, 2, 3, 4, 5, 6].findSome? fun n => l.find? fun f => f.lane == n

/-- The first mismatch since cast-on is kept (SC_COREn_MMLANE). -/
def noteMismatch (c : Fin 4) (t : Fin 16) (lane : Nat) (multi : Bool) (knit purl : Word) (s : State) : State :=
  s.onC c fun x =>
    if fld x.mmLane 2 0 ≠ 0 then x
    else { x with
      mmLane := at_ lane 0 ||| flag multi 3 ||| at_ t.val 4 ||| at_ x.seq.toNat 16, mmKnit := knit, mmPurl := purl }

/-- A mismatch (R132, R133): `off` are the values that disagree. -/
def mismatchNow (e : Fin 24) (off : List Field) (n : Nat) (s : State) : State :=
  match firstOff off with
  | none => s
  | some f =>
    trapNow e .mismatch n <|
      noteMismatch (coreOf e) (taskOf s e) f.lane (off.any fun x => x.lane != f.lane) (f.knit &&& f.mask) (~~~f.purl &&& f.mask) s

/-- Lane 1: destination index and value of a W register. -/
def laneReg (d : WReg) (v pv : Word) : List Field :=
  [⟨1, 0, 5, BitVec.ofNat 32 d.val, ~~~(BitVec.ofNat 32 d.val)⟩, ⟨1, 1, 32, v, pv⟩]

/-- Lane 1: destination index and value of a predicate. -/
def lanePred (d : PReg) (v pv : Bool) : List Field :=
  [⟨1, 0, 6, BitVec.ofNat 32 d.val, ~~~(BitVec.ofNat 32 d.val)⟩, ⟨1, 1, 1, flag v 0, flag pv 0⟩]

/-- W[d] ← v, with what the purl pass forms. -/
def putW (e : Fin 24) (d : WReg) (v pv : Word) (s : State) : Res := .ok (wPut e d v s) none (laneReg d v pv)

/-- P[d] ← v, with what the purl pass forms. -/
def putP (e : Fin 24) (d : PReg) (v pv : Bool) (s : State) : Res := .ok (pPut e d v s) none (lanePred d v pv)

/-! ## Fetch (R68, R72, R89, R91, R124) -/

/-- What an instruction's own fetch finds (R68, R72). -/
def fetchCause (i : Issue) (s : State) : Option Cause :=
  let a := (pcOf s i.eng).toNat
  if !inCode s.mem i.eng a 4 then some .access
  else if i.eccF == some true || eccAt s.mem i.eng a == some true then some .ecc
  else none

/-- The state after the fetch: a single-bit error is corrected and reported (R72). -/
def fetchReport (i : Issue) (s : State) : State :=
  let a := (pcOf s i.eng).toNat
  if i.eccF == some false || eccAt s.mem i.eng a == some false then eccCorrected i.eng a (issue i.eng s) else issue i.eng s

/-- The word of the executing instruction. -/
def codeWord (s : State) (e : Fin 24) : Word := readWord s.mem e (pcOf s e).toNat

/-- The word that the purl pass fetches, over the complementing read path (R124). -/
def purlWord (s : State) (e : Fin 24) : Word := ~~~(readWord s.mem e (~~~(purlPcOf s e)).toNat)

/-- Lane 4 of a port operation: operation and selector, of the word that each pass has fetched. -/
def lanePort (s : State) (e : Fin 24) : List Field :=
  [⟨4, 0, 6, codeWord s e >>> 26, ~~~(~~~(purlWord s e) >>> 26)⟩, ⟨4, 1, 16, codeWord s e, purlWord s e⟩]

/-- Lane 4: the operand value. -/
def laneVal (v pv : Word) : Field := ⟨4, 2, 32, v, pv⟩

/-- The knit pass of a safety core places what it read into the sample queue (R128). -/
def samplePut (e : Fin 24) (y : Sample) (s : State) : State :=
  if twin e then s.onC (coreOf e) fun x => { x with samples := x.samples ++ [y] } else s

/-- The oldest entry of the sample queue, which the purl pass takes (R128); a single-pass engine has none (R129). -/
def sampleOldest (e : Fin 24) (s : State) : Option Sample := if twin e then s.eng.c[coreOf e].samples.head? else none

/-- Lanes 1 and 4 of a sampled read of `v` into W[d], in the state `s` before the read: the purl pass takes the oldest entry, complemented, as
its result, and its tag (R128, R130). -/
def laneSample (s : State) (e : Fin 24) (d : WReg) (tag v : Word) : List Field :=
  let y := (sampleOldest e (samplePut e ⟨tag, v⟩ s)).getD ⟨tag, v⟩
  laneReg d v (~~~y.value) ++ [⟨4, 3, 32, tag, ~~~y.tag⟩]

/-- The tag of a sample: operation and selector. -/
def tagSel (s : State) (e : Fin 24) : Word := codeWord s e &&& 0xFC00FFFF

/-- The tag of a sample: operation and 24-bit address. -/
def tagAddr (s : State) (e : Fin 24) (x : Nat) : Word := (codeWord s e &&& 0xFC000000) ||| BitVec.ofNat 32 (x % 0x1000000)

/-- A sampled read into W[d]; `s0` is the state before the read, `s` that with what the read leaves (R128, R99). -/
def replay (e : Fin 24) (d : WReg) (v : Word) (s0 s : State) : Res :=
  .ok (wPut e d v s) none (laneSample s0 e d (tagSel s0 e) v ++ lanePort s0 e)

/-! ## One instruction -/

/-- What one pass finds for the instruction of `word` at the address of the task: the causes of its own fetch, of a word that no instruction is, of
registers that fail their check bits, of a must-be-zero field, of the work and of the step limit, the one that stands highest in
Table 3-5 (R85). -/
def judge (word : Word) (i : Issue) (n : Nat) (rs : List WReg) (ps : List PReg) (work : Work) (k q : Regs) (s : State) : Res :=
  match fetchCause i s with
  | some c => .trap c
  | none =>
    let is := wordIs word (codeWord s i.eng)
    if is = .reserved then .trap .illegal
    else if rfBad s i.eng rs ps then .trap .rfparity
    else if is = .dirty then .trap .illegal
    else match work k q (fetchReport i s) with
      | .trap (.user u) => if passesLimit s i.eng n then .trap .stepcap else .trap (.user u)
      | .trap c => .trap c
      | .ok u hop cmp => if passesLimit s i.eng n then .trap .stepcap else .ok u hop cmp

/-- The cause of a pass. -/
def Res.cause : Res → Option Cause
  | .trap c => some c
  | .ok .. => none

/-- Lane 3 of an instruction: its decision, the next address, and the word that its pass fetched. -/
def laneHop (s : State) (e : Fin 24) (hop : Option Hop) : List Field :=
  let h := hop.getD { taken := false, purlTaken := true, next := pcOf s e + 4, purlNext := purlNext (purlPcOf s e) }
  [⟨3, 0, 1, flag h.taken 0, flag h.purlTaken 0⟩, ⟨3, 1, 32, h.next, h.purlNext⟩, ⟨3, 2, 32, codeWord s e, purlWord s e⟩]

/-- Lane 5 of an instruction: whether each pass raises a trap, its cause and its word index (R131). -/
def laneTrap (s : State) (e : Fin 24) (k q : Option Cause) : List Field :=
  let code := fun (c : Option Cause) => match c with | some c => at_ c.code.toNat 0 | none => 0
  let ix := fun (c : Option Cause) (pc : Word) => if c.isSome then at_ (pc.toNat / 4 % 65536) 0 else 0
  [⟨5, 0, 1, flag k.isSome 0, ~~~(flag q.isSome 0)⟩, ⟨5, 1, 8, code k, ~~~(code q)⟩,
    ⟨5, 2, 16, ix k (pcOf s e), ~~~(ix q (~~~(purlPcOf s e)))⟩]

/-- What the compare unit compares for an instruction (R130): lanes 3 and 5 always, and what the work names where it forms a
result. -/
def compared (s : State) (e : Fin 24) (k : Res) (q : Option Cause) : List Field :=
  match k with
  | .trap c => laneHop s e none ++ laneTrap s e (some c) q
  | .ok _ hop cmp => cmp ++ laneHop s e hop ++ laneTrap s e none q

/-- The steps of an instruction (R97, R514): one where its own fetch traps or it is ILLEGAL. -/
def stepsTaken (i : Issue) (s : State) (n : Nat) (r : Res) : Nat :=
  if (fetchCause i s).isSome || r.cause == some .illegal then stepsOf i 1 1 else n

/-- The state in which a trap of the instruction is taken: a word that is read is reported where it had to be corrected. -/
def fetched (i : Issue) (s : State) : State := if (fetchCause i s).isSome then s else fetchReport i s

/-- The address after an instruction at `pc`. -/
def nextAddr (pc : Word) (hop : Option Hop) : Word := match hop with | some h => h.next | none => pc + 4

/-- The instruction completes: the task's address in both passes, and its steps. -/
def complete (e : Fin 24) (t : Fin 16) (pc : Word) (n : Nat) (hop : Option Hop) (s : State) : State :=
  let next := nextAddr pc hop
  spend e t n <| s.onE e fun x =>
    { x with pc := x.pc.upd t fun _ => next, purlPc := if twin e then x.purlPc.upd t fun _ => ~~~next else x.purlPc }

/-- One TSL-32 instruction: `word` is its encoding, `lo` and `hi` the range of its single-pass cost, `rs` and `ps` the registers and
predicates it reads. It executes where its word stands at the address of the running task; where another instruction's
word stands there, nothing happens. A safety core compares both passes before anything takes effect (R99, R130). -/
def tsl (word : Word) (i : Issue) (lo hi : Nat) (rs : List WReg) (ps : List PReg) (work : Work) (s : State) : State :=
  let e := i.eng
  if !tslReady s e || ((fetchCause i s).isNone && wordIs word (codeWord s e) = .other) then s
  else
    let n := stepsOf i lo hi
    let k := knitRegs (issue e s) e
    let q := purlRegs s e
    let r := judge word i n rs ps work k q s
    let m := stepsTaken i s n r
    let off := if twin e then
        ((compared s e r (judge word i n rs ps work q.back q s).cause).map (Field.hit i)).filter Field.off
      else []
    if testFull s e m then suspendTest (coreOf e) s
    else if !off.isEmpty then mismatchNow e off m (fetched i s)
    else match r with
      | .trap c => trapNow e c m (fetched i s)
      | .ok u hop _ => complete e (taskOf s e) (pcOf s e) n hop u

/-- An instruction as a command. -/
def run (word : Word) (i : Issue) (lo hi : Nat) (rs : List WReg) (ps : List PReg) (work : Work) (s : State) : Outc :=
  .next (tsl word i lo hi rs ps work s)

/-! ## Loads and stores (R68 to R72, R102) -/

/-- The address of a load or store (R88). -/
def memAddr (k : Regs) (a : WReg) (imm : Half) : Word := k.w a + sext imm

/-- The highest cost of an access: 4 in the shared window, else 1 (Table 4-6). -/
def memHi (s : State) (e : Fin 24) (a : WReg) (imm : Half) : Nat :=
  if inShared (memAddr (knitRegs (issue e s) e) a imm).toNat 1 then 4 else 1

/-- The check bits of the word that an access reads (R72). -/
def readCheck (i : Issue) (s : State) (x : Nat) : Option Bool :=
  if i.eccL == some true || eccAt s.mem i.eng x == some true then some true
  else if i.eccL == some false || eccAt s.mem i.eng x == some false then some false
  else none

/-- What a load of `n` bytes compares: in the shared window the replay of the sample with its address, elsewhere the word read
again at the purl address and complemented (R126, R128). -/
def loadCmp (s : State) (e : Fin 24) (d : WReg) (x : Nat) (px v : Word) (n : Nat) (pf : List Byte → Word) : List Field :=
  if inShared x 1 then
    laneSample s e d (tagAddr s e x) v ++
      [⟨4, 0, 6, codeWord s e >>> 26, ~~~(~~~(purlWord s e) >>> 26)⟩, ⟨4, 1, 24, BitVec.ofNat 32 x, px⟩]
  else laneReg d v (pf ((readBytes s.mem e (~~~px).toNat n).map fun b => ~~~b))

/-- A load of `n` bytes into W[d]: `f` gives the value of the bytes, `pf` the purl value of the complemented bytes (R71, R72,
R102). -/
def loadWork (i : Issue) (d a : WReg) (imm : Half) (n : Nat) (f pf : List Byte → Word) : Work := fun k q s =>
  let x := (memAddr k a imm).toNat
  if x % n ≠ 0 then .trap .align
  else if !mayLoad s.mem i.eng x n then .trap .access
  else
    let v := f (readBytes s.mem i.eng x n)
    let cmp := loadCmp s i.eng d x (purlAddr (q.w a) imm) v n pf
    match readCheck i s x with
    | some true => .trap .ecc
    | some false => .ok (wPut i.eng d v (eccCorrected i.eng x s)) none cmp
    | none => .ok (wPut i.eng d v s) none cmp

/-- A load. -/
def load (word : Word) (i : Issue) (d a : WReg) (imm : Half) (n : Nat) (f pf : List Byte → Word) (s : State) : Outc :=
  run word i 1 (memHi s i.eng a imm) [a] [] (loadWork i d a imm n f pf) s

/-- Lane 2: address, data and byte mask. -/
def laneStore (x px v pv mask : Word) : List Field := [⟨2, 0, 32, x, px⟩, ⟨2, 1, 32, v, pv⟩, ⟨2, 2, 4, mask, ~~~mask⟩]

/-- A store of the `n` low bytes of W[d]; a partial store reads the word first (R70, R71, R102). -/
def storeWork (i : Issue) (d a : WReg) (imm : Half) (n : Nat) : Work := fun k q s =>
  let e := i.eng
  let x := (memAddr k a imm).toNat
  let put := commitPut e (.store x ((wordBytes (k.w d)).take n))
  let cmp := laneStore (memAddr k a imm) (purlAddr (q.w a) imm) (k.w d) (q.w d) (BitVec.ofNat 32 ((2 ^ n - 1) * 2 ^ (x % 4)))
  if x % n ≠ 0 then .trap .align
  else if !mayStore s.mem e x n then .trap .access
  else if n = 4 then .ok (put s) none cmp
  else match readCheck i s x with
    | some true => .trap .ecc
    | some false => .ok (put (eccCorrected e x s)) none cmp
    | none => .ok (put s) none cmp

/-- A store. -/
def store (word : Word) (i : Issue) (d a : WReg) (imm : Half) (n : Nat) (s : State) : Outc :=
  run word i 1 (memHi s i.eng a imm) [d, a] [] (storeWork i d a imm n) s

end Sys2Proof.Machine
end

