-- ==== Sys2Proof/Machine/Flow.lean ====
section
/-! DEFINITION. Compares and predicate logic (Tables 3-11, 3-12, 4-5), loads and stores (Table 4-6), jumps and branches
(Table 4-7). -/

namespace Sys2Proof.Machine

/-! ## Compares (Table 4-5) -/

/-- P[pd] ← condition `c` of W[a] and the sign-extended immediate (Table 3-11); the purl pass forms the inverse condition. -/
def cmpImm (word : Word) (i : Issue) (c : Nat) (pd : Fin 32) (a : WReg) (imm : Half) (s : State) : Outc :=
  run word i 1 1 [a] [] (fun k q =>
    putP i.eng (Fin.ofNat 64 pd.val) ((condition c (k.w a) (sext imm)).getD false)
      ((purlCond c (q.w a) (~~~(sext imm))).getD false)) s

/-- CMP; a condition of 8–31 is ILLEGAL (Table 3-11). -/
def execCmp (i : Issue) (cond : BitVec 5) (pd : PReg) (a b : WReg) (s : State) : Outc :=
  run (encA 0x02 cond (regF a) (regF b) (predF pd ++ (0 : BitVec 5))) i 1 1 [a, b] [] (fun k q s =>
    match condition cond.toNat (k.w a) (k.w b) with
    | some v => putP i.eng pd v ((purlCond cond.toNat (q.w a) (q.w b)).getD false) s
    | none => .trap .illegal) s
/-- CMPIEQ (Table 4-5). -/
def execCmpieq (i : Issue) (pd : Fin 32) (a : WReg) (imm : Half) (s : State) : Outc :=
  cmpImm (encCmp 0x0A pd a imm) i 0 pd a imm s
/-- CMPINE (Table 4-5). -/
def execCmpine (i : Issue) (pd : Fin 32) (a : WReg) (imm : Half) (s : State) : Outc :=
  cmpImm (encCmp 0x0B pd a imm) i 1 pd a imm s
/-- CMPILT (Table 4-5). -/
def execCmpilt (i : Issue) (pd : Fin 32) (a : WReg) (imm : Half) (s : State) : Outc :=
  cmpImm (encCmp 0x0C pd a imm) i 2 pd a imm s
/-- CMPIGE (Table 4-5). -/
def execCmpige (i : Issue) (pd : Fin 32) (a : WReg) (imm : Half) (s : State) : Outc :=
  cmpImm (encCmp 0x0D pd a imm) i 3 pd a imm s
/-- CMPILTU (Table 4-5). -/
def execCmpiltu (i : Issue) (pd : Fin 32) (a : WReg) (imm : Half) (s : State) : Outc :=
  cmpImm (encCmp 0x0E pd a imm) i 4 pd a imm s
/-- CMPIGEU (Table 4-5). -/
def execCmpigeu (i : Issue) (pd : Fin 32) (a : WReg) (imm : Half) (s : State) : Outc :=
  cmpImm (encCmp 0x0F pd a imm) i 5 pd a imm s

/-! ## Predicate logic (Table 3-12) -/

/-- P[pd] ← f of predicates; `g` is the purl form. -/
def plog (word : Word) (i : Issue) (pd : PReg) (ps : List PReg) (f g : (PReg → Bool) → Bool) (s : State) : Outc :=
  run word i 1 1 [] ps (fun k q => putP i.eng pd (f k.p) (g q.p)) s

/-- PAND (Table 3-12). -/
def execPand (i : Issue) (pd pa pb : PReg) (s : State) : Outc :=
  plog (encLog pd pa pb 0x00) i pd [pa, pb] (fun p => p pa && p pb) (fun p => purlPand (p pa) (p pb)) s
/-- POR (Table 3-12). -/
def execPor (i : Issue) (pd pa pb : PReg) (s : State) : Outc :=
  plog (encLog pd pa pb 0x01) i pd [pa, pb] (fun p => p pa || p pb) (fun p => purlPor (p pa) (p pb)) s
/-- PXOR (Table 3-12). -/
def execPxor (i : Issue) (pd pa pb : PReg) (s : State) : Outc :=
  plog (encLog pd pa pb 0x02) i pd [pa, pb] (fun p => p pa ^^ p pb) (fun p => purlPxor (p pa) (p pb)) s
/-- PANDN (Table 3-12). -/
def execPandn (i : Issue) (pd pa pb : PReg) (s : State) : Outc :=
  plog (encLog pd pa pb 0x03) i pd [pa, pb] (fun p => p pa && !p pb) (fun p => purlPandn (p pa) (p pb)) s
/-- PNOT (Table 3-12). -/
def execPnot (i : Issue) (pd pa : PReg) (s : State) : Outc :=
  plog (encLog pd pa 0 0x04) i pd [pa] (fun p => !p pa) (fun p => purlPnot (p pa)) s
/-- PMOV (Table 3-12). -/
def execPmov (i : Issue) (pd pa : PReg) (s : State) : Outc :=
  plog (encLog pd pa 0 0x05) i pd [pa] (fun p => p pa) (fun p => purlPmov (p pa)) s
/-- PSET (Table 3-12). -/
def execPset (i : Issue) (pd : PReg) (s : State) : Outc := plog (encLog pd 0 0 0x06) i pd [] (fun _ => true) (fun _ => purlPset) s
/-- PCLR (Table 3-12). -/
def execPclr (i : Issue) (pd : PReg) (s : State) : Outc := plog (encLog pd 0 0 0x07) i pd [] (fun _ => false) (fun _ => purlPclr) s

/-! ## Loads and stores (Table 4-6) -/

/-- LDW (Table 4-6). -/
def execLdw (i : Issue) (d a : WReg) (imm : Half) (s : State) : Outc :=
  load (encImm 0x10 d a imm) i d a imm 4 bytesWord purlLdw s
/-- LDH (Table 4-6). -/
def execLdh (i : Issue) (d a : WReg) (imm : Half) (s : State) : Outc :=
  load (encImm 0x11 d a imm) i d a imm 2 (fun b => (bytesHalf b).signExtend 32) purlLdh s
/-- LDHU (Table 4-6). -/
def execLdhu (i : Issue) (d a : WReg) (imm : Half) (s : State) : Outc :=
  load (encImm 0x12 d a imm) i d a imm 2 (fun b => (bytesHalf b).zeroExtend 32) purlLdhu s
/-- LDB (Table 4-6). -/
def execLdb (i : Issue) (d a : WReg) (imm : Half) (s : State) : Outc :=
  load (encImm 0x13 d a imm) i d a imm 1 (fun b => (b.getD 0 0).signExtend 32) purlLdb s
/-- LDBU (Table 4-6). -/
def execLdbu (i : Issue) (d a : WReg) (imm : Half) (s : State) : Outc :=
  load (encImm 0x14 d a imm) i d a imm 1 (fun b => (b.getD 0 0).zeroExtend 32) purlLdbu s
/-- STW (Table 4-6). -/
def execStw (i : Issue) (d a : WReg) (imm : Half) (s : State) : Outc := store (encImm 0x15 d a imm) i d a imm 4 s
/-- STH (Table 4-6). -/
def execSth (i : Issue) (d a : WReg) (imm : Half) (s : State) : Outc := store (encImm 0x16 d a imm) i d a imm 2 s
/-- STB (Table 4-6). -/
def execStb (i : Issue) (d a : WReg) (imm : Half) (s : State) : Outc := store (encImm 0x17 d a imm) i d a imm 1 s

/-! ## Jumps and branches (Table 4-7) -/

/-- The target of a J or C instruction: its own address plus 4 times the offset (R88). -/
def relTarget (s : State) (e : Fin 24) (off : Word) : Word := pcOf s e + off * 4

/-- A jump to `off` words from the instruction, with the purl target from the purl program counter (R126). -/
def relHop (s : State) (e : Fin 24) (off : Word) : Hop :=
  { next := relTarget s e off, purlNext := purlTarget (purlPcOf s e) off }

/-- J. -/
def execJ (i : Issue) (off : BitVec 26) (s : State) : Outc :=
  run (encJ 0x18 off) i 2 2 [] [] (fun _ _ s => .ok s (some (relHop s i.eng (off.signExtend 32))) []) s

/-- What the link register takes, and lane 1 of it. -/
def linkTo (i : Issue) (d : WReg) (hop : Hop) (s : State) : Res :=
  .ok (wPut i.eng d (pcOf s i.eng + 4) s) (some hop) (laneReg d (pcOf s i.eng + 4) (purlNext (purlPcOf s i.eng)))

/-- JAL. -/
def execJal (i : Issue) (off : BitVec 26) (s : State) : Outc :=
  run (encJ 0x19 off) i 2 2 [] [] (fun _ _ s => linkTo i 31 (relHop s i.eng (off.signExtend 32)) s) s

/-- A branch taken where `take` holds of the predicate: 2 steps taken, 1 not. The purl pass decides from the complemented
predicate. -/
def branch (word : Word) (i : Issue) (p : PReg) (off : BitVec 20) (take : Bool → Bool) (s : State) : Outc :=
  let c := if take (pGet s i.eng p) then 2 else 1
  run word i c c [] [p] (fun k q s =>
    let h := relHop s i.eng (off.signExtend 32)
    let pt := take (!q.p p)
    .ok s (some
      { taken := take (k.p p), purlTaken := !pt
        next := if take (k.p p) then h.next else pcOf s i.eng + 4
        purlNext := if pt then h.purlNext else purlNext (purlPcOf s i.eng) }) []) s

/-- BT. -/
def execBt (i : Issue) (p : PReg) (off : BitVec 20) (s : State) : Outc := branch (encC 0x1A (predF p) off) i p off id s

/-- BF. -/
def execBf (i : Issue) (p : PReg) (off : BitVec 20) (s : State) : Outc := branch (encC 0x1B (predF p) off) i p off not s

/-- JR: a target in a register is a multiple of 4 (R71). -/
def execJr (i : Issue) (a : WReg) (s : State) : Outc :=
  run (encA 0x1C 0 (regF a) 0 0x000) i 2 2 [a] [] (fun k q s =>
    if (k.w a).toNat % 4 ≠ 0 then .trap .align else .ok s (some { next := k.w a, purlNext := q.w a }) []) s

/-- JALR reads W[a] before it writes W[d] (R103). -/
def execJalr (i : Issue) (d a : WReg) (s : State) : Outc :=
  run (encA 0x1C (regF d) (regF a) 0 0x001) i 2 2 [a] [] (fun k q s =>
    if (k.w a).toNat % 4 ≠ 0 then .trap .align else linkTo i d { next := k.w a, purlNext := q.w a } s) s

end Sys2Proof.Machine
end

