-- ==== Sys2Proof/Machine/Control.lean ====
section
/-! DEFINITION. SIGF and the SYS instructions (Table 4-8), the timebase, check-value, timer and event instructions (Tables 4-11 to
4-14). -/

namespace Sys2Proof.Machine

/-! ## SIGF and SYS (Table 4-8) -/

/-- SIGF: safety cores only (R62, R67). Both passes fold into accumulators of their own, which only SEAL compares: a disturbance of one
stays in it (R126, R130). -/
def execSigf (i : Issue) (imm : Half) (s : State) : Outc :=
  run (encImm 0x1D 0 0 imm) i 1 1 [] [] (fun _ _ s =>
    let m := flips i 6 0
    if twin i.eng then okay (s.onC (coreOf i.eng) fun x =>
      { x with sig := sigFold x.sig imm ^^^ (if i.inKnit then m else 0), purlSig := purlSig x.purlSig imm ^^^ (if i.inKnit then 0 else m) })
    else .trap .priv) s

/-- SCAN (Table 3-2): the scan sequence of a safety core, the running task, FIRST. -/
def scanWord (s : State) (e : Fin 24) : Word :=
  let c := s.eng.c[coreOf e]
  (if twin e then at_ c.seq.toNat 0 ||| flag c.first 24 else 0) ||| at_ (taskOf s e).val 16

/-- RDS (Table 3-2). PC, SCAN, TRAPC and SIG are complemented on the purl read, PC and SIG from the purl pass's own; STEPS, the count
before the RDS itself, is sampled (Table 3-13). SIG of an engine that holds no signature is a free value. -/
def execRds (i : Issue) (d : WReg) (arg : Byte) (s : State) : Outc :=
  run (encSys d 0 0x01 arg) i 1 1 [] [] (fun _ _ s =>
    let e := i.eng
    let x := s.eng.e[e]
    let c := s.eng.c[coreOf e]
    match arg.toNat with
    | 0 => putW e d (pcOf s e) (purlPcOf s e) s
    | 1 => putW e d (scanWord s e) (~~~(scanWord s e)) s
    | 2 => replay e d x.steps[taskOf s e] s s
    | 3 => putW e d x.trapc (~~~x.trapc) s
    | 4 => if twin e then putW e d c.sig c.purlSig s else putW e d (Config.freeWord s.takeFree.1) 0 s.takeFree.2
    | _ => .trap .illegal) s

/-- WRS: TRAPC, on single-pass engines and split harts only (R66). -/
def execWrs (i : Issue) (arg : Byte) (a : WReg) (s : State) : Outc :=
  run (encSys 0 a 0x02 arg) i 1 1 [a] [] (fun k _ s =>
    if twin i.eng || arg != 3 then .trap .priv
    else okay (s.onE i.eng fun x => { x with trapc := k.w a })) s

/-- The end of the running task by YIELD (R104): INIT and an event task end, TEST is suspended. -/
def yieldTask (e : Fin 24) (s : State) : State :=
  let s1 := s.onE e fun x => { x with task := none, inTrap := false }
  if twin e && taskOf s e == 0 then s1.onC (coreOf e) fun x => { x with initDone := true } else s1

/-- YIELD; SEALSEQ in SCAN (R79). -/
def execYield (i : Issue) (s : State) : Outc :=
  run (encSys 0 0 0x03 0) i 1 1 [] [] (fun _ _ s =>
    if twin i.eng && taskOf s i.eng == 1 then .trap .sealseq else okay (yieldTask i.eng s)) s

/-- TRET (R87, R105). -/
def execTret (i : Issue) (s : State) : Outc :=
  run (encSys 0 0 0x04 0) i 2 2 [] [] (fun _ _ s =>
    let x := s.eng.e[i.eng]
    let next := at_ (fld x.trapc 31 16) 2
    if twin i.eng || !x.inTrap then .trap .priv
    else .ok (s.onE i.eng fun x => { x with inTrap := false }) (some { next := next, purlNext := ~~~next }) []) s

/-- TRAP. -/
def execTrap (i : Issue) (arg : BitVec 6) (s : State) : Outc := 
  run (encSys 0 0 0x05 ((0 : BitVec 2) ++ arg)) i 1 1 [] [] (fun _ _ _ => .trap (.user arg)) s

/-- FENCE: earlier stores of a task are visible at once, since each command is whole (R70). -/
def execFence (i : Issue) (s : State) : Outc := run (encSys 0 0 0x06 0) i 1 8 [] [] (fun _ _ => okay) s

/-! ## Timebase (Table 4-11) -/

/-- TBLO: the low word, with the high word latched for the task (R113). -/
def execTblo (i : Issue) (d : WReg) (s : State) : Outc :=
  run (encX 0x24 d 0 1 0) i 1 1 [] [] (fun _ _ s =>
    replay i.eng d (s.t.tbA.truncate 32) s (s.onE i.eng fun x =>
      { x with tbHi := x.tbHi.upd (taskOf s i.eng) fun _ => s.t.tbA.extractLsb' 32 32 })) s

/-- TBHI. -/
def execTbhi (i : Issue) (d : WReg) (s : State) : Outc :=
  run (encX 0x24 d 0 2 0) i 1 1 [] [] (fun _ _ s => replay i.eng d s.eng.e[i.eng].tbHi[taskOf s i.eng] s s) s

/-- TBREL: twin-pass safety cores only. -/
def execTbrel (i : Issue) (d : WReg) (s : State) : Outc :=
  run (encX 0x24 d 0 3 0) i 1 1 [] [] (fun _ _ s =>
    if twin i.eng then replay i.eng d ((s.eng.c[coreOf i.eng].release).truncate 32) s s else .trap .priv) s

/-! ## Check-value units (Table 4-12) -/

/-- Lane 4 of an operation that takes W[a] and writes no register (Table 5-1: same selector, operand complemented). -/
def portCmp (s : State) (e : Fin 24) (v pv : Word) : List Field := lanePort s e ++ [laneVal v pv]

/-- An operation of the owner on a unit that is not DMA-fed (R114), with the comparison of R353. -/
def cvuOp (word : Word) (i : Issue) (cost : Nat) (u : Fin 4) (a : WReg) (agree : Bool) (absorbs : Cvu → Bool) (f : Word → Cvu → Cvu)
    (s : State) : Outc :=
  run word i cost cost [a] [] (fun k q s =>
    let x := s.cvu.u[u]
    if x.owner != i.eng.val || x.dmaFed then .trap .port
    else .ok (noting (cvuTake u agree absorbs (f (k.w a))) s) none (portCmp s i.eng (k.w a) (q.w a))) s

/-- FEED. -/
def execFeed (i : Issue) (u : Fin 4) (a : WReg) (agree : Bool) (s : State) : Outc :=
  cvuOp (encX 0x25 0 a 1 (BitVec.ofNat 12 u.val)) i 2 u a agree Cvu.open_ (fun w => Cvu.feed (wordBytes w)) s

/-- READ: under a disagreement the value is complemented (R353). -/
def execCvuRead (i : Issue) (d : WReg) (u : Fin 4) (agree : Bool) (s : State) : Outc :=
  run (encX 0x25 d 0 2 (BitVec.ofNat 12 u.val)) i 1 1 [] [] (fun _ _ s =>
    let x := s.cvu.u[u]
    if x.owner != i.eng.val then .trap .port
    else replay i.eng d (if agree then x.read else ~~~x.value) s (noting (cvuCheck u agree) s)) s

/-- LOAD. -/
def execCvuLoad (i : Issue) (u : Fin 4) (a : WReg) (s : State) : Outc :=
  cvuOp (encX 0x25 0 a 3 (BitVec.ofNat 12 u.val)) i 1 u a true Cvu.open_ Cvu.load s

/-- CTXS (R115). -/
def execCtxs (i : Issue) (u : Fin 4) (a : WReg) (agree : Bool) (s : State) : Outc :=
  cvuOp (encX 0x25 0 a 4 (BitVec.ofNat 12 u.val)) i 2 u a agree Cvu.fresh_ Cvu.start s

/-- CTXE. -/
def execCtxe (i : Issue) (u : Fin 4) (a : WReg) (agree : Bool) (s : State) : Outc :=
  cvuOp (encX 0x25 0 a 5 (BitVec.ofNat 12 u.val)) i 2 u a agree Cvu.open_ Cvu.stop s

/-! ## Timers (Table 4-13) -/

/-- SNAP (R245, R246). -/
def execSnap (i : Issue) (g : Fin 16) (s : State) : Outc :=
  run (encX 0x26 0 0 1 (BitVec.ofNat 12 g.val)) i 1 1 [] [] (fun _ _ s =>
    if s.tmr.grp[g].owner.toNat == i.eng.val then .ok (snapGroup g s) none (lanePort s i.eng) else .trap .port) s

/-- A read of a channel's register by its owner through TMR function `fn`, with what the read leaves of the timers. -/
def tmrRead (fn : BitVec 4) (i : Issue) (d : WReg) (n : Fin 32) (v : TmrS → Word) (f : State → State) (s : State) : Outc :=
  run (encX 0x26 d 0 fn (BitVec.ofNat 12 n.val)) i 1 1 [] [] (fun _ _ s =>
    if tmrOwner s.tmr n == i.eng.val then replay i.eng d (v s.tmr) s (f s) else .trap .port) s

/-- RDSNAP. -/
def execRdsnap (i : Issue) (d : WReg) (n : Fin 32) (s : State) : Outc := tmrRead 2 i d n (fun x => x.ch[n].snap) id s

/-- WRCMP: not on a twin-pass safety core (R242). -/
def execWrcmp (i : Issue) (n : Fin 32) (a : WReg) (s : State) : Outc :=
  run (encX 0x26 0 a 3 (BitVec.ofNat 12 n.val)) i 1 1 [a] [] (fun k _ s =>
    if twin i.eng then .trap .priv
    else if tmrOwner s.tmr n == i.eng.val then okay (writeCmp n (k.w a) s) else .trap .port) s

/-- A read of the capture pair, after the captures of its tick (R116, Table 9-3). -/
def capRead (fn : BitVec 4) (i : Issue) (d : WReg) (n : Fin 32) (v : TmrS → Word) (f : State → State) (s : State) : Outc :=
  run (encX 0x26 d 0 fn (BitVec.ofNat 12 n.val)) i 1 1 [] [] (fun _ _ s =>
    if tmrOwner s.tmr n == i.eng.val then
      let t := noting (captures n) s
      replay i.eng d (v t.tmr) s (f t)
    else .trap .port) s

/-- RDCAPR clears CAPRF and locks the pair, both halves where it is linked; on an odd half it locks nothing (R116, R249, R255). -/
def execRdcapr (i : Issue) (d : WReg) (n : Fin 32) (s : State) : Outc :=
  capRead 4 i d n (fun x => x.ch[n].capr)
    (fun s => onLock n (fun c => { c with lock := true }) (s.onTc n fun c => { c with caprf := false })) s

/-- RDCAPF of a locked pair clears CAPFF, unlocks it and moves the hold in, both halves where it is linked; without a lock it changes
nothing, and on an odd half it unlocks nothing (R116, R249). -/
def execRdcapf (i : Issue) (d : WReg) (n : Fin 32) (s : State) : Outc :=
  capRead 5 i d n (fun x => x.ch[n].capf)
    (fun s => if s.tmr.ch[n].lock then onLock n TmrCh.unlock (s.onTc n fun c => { c with capff := false }) else s) s

/-- RDSTAT: the flags that a read of the owner clears (TMR_CHn_STAT). -/
def execRdstat (i : Issue) (d : WReg) (n : Fin 32) (s : State) : Outc :=
  tmrRead 6 i d n (fun x => statOf x n) (fun s => s.onTc n statClear) s

/-! ## Events (Table 4-14) -/

/-- EVWAIT (R117): at once where the flag is pending, else the task waits. -/
def execEvwait (i : Issue) (ev : BitVec 7) (s : State) : Outc :=
  run (encX 0x27 0 0 1 ((0 : BitVec 5) ++ ev)) i 1 1 [] [] (fun _ _ s =>
    if twin i.eng then .trap .priv
    else okay (s.onE i.eng fun x =>
      if bit x.flags ev.toNat then { x with flags := setBit x.flags ev.toNat false }
      else { x with waiting := x.waiting.upd (taskOf s i.eng) fun _ => some ev, task := none })) s

/-- EVPEND: on a safety core the events latched at the release (R453). -/
def execEvpend (i : Issue) (d : WReg) (k : Fin 4) (s : State) : Outc :=
  run (encX 0x27 d 0 2 (BitVec.ofNat 12 k.val)) i 1 1 [] [] (fun _ _ s =>
    let x := s.eng.e[i.eng]
    replay i.eng d (flagWord (if twin i.eng then x.latched else x.flags) k.val) s s) s

/-- EVCLR. -/
def execEvclr (i : Issue) (ev : BitVec 7) (s : State) : Outc :=
  run (encX 0x27 0 0 3 ((0 : BitVec 5) ++ ev)) i 1 1 [] [] (fun _ _ s =>
    if twin i.eng then .trap .priv
    else okay (s.onE i.eng fun x => { x with flags := setBit x.flags ev.toNat false })) s

end Sys2Proof.Machine
end

