-- ==== Sys2Proof/Machine/Cvu.lean ====
section
/-! DEFINITION. Commands of the check-value units and the DMA channels (file 13) that reach no register space. -/

namespace Sys2Proof.Machine

/-- A write of CVU_Un_VALUE (R349). -/
def execCvuValueWrite (src : Src) (u : Fin 4) (v : Word) (s : State) : Outc := .next (fromSrc src (cvuValue src u v) s)

/-- A write of CTXS_WORD, CTXE_WORD or EXPECT (R355). -/
def execCvuContextWrite (src : Src) (u : Fin 4) (which : Fin 3) (v : Word) (s : State) : Outc :=
  .next (fromSrc src (cvuContext src u which v) s)

/-- A write of CVU_Un_FEED (R354). -/
def execCvuFeedWrite (src : Src) (u : Fin 4) (v : Word) (agree : Bool) (s : State) : Outc :=
  .next (fromSrc src (noting (cvuFeed src u v agree)) s)

/-- CVU_Un_CMD 1 (R351). -/
def execCvuFoldCtxs (src : Src) (u : Fin 4) (agree : Bool) (s : State) : Outc := .next (fromSrc src (noting (cvuFold src u 1 agree)) s)

/-- CVU_Un_CMD 2 (R351). -/
def execCvuFoldCtxe (src : Src) (u : Fin 4) (agree : Bool) (s : State) : Outc := .next (fromSrc src (noting (cvuFold src u 2 agree)) s)

/-- DMA_CHd_CMD START (R357). -/
def execDmaStart (src : Src) (c : Checked (Fin 16)) (s : State) : Outc :=
  .next (fromSrc src (noting (dmaStart src c.what c.agree)) s)

/-- DMA_CHd_CMD STOP (R355). -/
def execDmaStop (src : Src) (d : Fin 16) (s : State) : Outc := .next (fromSrc src (dmaStop src d) s)

/-- The timer trigger or the event of channel `d`'s REQ setting requests a burst; a channel on software requests takes START alone
(R357). -/
def execDmaRequest (d : Fin 16) (s : State) : Outc := .next (if fld s.cvu.d[d].cfg 9 8 = 0 then s else dmaRequest d s)

/-- A write of SRC, DST or COUNT (R356). -/
def execDmaRegWrite (src : Src) (d : Fin 16) (which : Fin 3) (v : Word) (s : State) : Outc := .next (fromSrc src (dmaWrite src d which v) s)

end Sys2Proof.Machine
end

