-- ==== Sys2Proof/Machine/Integer.lean ====
section
/-! DEFINITION. The integer instructions: ALU, immediates, multiply and divide (Tables 3-9, 3-10, 4-2 to 4-4). -/

namespace Sys2Proof.Machine

/-! ## Shapes -/

/-- W[d] ← f W[a] W[b]; `g` is the purl form. -/
def alu3 (word : Word) (i : Issue) (cost : Nat) (d a b : WReg) (f g : Word → Word → Word) (s : State) : Outc :=
  run word i cost cost [a, b] [] (fun k q => putW i.eng d (f (k.w a) (k.w b)) (g (q.w a) (q.w b))) s

/-- W[d] ← f W[a]; `g` is the purl form. -/
def alu2 (word : Word) (i : Issue) (d a : WReg) (f g : Word → Word) (s : State) : Outc :=
  run word i 1 1 [a] [] (fun k q => putW i.eng d (f (k.w a)) (g (q.w a))) s

/-- W[d] ← f W[a] W[b], with DIVZERO where W[b] is 0 (R101); `g` is the purl form. -/
def alu3Div (word : Word) (i : Issue) (d a b : WReg) (f g : Word → Word → Word) (s : State) : Outc :=
  run word i 18 18 [a, b] [] (fun k q s =>
    if k.w b = 0 then .trap .divzero else putW i.eng d (f (k.w a) (k.w b)) (g (q.w a) (q.w b)) s) s

/-! ## ALU (Table 4-2) -/

/-- ADD (Table 4-2). -/
def execAdd (i : Issue) (d a b : WReg) (s : State) : Outc := alu3 (encAlu d a b 0x000) i 1 d a b (fun a b => a + b) purlAdd s
/-- SUB (Table 4-2). -/
def execSub (i : Issue) (d a b : WReg) (s : State) : Outc := alu3 (encAlu d a b 0x001) i 1 d a b (fun a b => a - b) purlSub s
/-- AND (Table 4-2). -/
def execAnd (i : Issue) (d a b : WReg) (s : State) : Outc := alu3 (encAlu d a b 0x002) i 1 d a b (fun a b => a &&& b) purlAnd s
/-- OR (Table 4-2). -/
def execOr (i : Issue) (d a b : WReg) (s : State) : Outc := alu3 (encAlu d a b 0x003) i 1 d a b (fun a b => a ||| b) purlOr s
/-- XOR (Table 4-2). -/
def execXor (i : Issue) (d a b : WReg) (s : State) : Outc := alu3 (encAlu d a b 0x004) i 1 d a b (fun a b => a ^^^ b) purlXor s
/-- ANDN (Table 4-2). -/
def execAndn (i : Issue) (d a b : WReg) (s : State) : Outc := alu3 (encAlu d a b 0x005) i 1 d a b (fun a b => a &&& ~~~b) purlAndn s
/-- SHL (Table 4-2). -/
def execShl (i : Issue) (d a b : WReg) (s : State) : Outc :=
  alu3 (encAlu d a b 0x006) i 1 d a b (fun a b => shl a (shCount b)) (fun a b => purlShl a (purlCount b)) s
/-- SHR (Table 4-2). -/
def execShr (i : Issue) (d a b : WReg) (s : State) : Outc :=
  alu3 (encAlu d a b 0x007) i 1 d a b (fun a b => shr a (shCount b)) (fun a b => purlShr a (purlCount b)) s
/-- SAR (Table 4-2). -/
def execSar (i : Issue) (d a b : WReg) (s : State) : Outc :=
  alu3 (encAlu d a b 0x008) i 1 d a b (fun a b => sar a (shCount b)) (fun a b => purlSar a (purlCount b)) s
/-- ROL (Table 4-2). -/
def execRol (i : Issue) (d a b : WReg) (s : State) : Outc :=
  alu3 (encAlu d a b 0x009) i 1 d a b (fun a b => rol a (shCount b)) (fun a b => purlRol a (purlCount b)) s
/-- MIN (Table 4-2). -/
def execMin (i : Issue) (d a b : WReg) (s : State) : Outc := alu3 (encAlu d a b 0x00A) i 1 d a b minS purlMin s
/-- MAX (Table 4-2). -/
def execMax (i : Issue) (d a b : WReg) (s : State) : Outc := alu3 (encAlu d a b 0x00B) i 1 d a b maxS purlMax s
/-- MINU (Table 4-2). -/
def execMinu (i : Issue) (d a b : WReg) (s : State) : Outc := alu3 (encAlu d a b 0x00C) i 1 d a b minU purlMinu s
/-- MAXU (Table 4-2). -/
def execMaxu (i : Issue) (d a b : WReg) (s : State) : Outc := alu3 (encAlu d a b 0x00D) i 1 d a b maxU purlMaxu s
/-- ADDS (Table 4-2). -/
def execAdds (i : Issue) (d a b : WReg) (s : State) : Outc := alu3 (encAlu d a b 0x00E) i 1 d a b addS purlAdds s
/-- SUBS (Table 4-2). -/
def execSubs (i : Issue) (d a b : WReg) (s : State) : Outc := alu3 (encAlu d a b 0x00F) i 1 d a b subS purlSubs s
/-- SEL (Table 4-2). -/
def execSel (i : Issue) (d a b : WReg) (p : PReg) (s : State) : Outc :=
  run (encAlu d a b (predF p ++ (0x10 : BitVec 5))) i 1 1 [a, b] [p] (fun k q =>
    putW i.eng d (if k.p p then k.w a else k.w b) (purlSel (q.p p) (q.w a) (q.w b))) s
/-- CLZ (Table 4-2). -/
def execClz (i : Issue) (d a : WReg) (s : State) : Outc := alu2 (encAlu d a 0 0x011) i d a clz purlClz s
/-- SEXTB (Table 4-2). -/
def execSextb (i : Issue) (d a : WReg) (s : State) : Outc := alu2 (encAlu d a 0 0x012) i d a sextB purlSextb s
/-- SEXTH (Table 4-2). -/
def execSexth (i : Issue) (d a : WReg) (s : State) : Outc := alu2 (encAlu d a 0 0x013) i d a sextH purlSexth s

/-! ## Immediates (Table 4-3) -/

/-- ADDI (Table 4-3). -/
def execAddi (i : Issue) (d a : WReg) (imm : Half) (s : State) : Outc :=
  alu2 (encImm 0x04 d a imm) i d a (fun a => a + sext imm) (purlAddi imm) s
/-- ANDI (Table 4-3). -/
def execAndi (i : Issue) (d a : WReg) (imm : Half) (s : State) : Outc :=
  alu2 (encImm 0x05 d a imm) i d a (fun a => a &&& imm.zeroExtend 32) (purlAndi imm) s
/-- ORI (Table 4-3). -/
def execOri (i : Issue) (d a : WReg) (imm : Half) (s : State) : Outc :=
  alu2 (encImm 0x06 d a imm) i d a (fun a => a ||| imm.zeroExtend 32) (purlOri imm) s
/-- XORI (Table 4-3). -/
def execXori (i : Issue) (d a : WReg) (imm : Half) (s : State) : Outc :=
  alu2 (encImm 0x07 d a imm) i d a (fun a => a ^^^ imm.zeroExtend 32) (purlXori imm) s
/-- LUI (Table 4-3). -/
def execLui (i : Issue) (d : WReg) (imm : Half) (s : State) : Outc :=
  run (encImm 0x08 d 0 imm) i 1 1 [] [] (fun _ _ => putW i.eng d (imm.zeroExtend 32 <<< 16) (purlLui imm)) s
/-- SHI (Table 4-3). -/
def execShi (i : Issue) (d a : WReg) (k : BitVec 2) (n : BitVec 5) (s : State) : Outc :=
  alu2 (encImm 0x09 d a ((0 : BitVec 9) ++ k ++ n)) i d a (shiftKind k n.toNat) (purlShift k n.toNat) s

/-! ## Multiply and divide (Table 4-4) -/

/-- MUL (Table 4-4). -/
def execMul (i : Issue) (d a b : WReg) (s : State) : Outc := alu3 (encMul d a b 0x000) i 2 d a b mulLo purlMul s
/-- MULH (Table 4-4). -/
def execMulh (i : Issue) (d a b : WReg) (s : State) : Outc := alu3 (encMul d a b 0x001) i 2 d a b mulHi purlMulh s
/-- MULHU (Table 4-4). -/
def execMulhu (i : Issue) (d a b : WReg) (s : State) : Outc := alu3 (encMul d a b 0x002) i 2 d a b mulHiU purlMulhu s
/-- MULQ (Table 4-4). -/
def execMulq (i : Issue) (d a b : WReg) (s : State) : Outc := alu3 (encMul d a b 0x003) i 3 d a b mulQ purlMulq s
/-- DIV (Table 4-4, R101). -/
def execDiv (i : Issue) (d a b : WReg) (s : State) : Outc := alu3Div (encMul d a b 0x004) i d a b divS purlDiv s
/-- DIVU (Table 4-4, R101). -/
def execDivu (i : Issue) (d a b : WReg) (s : State) : Outc := alu3Div (encMul d a b 0x005) i d a b divU purlDivu s
/-- REM (Table 4-4, R101). -/
def execRem (i : Issue) (d a b : WReg) (s : State) : Outc := alu3Div (encMul d a b 0x006) i d a b remS purlRem s
/-- REMU (Table 4-4, R101). -/
def execRemu (i : Issue) (d a b : WReg) (s : State) : Outc := alu3Div (encMul d a b 0x007) i d a b remU purlRemu s

end Sys2Proof.Machine
end

