-- ==== Sys2Proof/Machine/Ports.lean ====
section
/-! DEFINITION. IN and OUT over the port classes (R63, R106 to R108, Tables 3-14 and 4-9), and the safety operations DEMAND,
PERMIT and SEAL (R92, R109 to R112). -/

namespace Sys2Proof.Machine

/-! ## Rights (Table 3-1, R63) -/

/-- The running task is an integrator slot. -/
def inSlot (s : State) (e : Fin 24) : Bool := !twin e && bit s.eng.e[e].slots (taskOf s e).val

/-- The class of an engine may use a port class, apart from slots (Table 3-1, Table 4-9). -/
def classMay (e : Fin 24) (cls : Nat) (out : Bool) : Bool :=
  match clsOf e with
  | .sc => if out then cls == 6 || cls == 7 || cls == 9 else decide (cls ≤ 0xA)
  | .hart => decide (cls ≤ 0xD) && cls != 0xC
  | .se | .ce => decide (cls ≤ 0xD)
  | .bc => true
  | .uc => decide (cls ≤ 0xD) || cls == 0xF

/-- The direction does not exist (Table 3-14). -/
def noDirection (cls : Nat) (out : Bool) : Bool := cls == 0xB || (out && (cls ≤ 5 || cls == 8 || cls == 0xA))

/-- The owner of the block behind a BLOCK port of Tables 10-8 and 17-7 as an engine code; none for any other index. -/
def blockOwner (s : State) (ix : Nat) : Option Nat :=
  let alp := fun (n : Nat) => let o := fld (s.alp.ch.getN n {}).cfg 15 12; if o < 8 then 4 + o else 0x1F
  if 0x080 ≤ ix ∧ ix < 0x088 then some (alp (ix - 0x080))
  else if 0x100 ≤ ix ∧ ix < 0x110 then some (alp ((ix - 0x100) / 2))
  else if 0x200 ≤ ix ∧ ix < 0x240 ∧ (ix - 0x200) % 0x20 < 18 then some (s.link.frameOwner.getN ((ix - 0x200) / 0x20) 0x1F).toNat
  else if 0x300 ≤ ix ∧ ix < 0x380 then some (s.link.frameOwner.getN (2 + (ix - 0x300) / 0x40) 0x1F).toNat
  else none

/-- A BLOCK port is open to engine `e`. -/
def blockOpen (s : State) (e : Fin 24) (ix : Nat) : Bool := blockOwner s ix == some e.val

/-- The cause that rights give for a port access; ILLEGAL and PRIV come before every other (R85). -/
def portBar (s : State) (e : Fin 24) (cls ix : Nat) (out : Bool) (zero : Bool) : Option Cause :=
  if noDirection cls out || !zero || (cls == 0xD && ix != 0) then some .illegal
  else if !classMay e cls out then some .priv
  else if inSlot s e && !(cls == 9 || (cls == 0xC && blockOpen s e ix)) then some .priv
  else none

/-! ## IN -/

/-- A session that the engine's core owns (R309): a safety core, or a hart of a core that the image starts split (R138). -/
def ownsSession (s : State) (e : Fin 24) (n : Nat) : Bool :=
  (clsOf e == .sc || clsOf e == .hart) && (ownSessions s (coreOf e)).any fun m => m.val == n

/-- SYSST words (Table 17-8). -/
def sysst (s : State) (ix : Nat) : Word :=
  match ix with
  | 0 => sysStatus s
  | 1 => sysCause s
  | 2 => diagStat s.diag
  | 3 => otpAlarmWord s.otp
  | 4 => updTrial s
  | 5 => soutSummary s
  | 6 => hldStatus s
  | 7 => pwrStatus s
  | _ => 0

/-- IN of a BLOCK port (Tables 10-8 and 17-7). -/
def blockIn (e : Fin 24) (ix : Nat) (s : State) : Word × State :=
  if ix < 0x088 then ((setInForce s (Fin.ofNat 8 (ix - 0x080))).zeroExtend 32, s)
  else if ix < 0x110 then
    let n := (ix - 0x100) / 2
    if ix % 2 = 0 then modemRead (Fin.ofNat 8 n) s else readReg (.engine e) (0x050600 + 4 * n) s
  else if ix < 0x240 then (canIn s (Fin.ofNat 2 ((ix - 0x200) / 0x20)) ((ix - 0x200) % 0x20), s)
  else (ethIn s (Fin.ofNat 2 ((ix - 0x300) / 0x40)) ((ix - 0x300) % 0x40), s)

/-- IN of a port that rights permit: the word and what the read leaves; `v` is W[a]. The ports of classes 0xE and 0xF have no
stated words: a free value. -/
def portIn (e : Fin 24) (cls ix : Nat) (v : Word) (s : State) : Cause ⊕ Word × State :=
  if cls ≤ 8 then
    if (cls = 6 && !ownsSession s e (ix / 16)) || (cls = 7 && !ownsSession s e ix) then .inl .port
    else match liveWord s cls ix with
      | none => .inl .port
      | some w => .inr (if twin e then Sparse.get 0 s.eng.c[coreOf e].ports (cls * 0x1000 + ix) else w, s)
  else if cls = 9 then if ix < 64 then .inr (s.link.mbx.getN ix 0, s) else .inl .port
  else if cls = 0xA then if ix < 16 then .inr (sysst s ix, s) else .inl .port
  else if cls = 0xC then if blockOpen s e ix then .inr (blockIn e ix s) else .inl .port
  else if cls = 0xD then
    if v.toNat % 4 ≠ 0 then .inl .align
    else if 0x1000000 ≤ v.toNat ∨ !hregReads e v.toNat then .inl .port
    else .inr (readReg (.engine e) v.toNat s)
  else .inr (Config.freeWord s.takeFree.1, s.takeFree.2)

/-- Highest cost of an access by its class (Table 4-9); the spec gives none for classes 0xE and 0xF. -/
def portHi (cls extra : Nat) : Nat :=
  if cls ≤ 8 then 1 else if cls = 0xD then 12 else if cls < 0xD then 4 else 1 + extra

/-- Lane 4 of a port access: operation and selector, or the 24-bit address in class 0xD. -/
def selCmp (s : State) (e : Fin 24) (cls : Nat) (v pv : Word) : List Field :=
  if cls = 0xD then [⟨4, 0, 6, codeWord s e >>> 26, ~~~(~~~(purlWord s e) >>> 26)⟩, ⟨4, 1, 24, v, pv⟩] else lanePort s e

/-- IN (R106, R108). -/
def execInp (i : Issue) (d a : WReg) (sel : Half) (s : State) : Outc :=
  let cls := sel.toNat / 0x1000
  let ix := sel.toNat % 0x1000
  run (encImm 0x21 d a sel) i 1 (portHi cls i.extra) (if cls = 0xD then [a] else []) [] (fun k q s =>
    match portBar s i.eng cls ix false (cls == 0xD || a == 0) with
    | some c => .trap c
    | none => match portIn i.eng cls ix (k.w a) s with
      | .inl c => .trap c
      | .inr r =>
        .ok (wPut i.eng d r.1 r.2) none (laneSample s i.eng d (tagSel s i.eng) r.1 ++ selCmp s i.eng cls (k.w a) (q.w a))) s

/-! ## OUT -/

/-- OUT of a BLOCK port (Tables 10-8 and 17-7). -/
def blockOut (e : Fin 24) (ix : Nat) (v : Word) (s : State) : State :=
  if ix < 0x088 then writeSet (.engine e) (Fin.ofNat 8 (ix - 0x080)) (v.truncate 16) s
  else if ix < 0x110 then
    let n : Fin 8 := Fin.ofNat 8 ((ix - 0x100) / 2)
    if !bit s.alp.ch[n].cfg 5 then s
    else if ix % 2 = 0 then modemTx n (v.truncate 8) s
    else modemControl n (bit v 0) (bit v 1) (bit v 2) s
  else if ix < 0x240 then canPort (Fin.ofNat 2 ((ix - 0x200) / 0x20)) ((ix - 0x200) % 0x20) v s
  else ethPort (Fin.ofNat 2 ((ix - 0x300) / 0x40)) ((ix - 0x300) % 0x40) v s

/-- OUT of a session port by its owner (R107): a safety core stages the word; of a hart the payload word stands at once, and a
command acts at once under the two checkers of the session unit (R288), but for HALT. -/
def sessOut (e : Fin 24) (cls ix : Nat) (v : Word) (agree : Bool) (s : State) : State :=
  if twin e || cls = 6 then s.onC (coreOf e) fun x => { x with staged := x.staged ++ [(cls * 0x1000 + ix, v)] }
  else if s.sys.runState == .halt then s
  else noting (checked agree (sessCommand (Fin.ofNat 256 ix) v)) s

/-- OUT of a port that rights permit: `v` is W[a] and `w` is W[d]. The ports of classes 0xE and 0xF have no stated effect. -/
def portOut (e : Fin 24) (cls ix : Nat) (v w : Word) (agree : Bool) (s : State) : Cause ⊕ State :=
  if cls = 6 ∨ cls = 7 then
    if ownsSession s e (if cls = 6 then ix / 16 else ix) then
      .inr (sessOut e cls ix v agree s)
    else .inl .port
  else if cls = 9 then if mbxMay s (.engine e) ix then .inr (mbxStore ix v s) else .inl .port
  else if cls = 0xC then if blockOpen s e ix then .inr (noting (blockOut e ix v) s) else .inl .port
  else if cls = 0xD then
    if w.toNat % 4 ≠ 0 then .inl .align
    else if 0x1000000 ≤ w.toNat ∨ !hregWrites s e w.toNat then .inl .port
    else .inr (noting (writeReg (.engine e) w.toNat v) s)
  else .inr s

/-- OUT (R107, R108). -/
def execOutp (i : Issue) (d a : WReg) (sel : Half) (s : State) : Outc :=
  let cls := sel.toNat / 0x1000
  let ix := sel.toNat % 0x1000
  let lo := if cls = 7 then 2 else 1
  run (encImm 0x22 d a sel) i lo (max lo (portHi cls i.extra)) (if cls = 0xD then [d, a] else [a]) [] (fun k q s =>
    match portBar s i.eng cls ix true (cls == 0xD || d == 0) with
    | some c => .trap c
    | none => match portOut i.eng cls ix (k.w a) (k.w d) i.csl s with
      | .inl c => .trap c
      | .inr s' => .ok s' none (selCmp s i.eng cls (k.w d) (q.w d) ++ [laneVal (k.w a) (q.w a)])) s

/-! ## Safety operations (R92, R109 to R112) -/

/-- SAFE is executed in SCAN of a twin-pass safety core. -/
def inScanOf (s : State) (e : Fin 24) : Bool := twin e && taskOf s e == 1

/-- DEMAND (R109). -/
def execDemand (i : Issue) (a : WReg) (s : State) : Outc :=
  run (encX 0x23 0 a 1 0) i 1 1 [a] [] (fun k q s =>
    let v := k.w a
    let c := coreOf i.eng
    if !inScanOf s i.eng then .trap .priv
    else if fld v 31 16 ≠ 0 ∨ (v.truncate 16 : Half) &&& ~~~(ownedOut s.sout.used s.sout.owners c) ≠ 0 then .trap .owner
    else .ok (s.onC c fun x => { x with demand := v.truncate 16 }) none (portCmp s i.eng v (q.w a))) s

/-- Groups 32w to 32w + 31 of a port that the image defines (R110). -/
def definedGroups (s : State) (p : Fin 4) (w : Bool) : Word :=
  maskOf 32 fun g => bit (s.csc.p[p].grp.getN (g + if w then 32 else 0) 0) 31

/-- One word of the permits of a port. -/
def putPermit (w : Bool) (v : Word) (d : DWord) : DWord :=
  if w then v ++ (d.truncate 32 : Word) else (d.extractLsb' 32 32 : Word) ++ v

/-- PERMIT (R110). -/
def execPermit (i : Issue) (a : WReg) (port : BitVec 4) (w : Bool) (s : State) : Outc :=
  run (encX 0x23 0 a 2 (port ++ (0 : BitVec 7) ++ BitVec.ofBool w)) i 1 1 [a] [] (fun k q s =>
    let v := k.w a
    let c := coreOf i.eng
    let p : Fin 4 := Fin.ofNat 4 port.toNat
    if 3 < port.toNat then .trap .illegal
    else if !inScanOf s i.eng then .trap .priv
    else if cscAbsent s then .trap .port
    else if !bit (ownedPort s.sout.ports s.sout.portOwners c) p.val ∨ v &&& ~~~(definedGroups s p w) ≠ 0 then .trap .owner
    else .ok (s.onC c fun x => { x with permit := x.permit.upd p (putPermit w v) }) none (portCmp s i.eng v (q.w a))) s

/-- Demands and permits are held off in LOCKOUT, but for the CROSS step of a re-evaluation (R29, R46). -/
def heldOff (s : State) : Bool := (s.sys.runState == .lockout && !s.sys.reeval) || s.sys.runState == .halt

/-- The scan record of core `c` (Table 4-10). -/
def scanRecord (s : State) (c : Fin 4) (demand : Half) (permit : Tab DWord 4) : List Word :=
  let x := s.eng.c[c]
  let own := ownedPort s.sout.ports s.sout.portOwners c
  let any := maskOf 32 fun b => decide (16 ≤ b ∧ b < 20) && bit own (b - 16) && permit.getN (b - 16) 0 != 0
  let r := [at_ c.val 0 ||| at_ 1 4 ||| at_ x.seq.toNat 16, x.release.truncate 32, at_ demand.toNat 0 ||| any, x.sig]
  r ++ [crcWords r]

/-- The effect of SEAL (R78, R107, R112): the record leaves for channel B, the demands, permits and CSL words are handed over, the
scan ends and TEST resumes. -/
def sealScan (e : Fin 24) (agree : Bool) (s : State) : State :=
  let c := coreOf e
  let x := s.eng.c[c]
  let off := heldOff s
  let d := if off then 0 else x.demand &&& ownedOut s.sout.used s.sout.owners c
  let q := if off then Tab.fill 4 0 else x.permit
  let r := scanRecord s c d q
  let s1 := s.onC c fun x => { x with record := r, permitPrev := x.sealedPermit, sealAt := some s.t.tbA, sealedPermit := q, sealedDemand := d, staged := [], inScan := false }
  let s2 := s1.onHld fun h => { h with inbox := h.inbox ++ [r] }
  let s3 := cslSeal c x.staged agree (takeDemands c d s2)
  let s4 := if s3.sys.sleeping then s3.onSys fun y => { y with sleepDone := setBit y.sleepDone c.val true } else s3
  s4.onE e fun y => if y.on then { y with task := if x.testCapped then none else some 2 } else y

/-- SEAL (R111): lane 6 compares the signature accumulators of both passes before the record leaves. -/
def execSeal (i : Issue) (agree : Bool) (s : State) : Outc :=
  run (encX 0x23 0 0 3 0) i 4 4 [] [] (fun _ _ s =>
    let c := s.eng.c[coreOf i.eng]
    if !inScanOf s i.eng then .trap .priv
    else .ok (noting (fun s => trackOuts (sealScan i.eng agree s)) s) none (lanePort s i.eng ++ [⟨6, 0, 32, c.sig, c.purlSig⟩])) s

end Sys2Proof.Machine
end

