-- ==== Sys2Proof/Machine/Dispatch.lean ====
section
/-! DEFINITION. One arm per command: each calls the meaning of its row. -/

namespace Sys2Proof.Machine

/-- The effect of one command on everything but the queue. -/
def exec (i : Instr) (s : State) : Host.Outcome State Fault Refusal :=
  match i with
  | .powerGood env => Sys2Proof.Machine.execPowerGood env s
  | .powerGoodLoss => Sys2Proof.Machine.execPowerGoodLoss s
  | .aonLoss => Sys2Proof.Machine.execAonLoss s
  | .vlogicHigh high => Sys2Proof.Machine.execVlogicHigh high s
  | .xtalReady env => Sys2Proof.Machine.execXtalReady env s
  | .clockFail xtal => Sys2Proof.Machine.execClockFail xtal s
  | .resetNAssert => Sys2Proof.Machine.execResetNAssert s
  | .resetNRelease => Sys2Proof.Machine.execResetNRelease s
  | .castonTimeout => Sys2Proof.Machine.execCastonTimeout s
  | .start key => Sys2Proof.Machine.execStart key s
  | .hold key => Sys2Proof.Machine.execHold key s
  | .serviceEnter key => Sys2Proof.Machine.execServiceEnter key s
  | .serviceExit key env => Sys2Proof.Machine.execServiceExit key env s
  | .sleep key => Sys2Proof.Machine.execSleep key s
  | .devRelease key env => Sys2Proof.Machine.execDevRelease key env s
  | .reset key => Sys2Proof.Machine.execReset key s
  | .undefinedCmd key cmd => Sys2Proof.Machine.execUndefinedCmd key cmd s
  | .crossLate => Sys2Proof.Machine.execCrossLate s
  | .dormantEntry => Sys2Proof.Machine.execDormantEntry s
  | .wakePin w => Sys2Proof.Machine.execWakePin w s
  | .wakeTimer w => Sys2Proof.Machine.execWakeTimer w s
  | .canWake w => Sys2Proof.Machine.execCanWake w s
  | .k32Lost w => Sys2Proof.Machine.execK32Lost w s
  | .commitEdge w => Sys2Proof.Machine.execCommitEdge w s
  | .commitRetry p => Sys2Proof.Machine.execCommitRetry p s
  | .sealRead v => Sys2Proof.Machine.execSealRead v s
  | .commissionArm src key => Sys2Proof.Machine.execCommissionArm src key s
  | .commissionCancel src key => Sys2Proof.Machine.execCommissionCancel src key s
  | .commissionArmExpiry => Sys2Proof.Machine.execCommissionArmExpiry s
  | .leaseClaim src key => Sys2Proof.Machine.execLeaseClaim src key s
  | .leaseRelease src key => Sys2Proof.Machine.execLeaseRelease src key s
  | .leaseTimeout => Sys2Proof.Machine.execLeaseTimeout s
  | .updBegin src key target => Sys2Proof.Machine.execUpdBegin src key target s
  | .eraseDone => Sys2Proof.Machine.execEraseDone s
  | .windowWrite src words => Sys2Proof.Machine.execWindowWrite src words s
  | .verify src key => Sys2Proof.Machine.execVerify src key s
  | .activate src key p => Sys2Proof.Machine.execActivate src key p s
  | .abort src key => Sys2Proof.Machine.execAbort src key s
  | .confirmHealth src key p => Sys2Proof.Machine.execConfirmHealth src key p s
  | .lifecycle src key p => Sys2Proof.Machine.execLifecycle src key p s
  | .trialExpiry => Sys2Proof.Machine.execTrialExpiry s
  | .settingsCommit key => Sys2Proof.Machine.execSettingsCommit key s
  | .settingsCommitDone => Sys2Proof.Machine.execSettingsCommitDone s
  | .readFrame f => Sys2Proof.Machine.execReadFrame f s
  | .writeFrame f => Sys2Proof.Machine.execWriteFrame f s
  | .statusFrame f => Sys2Proof.Machine.execStatusFrame f s
  | .leaseFrame f => Sys2Proof.Machine.execLeaseFrame f s
  | .unknownFrame cmd f => Sys2Proof.Machine.execUnknownFrame cmd f s
  | .transactionAbort req => Sys2Proof.Machine.execTransactionAbort req s
  | .registerWrite src addr v => Sys2Proof.Machine.execRegisterWrite src addr v s
  | .mbxWrite n v => Sys2Proof.Machine.execMbxWrite n v s
  | .evtPendClear k mask => Sys2Proof.Machine.execEvtPendClear k mask s
  | .hlTxRead => Sys2Proof.Machine.execHlTxRead s
  | .hlRxWrite head words => Sys2Proof.Machine.execHlRxWrite head words s
  | .ethDatagramRx n d agree => Sys2Proof.Machine.execEthDatagramRx n d agree s
  | .canFrameRx n f agree => Sys2Proof.Machine.execCanFrameRx n f agree s
  | .ethLinkChange n up => Sys2Proof.Machine.execEthLinkChange n up s
  | .canErrorState n e => Sys2Proof.Machine.execCanErrorState n e s
  | .canBusOffRecovery n => Sys2Proof.Machine.execCanBusOffRecovery n s
  | .frameSend eth n => Sys2Proof.Machine.execFrameSend eth n s
  | .framePop eth n => Sys2Proof.Machine.execFramePop eth n s
  | .openResend x => Sys2Proof.Machine.execOpenResend x s
  | .timeout x => Sys2Proof.Machine.execTimeout x s
  | .quarantineEnd x => Sys2Proof.Machine.execQuarantineEnd x s
  | .cslHourRoll => Sys2Proof.Machine.execCslHourRoll s
  | .openSess x => Sys2Proof.Machine.execOpenSess x s
  | .closeSess x => Sys2Proof.Machine.execCloseSess x s
  | .restart x => Sys2Proof.Machine.execRestart x s
  | .rowBuild x => Sys2Proof.Machine.execRowBuild x s
  | .rowSlot x level urgent => Sys2Proof.Machine.execRowSlot x level urgent s
  | .queryRoundEnd p flags => Sys2Proof.Machine.execQueryRoundEnd p flags s
  | .pollSlotEnd p => Sys2Proof.Machine.execPollSlotEnd p s
  | .report p head body crc snr => Sys2Proof.Machine.execReport p head body crc snr s
  | .pairAck p head body crc => Sys2Proof.Machine.execPairAck p head body crc s
  | .txEnableChange p inFrame => Sys2Proof.Machine.execTxEnableChange p inFrame s
  | .cscTxStuck p => Sys2Proof.Machine.execCscTxStuck p s
  | .cscStart p => Sys2Proof.Machine.execCscStart p s
  | .cscStop p => Sys2Proof.Machine.execCscStop p s
  | .pair p a => Sys2Proof.Machine.execPair p a s
  | .unpair p a => Sys2Proof.Machine.execUnpair p a s
  | .poll p a => Sys2Proof.Machine.execPoll p a s
  | .bCycle b => Sys2Proof.Machine.execBCycle b s
  | .scanRecord words => Sys2Proof.Machine.execScanRecord words s
  | .timebaseExchange => Sys2Proof.Machine.execTimebaseExchange s
  | .tbLost => Sys2Proof.Machine.execTbLost s
  | .recordMissing core => Sys2Proof.Machine.execRecordMissing core s
  | .lineB => Sys2Proof.Machine.execLineB s
  | .offPulseRequest k width => Sys2Proof.Machine.execOffPulseRequest k width s
  | .patternReadback ok => Sys2Proof.Machine.execPatternReadback ok s
  | .reportQueueDrain => Sys2Proof.Machine.execReportQueueDrain s
  | .inputEdge n level => Sys2Proof.Machine.execInputEdge n level s
  | .samplePoint n level settle => Sys2Proof.Machine.execSamplePoint n level settle s
  | .settleGap n settle => Sys2Proof.Machine.execSettleGap n settle s
  | .filterElapsed ch n => Sys2Proof.Machine.execFilterElapsed ch n s
  | .discrepancyTimeout k => Sys2Proof.Machine.execDiscrepancyTimeout k s
  | .guardDelayEnd k => Sys2Proof.Machine.execGuardDelayEnd k s
  | .bandWaitEnd k => Sys2Proof.Machine.execBandWaitEnd k s
  | .clearDecision k => Sys2Proof.Machine.execClearDecision k s
  | .releaseStuck ch r => Sys2Proof.Machine.execReleaseStuck ch r s
  | .recoverEnd ch r => Sys2Proof.Machine.execRecoverEnd ch r s
  | .testPulseEnd j => Sys2Proof.Machine.execTestPulseEnd j s
  | .testMaskEnd j => Sys2Proof.Machine.execTestMaskEnd j s
  | .tpReadbackEdge j level => Sys2Proof.Machine.execTpReadbackEdge j level s
  | .tpSource j => Sys2Proof.Machine.execTpSource j s
  | .cntEdge n => Sys2Proof.Machine.execCntEdge n s
  | .windowFilterElapsed w => Sys2Proof.Machine.execWindowFilterElapsed w s
  | .delayElapsed l => Sys2Proof.Machine.execDelayElapsed l s
  | .offPulseEnd k => Sys2Proof.Machine.execOffPulseEnd k s
  | .readbackEdge k level => Sys2Proof.Machine.execReadbackEdge k level s
  | .readbackDelayElapsed k => Sys2Proof.Machine.execReadbackDelayElapsed k s
  | .locateWatchEnd k => Sys2Proof.Machine.execLocateWatchEnd k s
  | .feedIsolationStep k => Sys2Proof.Machine.execFeedIsolationStep k s
  | .outLow k => Sys2Proof.Machine.execOutLow k s
  | .overload k => Sys2Proof.Machine.execOverload k s
  | .overtemp k switchB => Sys2Proof.Machine.execOvertemp k switchB s
  | .feedback k => Sys2Proof.Machine.execFeedback k s
  | .bankSupply bank => Sys2Proof.Machine.execBankSupply bank s
  | .bankSupplyEnd bank => Sys2Proof.Machine.execBankSupplyEnd bank s
  | .supplyPresentChange which present meas => Sys2Proof.Machine.execSupplyPresentChange which present meas s
  | .hldRegulatorFault => Sys2Proof.Machine.execHldRegulatorFault s
  | .pdFdigReturn => Sys2Proof.Machine.execPdFdigReturn s
  | .pdFanReturn => Sys2Proof.Machine.execPdFanReturn s
  | .timerCompare n => Sys2Proof.Machine.execTimerCompare n s
  | .timerWrap n => Sys2Proof.Machine.execTimerWrap n s
  | .timerTrigger => Sys2Proof.Machine.execTimerTrigger s
  | .capture n falling => Sys2Proof.Machine.execCapture n falling s
  | .timerSlip n => Sys2Proof.Machine.execTimerSlip n s
  | .tmrCmdStart n => Sys2Proof.Machine.execTmrCmdStart n s
  | .tmrCmdStop n => Sys2Proof.Machine.execTmrCmdStop n s
  | .tmrCmdSnap g => Sys2Proof.Machine.execTmrCmdSnap g s
  | .tmrCmpWrite n v => Sys2Proof.Machine.execTmrCmpWrite n v s
  | .tmrCountWrite n v => Sys2Proof.Machine.execTmrCountWrite n v s
  | .alpConversion n nA => Sys2Proof.Machine.execAlpConversion n nA s
  | .alpStale n => Sys2Proof.Machine.execAlpStale n s
  | .gaugePoint n nA => Sys2Proof.Machine.execGaugePoint n nA s
  | .comparatorChange n nA => Sys2Proof.Machine.execComparatorChange n nA s
  | .setpointWrite src n v => Sys2Proof.Machine.execSetpointWrite src n v s
  | .setpointTimeout n => Sys2Proof.Machine.execSetpointTimeout n s
  | .complianceLow n room => Sys2Proof.Machine.execComplianceLow n room s
  | .complianceEnd n room => Sys2Proof.Machine.execComplianceEnd n room s
  | .openLoop n => Sys2Proof.Machine.execOpenLoop n s
  | .openLoopEnd n => Sys2Proof.Machine.execOpenLoopEnd n s
  | .loopShort n => Sys2Proof.Machine.execLoopShort n s
  | .loopShortCycle n nA => Sys2Proof.Machine.execLoopShortCycle n nA s
  | .vanLow => Sys2Proof.Machine.execVanLow s
  | .vanLowEnd => Sys2Proof.Machine.execVanLowEnd s
  | .gaugeTest n => Sys2Proof.Machine.execGaugeTest n s
  | .gaugeTestEnd n m => Sys2Proof.Machine.execGaugeTestEnd n m s
  | .trimArm n => Sys2Proof.Machine.execTrimArm n s
  | .trimZero n => Sys2Proof.Machine.execTrimZero n s
  | .trimSpan n => Sys2Proof.Machine.execTrimSpan n s
  | .trimClear n => Sys2Proof.Machine.execTrimClear n s
  | .trimOutZero n v => Sys2Proof.Machine.execTrimOutZero n v s
  | .trimOutSpan n v => Sys2Proof.Machine.execTrimOutSpan n v s
  | .zeroActivation => Sys2Proof.Machine.execZeroActivation s
  | .spanActivation => Sys2Proof.Machine.execSpanActivation s
  | .trimAverageEnd => Sys2Proof.Machine.execTrimAverageEnd s
  | .modemRxChar n c parity framing => Sys2Proof.Machine.execModemRxChar n c parity framing s
  | .modemTxChar n c => Sys2Proof.Machine.execModemTxChar n c s
  | .modemRxRead n => Sys2Proof.Machine.execModemRxRead n s
  | .modemCarrier n on => Sys2Proof.Machine.execModemCarrier n on s
  | .modemFlushRx n => Sys2Proof.Machine.execModemFlushRx n s
  | .modemFlushTx n => Sys2Proof.Machine.execModemFlushTx n s
  | .modemTxEmpty n => Sys2Proof.Machine.execModemTxEmpty n s
  | .modemCarrierDetect n cd => Sys2Proof.Machine.execModemCarrierDetect n cd s
  | .cvuValueWrite src u v => Sys2Proof.Machine.execCvuValueWrite src u v s
  | .cvuContextWrite src u which v => Sys2Proof.Machine.execCvuContextWrite src u which v s
  | .cvuFeedWrite src u v agree => Sys2Proof.Machine.execCvuFeedWrite src u v agree s
  | .cvuFoldCtxs src u agree => Sys2Proof.Machine.execCvuFoldCtxs src u agree s
  | .cvuFoldCtxe src u agree => Sys2Proof.Machine.execCvuFoldCtxe src u agree s
  | .dmaStart src x => Sys2Proof.Machine.execDmaStart src x s
  | .dmaStop src d => Sys2Proof.Machine.execDmaStop src d s
  | .dmaRequest d => Sys2Proof.Machine.execDmaRequest d s
  | .dmaElement d agree => Sys2Proof.Machine.execDmaElement d agree s
  | .dmaRegWrite src d which v => Sys2Proof.Machine.execDmaRegWrite src d which v s
  | .clearEntry iss => Sys2Proof.Machine.execClearEntry iss s
  | .clearCounted => Sys2Proof.Machine.execClearCounted s
  | .switchTest k => Sys2Proof.Machine.execSwitchTest k s
  | .switchTestEnd k => Sys2Proof.Machine.execSwitchTestEnd k s
  | .diagUndefinedCmd cmd => Sys2Proof.Machine.execDiagUndefinedCmd cmd s
  | .logArchive => Sys2Proof.Machine.execLogArchive s
  | .memoryPass found => Sys2Proof.Machine.execMemoryPass found s
  | .knownAnswer core ok => Sys2Proof.Machine.execKnownAnswer core ok s
  | .codeRehash => Sys2Proof.Machine.execCodeRehash s
  | .fuseReread drift => Sys2Proof.Machine.execFuseReread drift s
  | .clockCheck dev run => Sys2Proof.Machine.execClockCheck dev run s
  | .selftestLate core => Sys2Proof.Machine.execSelftestLate core s
  | .repulse p => Sys2Proof.Machine.execRepulse p s
  | .tensionUpdate rate sensor proc hld => Sys2Proof.Machine.execTensionUpdate rate sensor proc hld s
  | .stepRateRaise core rate => Sys2Proof.Machine.execStepRateRaise core rate s
  | .otpRead src key => Sys2Proof.Machine.execOtpRead src key s
  | .program src key p => Sys2Proof.Machine.execProgram src key p s
  | .compute src key => Sys2Proof.Machine.execCompute src key s
  | .lock src key p => Sys2Proof.Machine.execLock src key p s
  | .readLock src key p => Sys2Proof.Machine.execReadLock src key p s
  | .armForce src key => Sys2Proof.Machine.execArmForce src key s
  | .armForceExpiry => Sys2Proof.Machine.execArmForceExpiry s
  | .forceLock src key p => Sys2Proof.Machine.execForceLock src key p s
  | .sticky src key => Sys2Proof.Machine.execSticky src key s
  | .setMode src key p => Sys2Proof.Machine.execSetMode src key p s
  | .setPolicy src key p => Sys2Proof.Machine.execSetPolicy src key p s
  | .tapProgram src key p => Sys2Proof.Machine.execTapProgram src key p s
  | .otpCommandDone => Sys2Proof.Machine.execOtpCommandDone s
  | .scanRelease core => Sys2Proof.Machine.execScanRelease core s
  | .testCap core => Sys2Proof.Machine.execTestCap core s
  | .taskDispatch e => Sys2Proof.Machine.execTaskDispatch e s
  | .add iss d a b => Sys2Proof.Machine.execAdd iss d a b s
  | .sub iss d a b => Sys2Proof.Machine.execSub iss d a b s
  | .and_ iss d a b => Sys2Proof.Machine.execAnd iss d a b s
  | .or_ iss d a b => Sys2Proof.Machine.execOr iss d a b s
  | .xor_ iss d a b => Sys2Proof.Machine.execXor iss d a b s
  | .andn iss d a b => Sys2Proof.Machine.execAndn iss d a b s
  | .shl iss d a b => Sys2Proof.Machine.execShl iss d a b s
  | .shr iss d a b => Sys2Proof.Machine.execShr iss d a b s
  | .sar iss d a b => Sys2Proof.Machine.execSar iss d a b s
  | .rol iss d a b => Sys2Proof.Machine.execRol iss d a b s
  | .min_ iss d a b => Sys2Proof.Machine.execMin iss d a b s
  | .max_ iss d a b => Sys2Proof.Machine.execMax iss d a b s
  | .minu iss d a b => Sys2Proof.Machine.execMinu iss d a b s
  | .maxu iss d a b => Sys2Proof.Machine.execMaxu iss d a b s
  | .adds iss d a b => Sys2Proof.Machine.execAdds iss d a b s
  | .subs iss d a b => Sys2Proof.Machine.execSubs iss d a b s
  | .sel iss d a b p => Sys2Proof.Machine.execSel iss d a b p s
  | .clz iss d a => Sys2Proof.Machine.execClz iss d a s
  | .sextb iss d a => Sys2Proof.Machine.execSextb iss d a s
  | .sexth iss d a => Sys2Proof.Machine.execSexth iss d a s
  | .mul iss d a b => Sys2Proof.Machine.execMul iss d a b s
  | .mulh iss d a b => Sys2Proof.Machine.execMulh iss d a b s
  | .mulhu iss d a b => Sys2Proof.Machine.execMulhu iss d a b s
  | .mulq iss d a b => Sys2Proof.Machine.execMulq iss d a b s
  | .div iss d a b => Sys2Proof.Machine.execDiv iss d a b s
  | .divu iss d a b => Sys2Proof.Machine.execDivu iss d a b s
  | .rem iss d a b => Sys2Proof.Machine.execRem iss d a b s
  | .remu iss d a b => Sys2Proof.Machine.execRemu iss d a b s
  | .cmp iss cond pd a b => Sys2Proof.Machine.execCmp iss cond pd a b s
  | .cmpieq iss pd a imm => Sys2Proof.Machine.execCmpieq iss pd a imm s
  | .cmpine iss pd a imm => Sys2Proof.Machine.execCmpine iss pd a imm s
  | .cmpilt iss pd a imm => Sys2Proof.Machine.execCmpilt iss pd a imm s
  | .cmpige iss pd a imm => Sys2Proof.Machine.execCmpige iss pd a imm s
  | .cmpiltu iss pd a imm => Sys2Proof.Machine.execCmpiltu iss pd a imm s
  | .cmpigeu iss pd a imm => Sys2Proof.Machine.execCmpigeu iss pd a imm s
  | .pand iss pd pa pb => Sys2Proof.Machine.execPand iss pd pa pb s
  | .por iss pd pa pb => Sys2Proof.Machine.execPor iss pd pa pb s
  | .pxor iss pd pa pb => Sys2Proof.Machine.execPxor iss pd pa pb s
  | .pandn iss pd pa pb => Sys2Proof.Machine.execPandn iss pd pa pb s
  | .pnot iss pd pa => Sys2Proof.Machine.execPnot iss pd pa s
  | .pmov iss pd pa => Sys2Proof.Machine.execPmov iss pd pa s
  | .pset iss pd => Sys2Proof.Machine.execPset iss pd s
  | .pclr iss pd => Sys2Proof.Machine.execPclr iss pd s
  | .addi iss d a imm => Sys2Proof.Machine.execAddi iss d a imm s
  | .andi iss d a imm => Sys2Proof.Machine.execAndi iss d a imm s
  | .ori iss d a imm => Sys2Proof.Machine.execOri iss d a imm s
  | .xori iss d a imm => Sys2Proof.Machine.execXori iss d a imm s
  | .lui iss d imm => Sys2Proof.Machine.execLui iss d imm s
  | .shi iss d a k n => Sys2Proof.Machine.execShi iss d a k n s
  | .ldw iss d a imm => Sys2Proof.Machine.execLdw iss d a imm s
  | .ldh iss d a imm => Sys2Proof.Machine.execLdh iss d a imm s
  | .ldhu iss d a imm => Sys2Proof.Machine.execLdhu iss d a imm s
  | .ldb iss d a imm => Sys2Proof.Machine.execLdb iss d a imm s
  | .ldbu iss d a imm => Sys2Proof.Machine.execLdbu iss d a imm s
  | .stw iss d a imm => Sys2Proof.Machine.execStw iss d a imm s
  | .sth iss d a imm => Sys2Proof.Machine.execSth iss d a imm s
  | .stb iss d a imm => Sys2Proof.Machine.execStb iss d a imm s
  | .j_ iss off => Sys2Proof.Machine.execJ iss off s
  | .jal iss off => Sys2Proof.Machine.execJal iss off s
  | .bt iss p off => Sys2Proof.Machine.execBt iss p off s
  | .bf iss p off => Sys2Proof.Machine.execBf iss p off s
  | .jr iss a => Sys2Proof.Machine.execJr iss a s
  | .jalr iss d a => Sys2Proof.Machine.execJalr iss d a s
  | .sigf iss imm => Sys2Proof.Machine.execSigf iss imm s
  | .rds iss d arg => Sys2Proof.Machine.execRds iss d arg s
  | .wrs iss arg a => Sys2Proof.Machine.execWrs iss arg a s
  | .yield iss => Sys2Proof.Machine.execYield iss s
  | .tret iss => Sys2Proof.Machine.execTret iss s
  | .trap iss arg => Sys2Proof.Machine.execTrap iss arg s
  | .fence iss => Sys2Proof.Machine.execFence iss s
  | .inp iss d a sel => Sys2Proof.Machine.execInp iss d a sel s
  | .outp iss d a sel => Sys2Proof.Machine.execOutp iss d a sel s
  | .demand iss a => Sys2Proof.Machine.execDemand iss a s
  | .permit iss a port w => Sys2Proof.Machine.execPermit iss a port w s
  | .seal iss agree => Sys2Proof.Machine.execSeal iss agree s
  | .tblo iss d => Sys2Proof.Machine.execTblo iss d s
  | .tbhi iss d => Sys2Proof.Machine.execTbhi iss d s
  | .tbrel iss d => Sys2Proof.Machine.execTbrel iss d s
  | .feed iss u a agree => Sys2Proof.Machine.execFeed iss u a agree s
  | .cvuRead iss d u agree => Sys2Proof.Machine.execCvuRead iss d u agree s
  | .cvuLoad iss u a => Sys2Proof.Machine.execCvuLoad iss u a s
  | .ctxs iss u a agree => Sys2Proof.Machine.execCtxs iss u a agree s
  | .ctxe iss u a agree => Sys2Proof.Machine.execCtxe iss u a agree s
  | .snap iss g => Sys2Proof.Machine.execSnap iss g s
  | .rdsnap iss d n => Sys2Proof.Machine.execRdsnap iss d n s
  | .wrcmp iss n a => Sys2Proof.Machine.execWrcmp iss n a s
  | .rdcapr iss d n => Sys2Proof.Machine.execRdcapr iss d n s
  | .rdcapf iss d n => Sys2Proof.Machine.execRdcapf iss d n s
  | .rdstat iss d n => Sys2Proof.Machine.execRdstat iss d n s
  | .evwait iss ev => Sys2Proof.Machine.execEvwait iss ev s
  | .evpend iss d k => Sys2Proof.Machine.execEvpend iss d k s
  | .evclr iss ev => Sys2Proof.Machine.execEvclr iss ev s
  | .verifyEnd => Sys2Proof.Machine.execVerifyEnd s
  | .frameSent eth n => Sys2Proof.Machine.execFrameSent eth n s
  | .pdFdigCheckEnd ok => Sys2Proof.Machine.execPdFdigCheckEnd ok s
  | .retentionSupplyDip domain => Sys2Proof.Machine.execRetentionSupplyDip domain s
  | .pllLockRegained => Sys2Proof.Machine.execPllLockRegained s
  | .commitStepDue p => Sys2Proof.Machine.execCommitStepDue p s
  | .arpIcmpFrameRx n q => Sys2Proof.Machine.execArpIcmpFrameRx n q s

end Sys2Proof.Machine
end

