-- ==== Sys2Proof/Machine/Step.lean ====
section
/-! DEFINITION. One step of the block: the command at the front of the queue takes effect. -/

namespace Sys2Proof.Machine

/-- What happens while no command waits: timebase A counts one tick of CK-TB where it runs (R34, R74; DESIGN CHOICE, log
entry 2). -/
def idle (s : State) : State :=
  if s.pwr.good && s.t.runA then s.onT fun t => { t with tbA := t.tbA + 1 } else s

/-- One step: the oldest waiting command takes effect with the rest of the queue left waiting. -/
def step (s : State) : Host.Outcome State Fault Refusal :=
  match s.pending with
  | [] => .next (idle s)
  | c :: rest => exec c { s with pending := rest }

/-- The state with the command that a word spells put in front of the queue; unchanged where the word spells none. -/
def State.withFetchWord (s : State) (nbits w : Nat) : State :=
  match Sys2Proof.decodeTableWord nbits w with
  | some c => { s with pending := c :: s.pending }
  | none => s

end Sys2Proof.Machine
end

