-- ==== Sys2Proof/Safety.lean ====
section
/-! DEFINITION. What the claims say of a state: the memories in their canonical form, an engine that executes an instruction
with nothing in its way, and what an instruction that completes leaves unchanged. -/

namespace Sys2Proof.Machine

/-! ## Memories -/

/-- Every memory is in its one canonical form: addresses strictly rising, no entry equal to what an unlisted address reads as. -/
def Memory.wf (m : MemS) : Bool :=
  m.own.all (Sparse.wf 0) && Sparse.wf 0 m.shared && Sparse.wf 0 m.keyStore

/-- The invariant of the memories. -/
def State.Inv (s : State) : Prop := Memory.wf s.mem = true

/-! ## The event fabric -/

/-- `y` is `x` but for pending flags and tasks. -/
def SameRegs (x y : Engine) : Prop :=
  y = { x with tasks := y.tasks, resumes := y.resumes, waiting := y.waiting, flags := y.flags }

/-- `u` is `s` but for what the event fabric and the report table reach (R364 to R370, R452 to R454): host flags, pending flags and
tasks of engines, timers that an event starts, requests of DMA channels, and reports with their log. Nothing else differs. -/
structure Fab (s u : State) : Prop where
  t : u.t = s.t
  sys : u.sys = s.sys
  pwr : u.pwr = s.pwr
  link : u.link = s.link
  mem : u.mem = s.mem
  hld : u.hld = s.hld
  sin : u.sin = s.sin
  sout : u.sout = s.sout
  alp : u.alp = s.alp
  csl : u.csl = s.csl
  csc : u.csc = s.csc
  otp : u.otp = s.otp
  upd : u.upd = s.upd
  pending : u.pending = s.pending
  fresh : u.fresh = s.fresh
  units : u.cvu.u = s.cvu.u
  core : u.eng.c = s.eng.c
  swatch : u.eng.swatch = s.eng.swatch ∧ u.eng.swatchFail = s.eng.swatchFail
  regs : ∀ (i : Nat) (h : i < 24), SameRegs s.eng.e[i] u.eng.e[i]

/-! ## Reactions -/

/-- Every switch A is open, no output is demanded, and no permit stands (R29). -/
def State.allOff (u : State) : Prop :=
  (∀ k : Fin 16, (u.sout.o[k]).swa = false ∧ (u.sout.o[k]).demand = false) ∧
  (∀ c : Fin 4, (u.eng.c[c]).sealedDemand = 0 ∧ (u.eng.c[c]).sealedPermit = Tab.fill 4 0)

/-- What a device fault of code `code` in SAFE-HOLD, RUN or SERVICE leads to (R29, R47): LOCKOUT, fault line A asserted, the code
kept, and everything off. -/
def lockedOut (code : Half) (u : State) : Prop :=
  u.sys.runState = .lockout ∧ u.sys.lineA = true ∧ u.sys.stopCode = code ∧ u.allOff

/-- What a fatal fault of code `code` leads to (R47, R53): HALT, fault line A asserted, the code kept, and everything off. -/
def halted (code : Half) (u : State) : Prop :=
  u.sys.runState = .halt ∧ u.sys.lineA = true ∧ u.sys.stopCode = code ∧ u.allOff

/-- A run state in which a device fault leads to LOCKOUT. -/
def State.live (s : State) : Prop := s.sys.runState = .safeHold ∨ s.sys.runState = .run ∨ s.sys.runState = .service

/-! ## One TSL-32 instruction -/

/-- Nothing stands in the way of the instruction that `word` encodes on `i.eng`: the engine executes, its own fetch is permitted and
reads that word, correct or corrected; the registers `rs` and predicates `ps` that it reads pass their check bits; its steps pass
neither the task's limit nor the cap of TEST; and on a safety core no disturbance meets it and both passes stand at the same
address. -/
def tslClear (i : Issue) (word : Word) (lo hi : Nat) (rs : List WReg) (ps : List PReg) (s : State) : Prop :=
  tslReady s i.eng = true ∧ fetchCause i s = none ∧ codeWord s i.eng = word ∧ rfBad s i.eng rs ps = false ∧
    passesLimit s i.eng (stepsOf i lo hi) = false ∧ testFull s i.eng (stepsOf i lo hi) = false ∧
    (twin i.eng = true → i.dis = [] ∧ purlPcOf s i.eng = ~~~(pcOf s i.eng))

/-- The W registers after a write of `v` to W[d]: a write to W0 is discarded. -/
def setW (s : State) (e : Fin 24) (d : WReg) (v : Word) (r : WReg) : Word := if r = d ∧ d ≠ 0 then v else wGet s e r

/-- The predicates after a write of `v` to P[d]: a write to P0 is discarded. -/
def setP (s : State) (e : Fin 24) (d : PReg) (v : Bool) (r : PReg) : Bool := if r = d ∧ d ≠ 0 then v else pGet s e r

/-- Check bits of a register of the running task's bank. -/
def chkGet (s : State) (e : Fin 24) (n : WReg) : BitVec 5 := (rbank s e).chk[n]

/-- The bank that the running task does not use. -/
def otherBank (s : State) (e : Fin 24) : Bank := if bankIsT s e then s.eng.e[e].bankS else s.eng.e[e].bankT

/-- `u` is `b` after the running task of engine `i.eng` went on to `next` in `n` steps, with W registers `W` and predicates `P`.
Nothing else differs: no other engine, no other bank, no other task's address or step count, no other register of a core but the
steps of TEST, no memory and no other block. -/
def Ran (i : Issue) (n : Nat) (next : Word) (W : WReg → Word) (P : PReg → Bool) (b u : State) : Prop :=
  u = { b with eng := u.eng } ∧
  u.eng = { b.eng with e := u.eng.e, c := u.eng.c } ∧
  (∀ f : Fin 24, f ≠ i.eng → u.eng.e[f] = b.eng.e[f]) ∧
  (∀ c : Fin 4, u.eng.c[c] = { b.eng.c[c] with testSteps := (u.eng.c[c]).testSteps }) ∧
  u.eng.e[i.eng] = { b.eng.e[i.eng] with
    bankS := (u.eng.e[i.eng]).bankS, bankT := (u.eng.e[i.eng]).bankT
    pc := (u.eng.e[i.eng]).pc, purlPc := (u.eng.e[i.eng]).purlPc, steps := (u.eng.e[i.eng]).steps } ∧
  otherBank u i.eng = otherBank b i.eng ∧
  (∀ t : Fin 16, (u.eng.e[i.eng]).pc[t] = if t = taskOf b i.eng then next else (b.eng.e[i.eng]).pc[t]) ∧
  (∀ t : Fin 16, (u.eng.e[i.eng]).purlPc[t] =
    if twin i.eng = true ∧ t = taskOf b i.eng then ~~~next else (b.eng.e[i.eng]).purlPc[t]) ∧
  (∀ t : Fin 16, (u.eng.e[i.eng]).steps[t] =
    if t = taskOf b i.eng then addSteps (b.eng.e[i.eng]).steps[t] n else (b.eng.e[i.eng]).steps[t]) ∧
  (∀ r : WReg, wGet u i.eng r = W r) ∧
  (∀ p : PReg, pGet u i.eng p = P p)

/-- The address after the executing instruction. -/
def nextPc (s : State) (i : Issue) : Word := pcOf s i.eng + 4

/-- The row answers a next state, reached from `base`, the state after the row's own fetch, by writing W[d]. -/
def givesW (row : Instr) (i : Issue) (n : Nat) (d : WReg) (v : Word) (b s : State) : Prop :=
  ∃ u, exec row s = .next u ∧ Ran i n (nextPc s i) (setW b i.eng d v) (pGet b i.eng) b u

/-- The same for a row that writes P[d]. -/
def givesP (row : Instr) (i : Issue) (n : Nat) (d : PReg) (v : Bool) (b s : State) : Prop :=
  ∃ u, exec row s = .next u ∧ Ran i n (nextPc s i) (wGet b i.eng) (setP b i.eng d v) b u

/-- The same for a row that writes no register and no predicate; `next` is where the task goes on. -/
def givesN (row : Instr) (i : Issue) (n : Nat) (next : Word) (b s : State) : Prop :=
  ∃ u, exec row s = .next u ∧ Ran i n next (wGet b i.eng) (pGet b i.eng) b u

end Sys2Proof.Machine
end

