-- ==== Sys2Proof/Certificates/Slice0/Obligations.lean ====
section
/-! DEFINITION. The statements about the model. -/

open Sys2Proof Sys2Proof.Machine

/-! ## TSL-32 -/

/-- Table 4-2: the results of the three-register ALU instructions, with W0 discarding writes; nothing else changes but the task's
address and steps.

Tables 4-2 and 4-3: SEL, the one-register ALU instructions and the immediates. CLZ gives the largest k for which the
upper k bits are all 0.

The model's own choices that it rests on: log entry 8. -/
def Obligations.IntegerResults : Prop :=
  (∀ (i : Issue) (d a b : WReg) (s : State),
     let x := wGet s i.eng a
     let y := wGet s i.eng b
     let k := y.toNat % 32
     let gives := fun (fn : BitVec 11) (row : Instr) (v : Word) =>
       tslClear i (encAlu d a b fn) 1 1 [a, b] [] s → givesW row i (stepsOf i 1 1) d v (fetchReport i s) s
     gives 0x000 (.add i d a b) (x + y) ∧
     gives 0x001 (.sub i d a b) (x - y) ∧
     gives 0x002 (.and_ i d a b) (x &&& y) ∧
     gives 0x003 (.or_ i d a b) (x ||| y) ∧
     gives 0x004 (.xor_ i d a b) (x ^^^ y) ∧
     gives 0x005 (.andn i d a b) (x &&& ~~~y) ∧
     gives 0x006 (.shl i d a b) (x <<< k) ∧
     gives 0x007 (.shr i d a b) (x >>> k) ∧
     gives 0x008 (.sar i d a b) (x.sshiftRight k) ∧
     gives 0x009 (.rol i d a b) ((x <<< k) ||| (x >>> (32 - k))) ∧
     gives 0x00A (.min_ i d a b) (BitVec.ofInt 32 (min x.toInt y.toInt)) ∧
     gives 0x00B (.max_ i d a b) (BitVec.ofInt 32 (max x.toInt y.toInt)) ∧
     gives 0x00C (.minu i d a b) (BitVec.ofNat 32 (min x.toNat y.toNat)) ∧
     gives 0x00D (.maxu i d a b) (BitVec.ofNat 32 (max x.toNat y.toNat)) ∧
     gives 0x00E (.adds i d a b) (BitVec.ofInt 32 (max (-2147483648) (min 2147483647 (x.toInt + y.toInt)))) ∧
     gives 0x00F (.subs i d a b) (BitVec.ofInt 32 (max (-2147483648) (min 2147483647 (x.toInt - y.toInt))))) ∧
  ((∀ (i : Issue) (d a b : WReg) (p : PReg) (s : State),
     tslClear i (encAlu d a b (predF p ++ (0x10 : BitVec 5))) 1 1 [a, b] [p] s →
     givesW (.sel i d a b p) i (stepsOf i 1 1) d (if pGet s i.eng p then wGet s i.eng a else wGet s i.eng b) (fetchReport i s) s) ∧
   (∀ (i : Issue) (d : WReg) (imm : Half) (s : State), tslClear i (encImm 0x08 d 0 imm) 1 1 [] [] s →
     givesW (.lui i d imm) i (stepsOf i 1 1) d (imm ++ (0 : Half)) (fetchReport i s) s) ∧
   (∀ (i : Issue) (d a : WReg) (imm : Half) (k : BitVec 2) (n : BitVec 5) (s : State),
     let x := wGet s i.eng a
     let gives := fun (word : Word) (row : Instr) (v : Word) =>
       tslClear i word 1 1 [a] [] s → givesW row i (stepsOf i 1 1) d v (fetchReport i s) s
     (∃ z : Nat, z ≤ 32 ∧ gives (encAlu d a 0 0x011) (.clz i d a) (BitVec.ofNat 32 z) ∧ x >>> (32 - z) = 0 ∧ (z < 32 → x.getLsbD (31 - z) = true)) ∧
     gives (encAlu d a 0 0x012) (.sextb i d a) (BitVec.signExtend 32 (BitVec.truncate 8 x)) ∧
     gives (encAlu d a 0 0x013) (.sexth i d a) (BitVec.signExtend 32 (BitVec.truncate 16 x)) ∧
     gives (encImm 0x04 d a imm) (.addi i d a imm) (x + imm.signExtend 32) ∧
     gives (encImm 0x05 d a imm) (.andi i d a imm) (x &&& imm.zeroExtend 32) ∧
     gives (encImm 0x06 d a imm) (.ori i d a imm) (x ||| imm.zeroExtend 32) ∧
     gives (encImm 0x07 d a imm) (.xori i d a imm) (x ^^^ imm.zeroExtend 32) ∧
     gives (encImm 0x09 d a ((0 : BitVec 9) ++ k ++ n)) (.shi i d a k n)
       (if k = 0 then x <<< n.toNat else if k = 1 then x >>> n.toNat else if k = 2 then x.sshiftRight n.toNat
         else (x <<< n.toNat) ||| (x >>> (32 - n.toNat)))))

/-- Table 4-4 and R101: multiply and divide. MULH and MULHU give the upper word of the 64-bit product, MULQ the product shifted
right by 16 and saturated; division truncates toward zero, and 0x8000_0000 divided by −1 gives 0x8000_0000 with remainder 0; a divisor
of 0 traps with cause DIVZERO whatever the dividend.

The model's own choices that it rests on: log entry 8. -/
def Obligations.MulDivResults : Prop :=
  ∀ (i : Issue) (d a b : WReg) (s : State),
    let x := wGet s i.eng a
    let y := wGet s i.eng b
    let gives := fun (fn : BitVec 11) (cost : Nat) (row : Instr) (v : Word) =>
      tslClear i (encMul d a b fn) cost cost [a, b] [] s → givesW row i (stepsOf i cost cost) d v (fetchReport i s) s
    let divzero := fun (fn : BitVec 11) (row : Instr) =>
      tslClear i (encMul d a b fn) 18 18 [a, b] [] s → exec row s = .next (trapNow i.eng .divzero (stepsOf i 18 18) (fetchReport i s))
    gives 0x000 2 (.mul i d a b) (x * y) ∧
    gives 0x001 2 (.mulh i d a b) ((BitVec.signExtend 64 x * BitVec.signExtend 64 y).extractLsb' 32 32) ∧
    gives 0x002 2 (.mulhu i d a b) ((BitVec.zeroExtend 64 x * BitVec.zeroExtend 64 y).extractLsb' 32 32) ∧
    gives 0x003 3 (.mulq i d a b) (BitVec.ofInt 32 (max (-2147483648) (min 2147483647 (x.toInt * y.toInt / 65536)))) ∧
    (y ≠ 0 →
      gives 0x005 18 (.divu i d a b) (BitVec.ofNat 32 (x.toNat / y.toNat)) ∧
      gives 0x007 18 (.remu i d a b) (BitVec.ofNat 32 (x.toNat % y.toNat)) ∧
      gives 0x004 18 (.div i d a b)
        (if x = 0x80000000 ∧ y = 0xFFFFFFFF then 0x80000000 else BitVec.ofInt 32 (x.toInt.tdiv y.toInt)) ∧
      gives 0x006 18 (.rem i d a b) (if x = 0x80000000 ∧ y = 0xFFFFFFFF then 0 else BitVec.ofInt 32 (x.toInt.tmod y.toInt))) ∧
    (y = 0 → divzero 0x004 (.div i d a b) ∧ divzero 0x005 (.divu i d a b) ∧ divzero 0x006 (.rem i d a b) ∧
      divzero 0x007 (.remu i d a b))

/-- Tables 3-11 and 4-5: compares. A condition of 8 to 31 writes nothing: it is ILLEGAL.

Table 3-12: predicate logic, with P0 reading as 1 and discarding writes.

The model's own choices that it rests on: log entry 8. -/
def Obligations.ConditionResults : Prop :=
  ((∀ (i : Issue) (c : BitVec 5) (pd : PReg) (a b : WReg) (s : State),
     tslClear i (encA 0x02 c (regF a) (regF b) (predF pd ++ (0 : BitVec 5))) 1 1 [a, b] [] s →
     let x := wGet s i.eng a
     let y := wGet s i.eng b
     let gives := fun (v : Bool) => givesP (.cmp i c pd a b) i (stepsOf i 1 1) pd v (fetchReport i s) s
     (c = 0 → gives (decide (x = y))) ∧ (c = 1 → gives (decide (x ≠ y))) ∧
     (c = 2 → gives (decide (x.toInt < y.toInt))) ∧ (c = 3 → gives (decide (y.toInt ≤ x.toInt))) ∧
     (c = 4 → gives (decide (x.toNat < y.toNat))) ∧ (c = 5 → gives (decide (y.toNat ≤ x.toNat))) ∧
     (c = 6 → gives (decide (x &&& y ≠ 0))) ∧ (c = 7 → gives (decide (x &&& y = 0))) ∧
     (8 ≤ c.toNat → exec (.cmp i c pd a b) s = .next (trapNow i.eng .illegal (stepsOf i 1 1) (fetchReport i s)))) ∧
   (∀ (i : Issue) (pd : Fin 32) (a : WReg) (imm : Half) (s : State),
     let x := wGet s i.eng a
     let y := imm.signExtend 32
     let gives := fun (op : BitVec 6) (row : Instr) (v : Bool) => tslClear i (encCmp op pd a imm) 1 1 [a] [] s →
       givesP row i (stepsOf i 1 1) ⟨pd.val, by omega⟩ v (fetchReport i s) s
     gives 0x0A (.cmpieq i pd a imm) (decide (x = y)) ∧ gives 0x0B (.cmpine i pd a imm) (decide (x ≠ y)) ∧
     gives 0x0C (.cmpilt i pd a imm) (decide (x.toInt < y.toInt)) ∧ gives 0x0D (.cmpige i pd a imm) (decide (y.toInt ≤ x.toInt)) ∧
     gives 0x0E (.cmpiltu i pd a imm) (decide (x.toNat < y.toNat)) ∧ gives 0x0F (.cmpigeu i pd a imm) (decide (y.toNat ≤ x.toNat)))) ∧
  (∀ (i : Issue) (pd pa pb : PReg) (s : State),
     let p := pGet s i.eng pa
     let q := pGet s i.eng pb
     let gives := fun (word : Word) (ps : List PReg) (row : Instr) (v : Bool) =>
       tslClear i word 1 1 [] ps s → givesP row i (stepsOf i 1 1) pd v (fetchReport i s) s
     gives (encLog pd pa pb 0x00) [pa, pb] (.pand i pd pa pb) (p && q) ∧
     gives (encLog pd pa pb 0x01) [pa, pb] (.por i pd pa pb) (p || q) ∧
     gives (encLog pd pa pb 0x02) [pa, pb] (.pxor i pd pa pb) (p != q) ∧
     gives (encLog pd pa pb 0x03) [pa, pb] (.pandn i pd pa pb) (p && !q) ∧
     gives (encLog pd pa 0 0x04) [pa] (.pnot i pd pa) (!p) ∧ gives (encLog pd pa 0 0x05) [pa] (.pmov i pd pa) p ∧
     gives (encLog pd 0 0 0x06) [] (.pset i pd) true ∧ gives (encLog pd 0 0 0x07) [] (.pclr i pd) false)

/-- R88 and Table 4-7: where jumps and branches go. A register target that is no multiple of 4 is ALIGN, and JALR reads W[a]
before it writes W[d].

The model's own choices that it rests on: log entry 8. -/
def Obligations.JumpResults : Prop :=
  (∀ (i : Issue) (off : BitVec 26) (s : State),
    let t := pcOf s i.eng + off.signExtend 32 * 4
    (tslClear i (encJ 0x18 off) 2 2 [] [] s → givesN (.j_ i off) i (stepsOf i 2 2) t (fetchReport i s) s) ∧
    (tslClear i (encJ 0x19 off) 2 2 [] [] s → ∃ u, exec (.jal i off) s = .next u ∧
      Ran i (stepsOf i 2 2) t (setW s i.eng 31 (pcOf s i.eng + 4)) (pGet s i.eng) (fetchReport i s) u)) ∧
  (∀ (i : Issue) (p : PReg) (off : BitVec 20) (s : State),
    let t := pcOf s i.eng + off.signExtend 32 * 4
    let goes := fun (op : BitVec 6) (row : Instr) (cost : Nat) (next : Word) =>
      tslClear i (encC op (predF p) off) cost cost [] [p] s → givesN row i (stepsOf i cost cost) next (fetchReport i s) s
    (pGet s i.eng p = true → goes 0x1A (.bt i p off) 2 t ∧ goes 0x1B (.bf i p off) 1 (nextPc s i)) ∧
    (pGet s i.eng p = false → goes 0x1A (.bt i p off) 1 (nextPc s i) ∧ goes 0x1B (.bf i p off) 2 t)) ∧
  (∀ (i : Issue) (d a : WReg) (s : State),
    let t := wGet s i.eng a
    (tslClear i (encA 0x1C 0 (regF a) 0 0x000) 2 2 [a] [] s →
      (t.toNat % 4 = 0 → givesN (.jr i a) i (stepsOf i 2 2) t (fetchReport i s) s) ∧
      (t.toNat % 4 ≠ 0 → exec (.jr i a) s = .next (trapNow i.eng .align (stepsOf i 2 2) (fetchReport i s)))) ∧
    (tslClear i (encA 0x1C (regF d) (regF a) 0 0x001) 2 2 [a] [] s →
      (t.toNat % 4 = 0 → ∃ u, exec (.jalr i d a) s = .next u ∧
        Ran i (stepsOf i 2 2) t (setW s i.eng d (pcOf s i.eng + 4)) (pGet s i.eng) (fetchReport i s) u) ∧
      (t.toNat % 4 ≠ 0 → exec (.jalr i d a) s = .next (trapNow i.eng .align (stepsOf i 2 2) (fetchReport i s)))))

/-- The bytes that a store of `n` bytes at `x` by engine `e` changes, as engine `f` sees address `a`. -/
def Sys2Proof.Machine.storedTo (e f : Fin 24) (x n a : Nat) : Prop :=
  x ≤ a ∧ a < x + n ∧ (inShared a 1 = true ∨ memOf f = memOf e)

/-- R70, R72, R102: what a load reads, with the byte order of the spec (least significant first), the extension of each form, and
the correction of a single-bit error; nothing is stored. A misaligned address is ALIGN and a window that the engine may not read
is ACCESS.

R70, R102: a store writes its bytes, least significant first, at W[a] + imm, and no other byte of any memory; a partial store
reads the word first, corrects a single-bit error, and is ECC where the word is beyond correction.

The model's own choices that it rests on: log entries 7 and 8. -/
def Obligations.MemoryResults : Prop :=
  (∀ (i : Issue) (d a : WReg) (imm : Half) (s : State),
     let x := (wGet s i.eng a + imm.signExtend 32).toNat
     let hi := if inShared x 1 then 4 else 1
     let f := fetchReport i s
     let g := if readCheck i f x = some false then eccCorrected i.eng x f else f
     let byte := fun k => readByte s.mem i.eng (x + k)
     let loads := fun (op : BitVec 6) (row : Instr) (n : Nat) (v : Word) =>
       tslClear i (encImm op d a imm) 1 hi [a] [] s →
         (x % n = 0 → mayLoad s.mem i.eng x n = true → readCheck i f x ≠ some true → givesW row i (stepsOf i 1 hi) d v g s) ∧
         (x % n = 0 → mayLoad s.mem i.eng x n = true → readCheck i f x = some true →
           exec row s = .next (trapNow i.eng .ecc (stepsOf i 1 hi) f)) ∧
         (x % n ≠ 0 → exec row s = .next (trapNow i.eng .align (stepsOf i 1 hi) f)) ∧
         (x % n = 0 → mayLoad s.mem i.eng x n = false → exec row s = .next (trapNow i.eng .access (stepsOf i 1 hi) f))
     loads 0x10 (.ldw i d a imm) 4 (byte 3 ++ byte 2 ++ byte 1 ++ byte 0) ∧
     loads 0x11 (.ldh i d a imm) 2 (BitVec.signExtend 32 (byte 1 ++ byte 0)) ∧
     loads 0x12 (.ldhu i d a imm) 2 (BitVec.zeroExtend 32 (byte 1 ++ byte 0)) ∧
     loads 0x13 (.ldb i d a imm) 1 (BitVec.signExtend 32 (byte 0)) ∧
     loads 0x14 (.ldbu i d a imm) 1 (BitVec.zeroExtend 32 (byte 0))) ∧
  (∀ (i : Issue) (d a : WReg) (imm : Half) (s : State), s.Inv →
     let e := i.eng
     let x := (wGet s e a + imm.signExtend 32).toNat
     let hi := if inShared x 1 then 4 else 1
     let f := fetchReport i s
     let g := if readCheck i f x = some false then eccCorrected e x f else f
     let stores := fun (op : BitVec 6) (row : Instr) (n : Nat) =>
       tslClear i (encImm op d a imm) 1 hi [d, a] [] s →
         (x % n = 0 → mayStore s.mem e x n = true → n = 4 ∨ readCheck i f x ≠ some true →
           ∃ u, exec row s = .next u ∧
             Ran i (stepsOf i 1 hi) (nextPc s i) (wGet s e) (pGet s e) { (if n = 4 then f else g) with mem := u.mem } u ∧
             (∀ k < n, readByte u.mem e (x + k) = (wGet s e d).extractLsb' (8 * k) 8) ∧
             (∀ (h : Fin 24) (y : Nat), ¬ storedTo e h x n y → readByte u.mem h y = readByte s.mem h y)) ∧
         (x % n = 0 → mayStore s.mem e x n = true → n ≠ 4 → readCheck i f x = some true →
           exec row s = .next (trapNow e .ecc (stepsOf i 1 hi) f)) ∧
         (x % n ≠ 0 → exec row s = .next (trapNow e .align (stepsOf i 1 hi) f)) ∧
         (x % n = 0 → mayStore s.mem e x n = false → exec row s = .next (trapNow e .access (stepsOf i 1 hi) f))
     stores 0x15 (.stw i d a imm) 4 ∧ stores 0x16 (.sth i d a imm) 2 ∧ stores 0x17 (.stb i d a imm) 1)

/-- R79, R87, R104, R105: how a task ends or goes on. YIELD ends the running task, and the task's registers, its address after
the YIELD and the rest of the engine stay; on a safety core it ends INIT, suspends TEST and is SEALSEQ in SCAN. TRET resumes at
TRAPC [31:16] words, and is PRIV outside a trap handler and on safety cores. FENCE changes nothing.

R85, R86, Table 3-6: TRAP raises cause 0x40 + arg. TRAPC holds the cause, the task and the address in words; a stitch or
carrier engine or a split hart that runs no handler goes to its handler in the same task, with registers unchanged; a twin-pass
safety core stops and holds the cause and the address.

The model's own choices that it rests on: log entries 11 and 126. -/
def Obligations.TaskControl : Prop :=
  (∀ (i : Issue) (s : State),
     let e := i.eng
     let f := fetchReport i s
     let x := s.eng.e[e]
     (tslClear i (encSys 0 0 0x03 0) 1 1 [] [] s →
       (¬ (twin e = true ∧ taskOf s e = 1) → ∃ u, exec (.yield i) s = .next u ∧
         (u.eng.e[e]).task = none ∧ (u.eng.e[e]).inTrap = false ∧
         (u.eng.e[e]).bankS = x.bankS ∧ (u.eng.e[e]).bankT = x.bankT ∧
         (∀ t : Fin 16, (u.eng.e[e]).pc[t] = if t = taskOf s e then nextPc s i else x.pc[t]) ∧
         (twin e = true → taskOf s e = 0 → (u.eng.c[coreOf e]).initDone = true) ∧
         (∀ g : Fin 24, g ≠ e → u.eng.e[g] = f.eng.e[g]) ∧ u.mem = s.mem ∧ u.sout = s.sout ∧ u.sys = s.sys) ∧
       (twin e = true ∧ taskOf s e = 1 → exec (.yield i) s = .next (trapNow e .sealseq (stepsOf i 1 1) f))) ∧
     (tslClear i (encSys 0 0 0x04 0) 2 2 [] [] s →
       (twin e = false → x.inTrap = true →
         givesN (.tret i) i (stepsOf i 2 2) (BitVec.ofNat 32 (x.trapc.toNat / 65536 * 4)) (f.onE e fun x => { x with inTrap := false }) s) ∧
       (twin e = true ∨ x.inTrap = false → exec (.tret i) s = .next (trapNow e .priv (stepsOf i 2 2) f))) ∧
     (tslClear i (encSys 0 0 0x06 0) 1 8 [] [] s → givesN (.fence i) i (stepsOf i 1 8) (nextPc s i) f s)) ∧
  (∀ (i : Issue) (arg : BitVec 6) (s : State),
     tslClear i (encSys 0 0 0x05 ((0 : BitVec 2) ++ arg)) 1 1 [] [] s →
     let e := i.eng
     let pc := pcOf s e
     ∃ u, exec (.trap i arg) s = .next u ∧
       (u.eng.e[e]).trapc = BitVec.ofNat 32 (0x40 + arg.toNat + 256 * (taskOf s e).val + 65536 * (pc.toNat / 4 % 65536)) ∧
       (clsOf e = .se ∨ clsOf e = .ce ∨ clsOf e = .hart → (s.eng.e[e]).inTrap = false →
         (u.eng.e[e]).inTrap = true ∧ (u.eng.e[e]).task = (s.eng.e[e]).task ∧ pcOf u e = (s.eng.e[e]).handler ∧
         (∀ r, wGet u e r = wGet s e r) ∧ (∀ p, pGet u e p = pGet s e p) ∧ u.mem = s.mem ∧ u.sout = s.sout ∧ u.sys = s.sys) ∧
       (clsOf e = .sc →
         (u.eng.e[e]).on = false ∧ (u.eng.c[coreOf e]).trapped = true ∧
         (u.eng.c[coreOf e]).cause = BitVec.ofNat 8 (0x40 + arg.toNat) ∧
         (u.eng.c[coreOf e]).word = BitVec.ofNat 16 (pc.toNat / 4) ∧ (u.eng.c[coreOf e]).staged = []))

/-- Table 3-2, R66, R67: SIGF, RDS and WRS. SIG takes CRC-32C of the immediate on a safety core; RDS reads the address, the SCAN
word, the step count before itself, TRAPC, and SIG where the core holds one (on any other engine SIG is a free value); WRS
writes TRAPC on single-pass engines alone. Every other use is the trap the spec names.

R113, Table 4-11: TBLO reads timebase A [31:0] and latches [63:32] for the task, TBHI reads what was latched, and TBREL reads
the release time on a twin-pass safety core, and is PRIV elsewhere.

The model's own choices that it rests on: log entry 10. -/
def Obligations.SpecialResults : Prop :=
  (∀ (i : Issue) (d a : WReg) (imm : Half) (arg : Byte) (s : State),
     let e := i.eng
     let n := stepsOf i 1 1
     let f := fetchReport i s
     let c := s.eng.c[coreOf e]
     (tslClear i (encImm 0x1D 0 0 imm) 1 1 [] [] s →
       (twin e = true → givesN (.sigf i imm) i n (nextPc s i) (f.onC (coreOf e) fun x =>
         { x with sig := sigFold x.sig imm, purlSig := ~~~(sigFold (~~~x.purlSig) imm) }) s) ∧
       (twin e = false → exec (.sigf i imm) s = .next (trapNow e .priv n f))) ∧
     (tslClear i (encSys d 0 0x01 arg) 1 1 [] [] s →
       (arg = 0 → givesW (.rds i d arg) i n d (pcOf s e) f s) ∧
       (arg = 1 → givesW (.rds i d arg) i n d
         ((if twin e then c.seq.zeroExtend 32 + (if c.first then 0x1000000 else 0) else 0) + BitVec.ofNat 32 ((taskOf s e).val * 65536))
         f s) ∧
       (arg = 2 → givesW (.rds i d arg) i n d ((s.eng.e[e]).steps[taskOf s e]) f s) ∧
       (arg = 3 → givesW (.rds i d arg) i n d (s.eng.e[e]).trapc f s) ∧
       (arg = 4 → twin e = true → c.purlSig = ~~~c.sig → givesW (.rds i d arg) i n d c.sig f s) ∧
       (arg = 4 → twin e = false → ∃ v, givesW (.rds i d arg) i n d v { f with fresh := f.fresh + 1 } s) ∧
       (4 < arg.toNat → exec (.rds i d arg) s = .next (trapNow e .illegal n f))) ∧
     (tslClear i (encSys 0 a 0x02 arg) 1 1 [a] [] s →
       (twin e = false → arg = 3 →
         givesN (.wrs i arg a) i n (nextPc s i) (f.onE e fun x => { x with trapc := wGet s e a }) s) ∧
       (twin e = true ∨ arg ≠ 3 → exec (.wrs i arg a) s = .next (trapNow e .priv n f)))) ∧
  (∀ (i : Issue) (d : WReg) (s : State),
     let e := i.eng
     let n := stepsOf i 1 1
     let f := fetchReport i s
     (tslClear i (encX 0x24 d 0 1 0) 1 1 [] [] s → givesW (.tblo i d) i n d (s.t.tbA.extractLsb' 0 32)
       (f.onE e fun x => { x with tbHi := x.tbHi.upd (taskOf s e) fun _ => s.t.tbA.extractLsb' 32 32 }) s) ∧
     (tslClear i (encX 0x24 d 0 2 0) 1 1 [] [] s → givesW (.tbhi i d) i n d ((s.eng.e[e]).tbHi[taskOf s e]) f s) ∧
     (tslClear i (encX 0x24 d 0 3 0) 1 1 [] [] s →
       (twin e = true → givesW (.tbrel i d) i n d ((s.eng.c[coreOf e]).release.extractLsb' 0 32) f s) ∧
       (twin e = false → exec (.tbrel i d) s = .next (trapNow e .priv n f))))

/-- R114, R115, R349 to R352, Table 4-12: what the owner's instructions do to a check-value unit that no DMA channel feeds and whose
two implementations agree. A FEED after the closing word and a context word out of sequence set SEQERR and leave the value; the
value read under SEQERR is its complement. Beside the unit, only events follow. Any other engine gets PORT, and so does the owner of
a unit that a DMA channel feeds, but for READ.

The model's own choices that it rests on: log entry 62. -/
def Obligations.CheckValueResults : Prop :=
  ∀ (i : Issue) (u : Fin 4) (a d : WReg) (s : State),
    let e := i.eng
    let f := fetchReport i s
    let x := s.cvu.u[u]
    let w := wordBytes (wGet s e a)
    let unit := fun (row : Instr) (n : Nat) (y : Cvu) => ∃ g t, Fab (f.onCvu fun z => { z with u := z.u.upd u fun _ => y }) g ∧
      exec row s = .next t ∧ Ran i n (nextPc s i) (wGet s e) (pGet s e) g t
    let clear := fun (fn : BitVec 4) (d a : WReg) (cost : Nat) (rs : List WReg) =>
      tslClear i (encX 0x25 d a fn (BitVec.ofNat 12 u.val)) cost cost rs [] s
    (fld x.cfg 20 16 = e.val → bit x.cfg 3 = false →
      (clear 1 0 a 2 [a] →
        unit (.feed i u a true) (stepsOf i 2 2) (if x.st = .closed then { x with seqerr := true } else x.take w .opened)) ∧
      (clear 4 0 a 2 [a] →
        unit (.ctxs i u a true) (stepsOf i 2 2) (if x.st = .fresh then x.take w .opened else { x with seqerr := true })) ∧
      (clear 5 0 a 2 [a] →
        unit (.ctxe i u a true) (stepsOf i 2 2) (if x.st = .closed then { x with seqerr := true } else x.take w .closed)) ∧
      (clear 3 0 a 1 [a] →
        unit (.cvuLoad i u a) (stepsOf i 1 1)
          { x with value := wGet s e a &&& x.mask, st := .fresh, seqerr := false, bytes := 0 })) ∧
    (fld x.cfg 20 16 = e.val → clear 2 d 0 1 [] →
      ∃ g t, Fab f g ∧ exec (.cvuRead i d u true) s = .next t ∧
        Ran i (stepsOf i 1 1) (nextPc s i) (setW s e d (if x.seqerr then ~~~x.value else x.value)) (pGet s e) g t) ∧
    (fld x.cfg 20 16 ≠ e.val → ∀ agree,
      clear 2 d 0 1 [] → exec (.cvuRead i d u agree) s = .next (trapNow e .port (stepsOf i 1 1) f)) ∧
    (fld x.cfg 20 16 ≠ e.val ∨ bit x.cfg 3 = true → ∀ agree,
      (clear 1 0 a 2 [a] → exec (.feed i u a agree) s = .next (trapNow e .port (stepsOf i 2 2) f)) ∧
      (clear 4 0 a 2 [a] → exec (.ctxs i u a agree) s = .next (trapNow e .port (stepsOf i 2 2) f)) ∧
      (clear 5 0 a 2 [a] → exec (.ctxe i u a agree) s = .next (trapNow e .port (stepsOf i 2 2) f)) ∧
      (clear 3 0 a 1 [a] → exec (.cvuLoad i u a) s = .next (trapNow e .port (stepsOf i 1 1) f)))

/-- R116, R246, R251, R255, Table 4-13: the timer instructions of a channel's owner. RDCAPR clears CAPRF and locks the capture pair;
RDCAPF of a locked pair clears CAPFF and unlocks it; both read the pair after the captures of edges that fall due in the same tick.
RDSTAT clears what a read of STAT clears; any other engine gets PORT.

R117, R453, Table 4-14: EVPEND reads the pending flags of a single-pass engine, and on a safety core the events latched at
the release; EVCLR clears one flag; EVWAIT takes a flag that is pending, and otherwise the task waits for it and the engine is
free. On a twin-pass safety core EVWAIT and EVCLR are PRIV.

The model's own choices that it rests on: log entry 3. -/
def Obligations.TimerInstructions : Prop :=
  (∀ (i : Issue) (d a : WReg) (n : Fin 32) (g : Fin 16) (s : State),
     let e := i.eng
     let k := stepsOf i 1 1
     let f := fetchReport i s
     let c := f.tmr.ch[n]
     let clear := fun (fn : BitVec 4) (d a : WReg) (k : Nat) (rs : List WReg) =>
       tslClear i (encX 0x26 d a fn (BitVec.ofNat 12 k)) 1 1 rs [] s
     let t := noting (captures n) f
     let q := t.tmr.ch[n]
     let held := fun (g : TmrCh → TmrCh) (h : State) =>
       let ch := Tab.gen 32 fun m =>
         if m = n ∧ oddHalf h.tmr n = false ∨ m.val = n.val + 1 ∧ n.val % 2 = 0 ∧ linked h.tmr n = true then g h.tmr.ch[m] else h.tmr.ch[m]
       { h with tmr := { h.tmr with ch := ch } }
     let reads := fun (fn : BitVec 4) (row : Instr) (v : Word) (g : State) => clear fn d 0 n.val [] → givesW row i k d v g s
     (tmrOwner f.tmr n = e.val →
       reads 2 (.rdsnap i d n) c.snap f ∧
       reads 4 (.rdcapr i d n) q.capr (held (fun c => { c with lock := true }) (t.onTc n fun c => { c with caprf := false })) ∧
       (q.lock = true → reads 5 (.rdcapf i d n) q.capf (held TmrCh.unlock (t.onTc n fun c => { c with capff := false }))) ∧
       (q.lock = false → reads 5 (.rdcapf i d n) q.capf t) ∧
       reads 6 (.rdstat i d n) (statOf f.tmr n) (f.onTc n statClear)) ∧
     (tmrOwner f.tmr n ≠ e.val →
       (clear 2 d 0 n.val [] → exec (.rdsnap i d n) s = .next (trapNow e .port k f)) ∧
       (clear 4 d 0 n.val [] → exec (.rdcapr i d n) s = .next (trapNow e .port k f)) ∧
       (clear 5 d 0 n.val [] → exec (.rdcapf i d n) s = .next (trapNow e .port k f)) ∧
       (clear 6 d 0 n.val [] → exec (.rdstat i d n) s = .next (trapNow e .port k f))) ∧
     (clear 1 0 0 g.val [] →
       ((f.tmr.grp[g]).owner.toNat = e.val → givesN (.snap i g) i k (nextPc s i) (snapGroup g f) s) ∧
       ((f.tmr.grp[g]).owner.toNat ≠ e.val → exec (.snap i g) s = .next (trapNow e .port k f))) ∧
     (clear 3 0 a n.val [a] →
       (twin e = true → exec (.wrcmp i n a) s = .next (trapNow e .priv k f)) ∧
       (twin e = false → tmrOwner f.tmr n = e.val →
         givesN (.wrcmp i n a) i k (nextPc s i) (writeCmp n (wGet s e a) f) s) ∧
       (twin e = false → tmrOwner f.tmr n ≠ e.val → exec (.wrcmp i n a) s = .next (trapNow e .port k f)))) ∧
  (∀ (i : Issue) (d : WReg) (k : Fin 4) (ev : BitVec 7) (s : State),
     let e := i.eng
     let n := stepsOf i 1 1
     let f := fetchReport i s
     let x := f.eng.e[e]
     let clear := fun (fn : BitVec 4) => tslClear i (encX 0x27 0 0 fn ((0 : BitVec 5) ++ ev)) 1 1 [] [] s
     (tslClear i (encX 0x27 d 0 2 (BitVec.ofNat 12 k.val)) 1 1 [] [] s →
       givesW (.evpend i d k) i n d ((if twin e then x.latched else x.flags).extractLsb' (32 * k.val) 32) f s) ∧
     (twin e = true →
       (clear 3 → exec (.evclr i ev) s = .next (trapNow e .priv n f)) ∧
       (clear 1 → exec (.evwait i ev) s = .next (trapNow e .priv n f))) ∧
     (twin e = false →
       (clear 3 → givesN (.evclr i ev) i n (nextPc s i) (f.onE e fun y => { y with flags := setBit y.flags ev.toNat false }) s) ∧
       (clear 1 →
         (bit x.flags ev.toNat = true →
           givesN (.evwait i ev) i n (nextPc s i) (f.onE e fun y => { y with flags := setBit y.flags ev.toNat false }) s) ∧
         (bit x.flags ev.toNat = false → ∃ u, exec (.evwait i ev) s = .next u ∧
           (u.eng.e[e]).task = none ∧ (u.eng.e[e]).waiting[taskOf s e] = some ev ∧ (u.eng.e[e]).flags = x.flags ∧
           (u.eng.e[e]).pc[taskOf s e] = nextPc s i ∧ (u.eng.e[e]).bankS = x.bankS ∧ u.mem = s.mem))))

/-- R106 to R108, Tables 3-14, 4-9 and 17-8: IN. A safety core reads the words it latched at its release in classes 0x0 to 0x8; every
other engine reads the live word; session words are read by the owner of the session alone, and an index beyond the range is PORT;
class 0xA gives the words of Table 17-8; mailbox words are read by every engine; a direction that does not exist is ILLEGAL and a class
that the engine's class, or an integrator slot, may not use is PRIV.

R63, R107, R108, R449: OUT. A safety core stages the CSL words of its own sessions; a mailbox word takes the value where the
writer may write it, and is PORT where it may not; the read-only classes 0x0 to 0x5, 0x8 and 0xA are ILLEGAL.

The model's own choices that it rests on: log entry 9. -/
def Obligations.PortResults : Prop :=
  (∀ (i : Issue) (d : WReg) (sel : Half) (s : State),
     let e := i.eng
     let f := fetchReport i s
     let cls := sel.toNat / 4096
     let ix := sel.toNat % 4096
     let clear := fun (hi : Nat) => tslClear i (encImm 0x21 d 0 sel) 1 hi [] [] s
     let mine := (cls = 6 → ownsSession f e (ix / 16) = true) ∧ (cls = 7 → ownsSession f e ix = true)
     (cls ≤ 8 → mine → clear 1 → ∀ w, liveWord f cls ix = some w →
       (twin e = true →
         givesW (.inp i d 0 sel) i (stepsOf i 1 1) d (Sparse.get 0 (s.eng.c[coreOf e]).ports (cls * 4096 + ix)) f s) ∧
       (twin e = false → inSlot s e = false → givesW (.inp i d 0 sel) i (stepsOf i 1 1) d w f s)) ∧
     (cls ≤ 8 → inSlot s e = false → (¬ mine ∨ liveWord f cls ix = none) → clear 1 →
       exec (.inp i d 0 sel) s = .next (trapNow e .port (stepsOf i 1 1) f)) ∧
     (cls = 10 → inSlot s e = false → clear 4 →
       (ix < 16 → givesW (.inp i d 0 sel) i (stepsOf i 1 4) d (sysst f ix) f s) ∧
       (16 ≤ ix → exec (.inp i d 0 sel) s = .next (trapNow e .port (stepsOf i 1 4) f))) ∧
     (cls ≤ 10 → cls ≠ 9 → inSlot s e = true → clear (if cls ≤ 8 then 1 else 4) →
       exec (.inp i d 0 sel) s = .next (trapNow e .priv (stepsOf i 1 (if cls ≤ 8 then 1 else 4)) f)) ∧
     (cls = 9 → ix < 64 → clear 4 → givesW (.inp i d 0 sel) i (stepsOf i 1 4) d (s.link.mbx.getN ix 0) f s) ∧
     (cls = 11 → clear 4 → exec (.inp i d 0 sel) s = .next (trapNow e .illegal (stepsOf i 1 1) f)) ∧
     (cls = 12 → clsOf e = .sc → clear 4 → exec (.inp i d 0 sel) s = .next (trapNow e .priv (stepsOf i 1 4) f))) ∧
  (∀ (i : Issue) (a : WReg) (sel : Half) (s : State),
     let e := i.eng
     let f := fetchReport i s
     let cls := sel.toNat / 4096
     let ix := sel.toNat % 4096
     let v := wGet s e a
     let clear := fun (lo hi : Nat) => tslClear i (encImm 0x22 0 a sel) lo hi [a] [] s
     (cls = 6 → clsOf e = .sc → ownsSession f e (ix / 16) = true → clear 1 1 →
       givesN (.outp i 0 a sel) i (stepsOf i 1 1) (nextPc s i)
         (f.onC (coreOf e) fun x => { x with staged := x.staged ++ [(0x6000 + ix, v)] }) s) ∧
     (cls = 7 → clsOf e = .sc → ownsSession f e ix = true → clear 2 2 →
       givesN (.outp i 0 a sel) i (stepsOf i 2 2) (nextPc s i)
         (f.onC (coreOf e) fun x => { x with staged := x.staged ++ [(0x7000 + ix, v)] }) s) ∧
     (cls = 9 → clear 1 4 →
       (mbxMay f (.engine e) ix = true → givesN (.outp i 0 a sel) i (stepsOf i 1 4) (nextPc s i) (mbxStore ix v f) s) ∧
       (mbxMay f (.engine e) ix = false → exec (.outp i 0 a sel) s = .next (trapNow e .port (stepsOf i 1 4) f))) ∧
     (cls ≤ 5 ∨ cls = 8 → clear 1 1 → exec (.outp i 0 a sel) s = .next (trapNow e .illegal (stepsOf i 1 1) f)) ∧
     (cls = 10 ∨ cls = 11 → clear 1 4 → exec (.outp i 0 a sel) s = .next (trapNow e .illegal (stepsOf i 1 1) f)))

/-- R92, R109, R110: DEMAND and PERMIT stage the demands and permits of a safety core in SCAN. A bit that is not the core's own is
OWNER and leaves the staged words; outside SCAN of a twin-pass safety core they are PRIV.

R78, R111, R112, Table 4-10: SEAL of a safety core in SCAN hands a record of five words to channel B: core, state 1 and scan
sequence; release time; demands and ports with permits; SIG; and their CRC-32C. Elsewhere than in LOCKOUT and HALT the demands are those the core
staged on its own outputs and the ports with permits are those of its own; in LOCKOUT, but for the CROSS of a re-evaluation, and in HALT
both are off. Outside SCAN SEAL is PRIV.

The model's own choices that it rests on: log entry 69. -/
def Obligations.SafetyPorts : Prop :=
  (∀ (i : Issue) (a : WReg) (port : BitVec 4) (w : Bool) (s : State),
     let e := i.eng
     let n := stepsOf i 1 1
     let f := fetchReport i s
     let c := coreOf e
     let v := wGet s e a
     let p : Fin 4 := Fin.ofNat 4 port.toNat
     let inScan := twin e = true ∧ taskOf s e = 1
     (tslClear i (encX 0x23 0 a 1 0) 1 1 [a] [] s →
       (inScan →
         (∀ k < 32, bit v k = true → ∃ _ : k < 16, bit s.sout.used k = true ∧ fld s.sout.owners (2 * k + 1) (2 * k) = c.val) →
         givesN (.demand i a) i n (nextPc s i) (f.onC c fun x => { x with demand := v.extractLsb' 0 16 }) s) ∧
       (inScan →
         (∃ k < 32, bit v k = true ∧ (16 ≤ k ∨ bit s.sout.used k = false ∨ fld s.sout.owners (2 * k + 1) (2 * k) ≠ c.val)) →
         exec (.demand i a) s = .next (trapNow e .owner n f)) ∧
       (¬ inScan → exec (.demand i a) s = .next (trapNow e .priv n f))) ∧
     (tslClear i (encX 0x23 0 a 2 (port ++ (0 : BitVec 7) ++ BitVec.ofBool w)) 1 1 [a] [] s →
       (inScan → port.toNat < 4 → cscAbsent f = false → bit (ownedPort s.sout.ports s.sout.portOwners c) p.val = true →
         v &&& ~~~(definedGroups f p w) = 0 →
         givesN (.permit i a port w) i n (nextPc s i)
           (f.onC c fun x => { x with permit := x.permit.upd p fun d =>
             if w then v ++ d.extractLsb' 0 32 else d.extractLsb' 32 32 ++ v }) s) ∧
       (inScan → port.toNat < 4 → cscAbsent f = true → exec (.permit i a port w) s = .next (trapNow e .port n f)) ∧
       (inScan → port.toNat < 4 → cscAbsent f = false →
         bit (ownedPort s.sout.ports s.sout.portOwners c) p.val = false ∨ v &&& ~~~(definedGroups f p w) ≠ 0 →
         exec (.permit i a port w) s = .next (trapNow e .owner n f)) ∧
       (3 < port.toNat → exec (.permit i a port w) s = .next (trapNow e .illegal n f)) ∧
       (¬ inScan → port.toNat < 4 → exec (.permit i a port w) s = .next (trapNow e .priv n f)))) ∧
  (∀ (i : Issue) (s : State), tslClear i (encX 0x23 0 0 3 0) 4 4 [] [] s →
     let e := i.eng
     let c := coreOf e
     let x := s.eng.c[c]
     let f := fetchReport i s
     (twin e = true ∧ taskOf s e = 1 → x.purlSig = ~~~x.sig → heldOff s = false →
       ∃ u r w2, exec (.seal i true) s = .next u ∧
         r = [BitVec.ofNat 32 (c.val + 16 + 65536 * x.seq.toNat), x.release.extractLsb' 0 32, w2, x.sig] ∧
         w2.extractLsb' 0 16 = x.demand &&& ownedOut s.sout.used s.sout.owners c ∧
         (∀ k < 16, bit w2 (16 + k) =
           (decide (k < 4) && bit (ownedPort s.sout.ports s.sout.portOwners c) k && x.permit.getN k 0 != 0)) ∧
         u.hld.inbox = s.hld.inbox ++ [r ++ [crcWords r]] ∧
         (u.eng.c[c]).record = r ++ [crcWords r] ∧ (u.eng.c[c]).staged = [] ∧ (u.eng.c[c]).inScan = false ∧
         (u.eng.c[c]).sealedPermit = x.permit ∧
         (∀ k : Fin 16, bit (ownedOut s.sout.used s.sout.owners c) k.val = false →
           (u.sout.o[k]).demand = (s.sout.o[k]).demand) ∧
         (u.eng.e[e]).task = (if x.testCapped then none else some 2) ∧ u.mem = s.mem) ∧
     (twin e = true ∧ taskOf s e = 1 → x.purlSig = ~~~x.sig → heldOff s = true →
       ∃ u r, exec (.seal i true) s = .next u ∧
         r = [BitVec.ofNat 32 (c.val + 16 + 65536 * x.seq.toNat), x.release.extractLsb' 0 32, 0, x.sig] ∧
         u.hld.inbox = s.hld.inbox ++ [r ++ [crcWords r]] ∧ (u.eng.c[c]).sealedDemand = 0 ∧
         (u.eng.c[c]).sealedPermit = Tab.fill 4 0 ∧ (u.eng.c[c]).staged = [] ∧ u.mem = s.mem) ∧
     (¬ (twin e = true ∧ taskOf s e = 1) → exec (.seal i true) s = .next (trapNow e .priv (stepsOf i 4 4) f)))

/-- R75, R77, R80, R81, R82: a release of a released twin-pass core that has run INIT and sealed its scan starts SCAN: bank S
cleared, address at the entry, no steps, the sequence counted, SIG at its seed, the staged writes empty, timebase A as the
release time. TEST_CAP suspends a TEST that has reached its cap until the next SEAL. TASK_DISPATCH starts the lowest-numbered pending
task of a free engine, and lets one that waited go on where its event has come.

The model's own choices that it rests on: log entry 3. -/
def Obligations.Scheduling : Prop :=
  (∀ (c : Fin 4) (s : State), (s.eng.e[engOf c]).on = true → (s.eng.c[c]).mode = 1 → s.t.runA = true → s.sys.runState ≠ .dormant →
    (s.eng.c[c]).periodU ≠ 0 → s.t.tbA.toNat % ((s.eng.c[c]).periodU * 10000) = fld (s.eng.c[c]).scanCfg 21 11 * 10000 →
    (s.eng.c[c]).inScan = false → (s.eng.c[c]).initDone = true → s.sys.holding = false →
    ∃ u, exec (.scanRelease c) s = .next u ∧
      (u.eng.e[engOf c]).task = some 1 ∧ (u.eng.e[engOf c]).bankS = {} ∧
      (u.eng.e[engOf c]).pc[1] = (s.eng.e[engOf c]).entry[1] ∧ (u.eng.e[engOf c]).steps[1] = 0 ∧
      (u.eng.c[c]).seq = (s.eng.c[c]).seq + 1 ∧ (u.eng.c[c]).sig = (s.eng.c[c]).seed ∧ (u.eng.c[c]).first = (s.eng.c[c]).firstDue ∧
      (u.eng.c[c]).release = s.t.tbA ∧ (u.eng.c[c]).demand = 0 ∧ (u.eng.c[c]).staged = [] ∧ (u.eng.c[c]).inScan = true ∧
      (u.eng.c[c]).purlSig = ~~~(s.eng.c[c]).seed ∧ u.mem = s.mem ∧ u.hld = s.hld ∧ u.sys = s.sys) ∧
  (∀ (c : Fin 4) (s : State), (s.eng.e[engOf c]).task = some 2 →
    (s.eng.c[c]).testCap < (s.eng.c[c]).testSteps + 2 →
    ∃ u, exec (.testCap c) s = .next u ∧ (u.eng.e[engOf c]).task = none ∧ (u.eng.c[c]).testCapped = true ∧
      (u.eng.e[engOf c]).pc = (s.eng.e[engOf c]).pc ∧ u.mem = s.mem ∧ u.sout = s.sout) ∧
  (∀ (e : Fin 24) (t : Fin 16) (s : State), 4 ≤ e.val → (e = 14 → s.sys.runState ≠ .castOn) → s.sys.runState ≠ .dormant → (s.eng.e[e]).on = true →
    (s.eng.e[e]).task = none →
    let x := s.eng.e[e]
    let starts := fun (k : Fin 16) => bit x.resumes k.val = true ∨ bit x.tasks k.val = true ∧ x.waiting[k] = none
    starts t → (∀ k < t, ¬ starts k) →
    ∃ u, exec (.taskDispatch e) s = .next u ∧ (u.eng.e[e]).task = some t ∧
      (bit x.resumes t.val = false → bit (u.eng.e[e]).tasks t.val = false ∧
        (u.eng.e[e]).pc[t] = x.entry[t] ∧ (u.eng.e[e]).steps[t] = 0) ∧
      (bit x.resumes t.val = true → bit (u.eng.e[e]).resumes t.val = false ∧ (u.eng.e[e]).tasks = x.tasks ∧
        (u.eng.e[e]).pc = x.pc ∧ (u.eng.e[e]).steps = x.steps) ∧
      (u.eng.e[e]).bankS = x.bankS ∧ (∀ g : Fin 24, g ≠ e → u.eng.e[g] = s.eng.e[g]) ∧ u.mem = s.mem)

/-! ## Timers -/

/-- R241, R242, R244, R245, R248, R251: what the host's timer commands do. An owner's START of a stopped FREE channel starts it at
timebase A (a linked pair as one), STOP keeps the count it stands at, SNAP latches the group, a write of CMP arms, in a linked pair the
write of the high half, and a write of COUNT sets a stopped FREE channel; what the start of the tick held of CMP, ARMED and COUNT, and the
counts of edges on their way, stay with the channel. A command of any other owner gives RESULT 1 and changes nothing else, and a write of
any other owner changes nothing, but that a write of a running COUNT sets ERR whoever writes; nor does any command where the run state
serves none.

The model's own choices that it rests on: log entries 13, 35, 121, 122, 123 and 133. -/
def Obligations.TimerCommands : Prop :=
  ∀ (n : Fin 32) (g : Fin 16) (v : Word) (s : State),
    let c := s.tmr.ch[n]
    let m := govern s.tmr n
    let d := s.tmr.ch[m]
    let now := s.t.tbA
    let was := fun (y : TmrCh) => some (now, y.cmpIn now)
    let put := fun (k : Fin 32) (y : TmrCh) (r : BitVec 2) => s.onTmr fun x => { x with ch := x.ch.upd k fun _ => y, result := r }
    (ctrlServed s = true →
      (tmrOwner s.tmr n = 0x18 →
        (d.mode = 1 → d.run = false → exec (.tmrCmdStart n) s = .next (put m
          { d with run := true, base := now, count := d.countIn now, err := d.err || d.countLate now, countWas := none
                   sync := edgesKept s.tmr now false m } 0)) ∧
        (d.mode ≠ 1 ∨ d.run = true → exec (.tmrCmdStart n) s = .next (s.onTmr fun x => { x with result := 2 })) ∧
        (d.mode = 1 → d.run = true →
          exec (.tmrCmdStop n) s = .next (put m
            { d with run := false, count := BitVec.ofNat 64 (stopCount s.tmr now m), sync := edgesKept s.tmr now false m } 0)) ∧
        (d.mode ≠ 1 ∨ d.run = false → exec (.tmrCmdStop n) s = .next (s.onTmr fun x => { x with result := 2 })) ∧
        (linked s.tmr n = false → (c.modv = 0 ∨ v.toNat < c.modv.toNat) →
          exec (.tmrCmpWrite n v) s = .next (put n { c with cmp := v, armed := true, cmpWas := was c } s.tmr.result)) ∧
        (linked s.tmr n = false → c.modv ≠ 0 → c.modv.toNat ≤ v.toNat →
          exec (.tmrCmpWrite n v) s = .next (put n { c with cmp := v, armed := false, err := true, cmpWas := was c } s.tmr.result)) ∧
        (linked s.tmr n = true → n.val % 2 = 0 →
          exec (.tmrCmpWrite n v) s = .next (put n { c with cmp := v, armed := false, cmpWas := was c } s.tmr.result)) ∧
        (linked s.tmr n = true → n.val % 2 = 1 →
          exec (.tmrCmpWrite n v) s = .next (s.onTmr fun x => { x with
            ch := (x.ch.upd n fun _ => { c with cmp := v, cmpWas := was c }).upd (evenCh n) fun y =>
              { y with armed := true, cmpWas := was y } })) ∧
        (linked s.tmr n = false → c.run = false → c.mode = 1 →
          exec (.tmrCountWrite n v) s = .next (put n
            { c with count := v.zeroExtend 64, countWas := some (now, c.countIn now), sync := edgesKept s.tmr now true n } s.tmr.result))) ∧
      (d.run = true → exec (.tmrCountWrite n v) s = .next (put n { c with err := true } s.tmr.result)) ∧
      (tmrOwner s.tmr n ≠ 0x18 →
        exec (.tmrCmdStart n) s = .next (s.onTmr fun x => { x with result := 1 }) ∧
        exec (.tmrCmdStop n) s = .next (s.onTmr fun x => { x with result := 1 }) ∧
        exec (.tmrCmpWrite n v) s = .next s ∧ (d.run = false → exec (.tmrCountWrite n v) s = .next s)) ∧
      ((s.tmr.grp[g]).owner ≠ 0x18 → exec (.tmrCmdSnap g) s = .next (s.onTmr fun x => { x with result := 1 })) ∧
      ((s.tmr.grp[g]).owner = 0x18 → ∃ u, exec (.tmrCmdSnap g) s = .next u ∧ u = { s with tmr := u.tmr } ∧ u.tmr.result = 0 ∧
        (u.tmr.grp[g]).time = s.t.tbA.extractLsb' 0 32 ∧
        (∀ m : Fin 32, bit (s.tmr.grp[g]).mask m.val = true → u.tmr.ch[m] = { s.tmr.ch[m] with snap := halfAt s.tmr s.t.tbA m }) ∧
        (∀ m : Fin 32, u.tmr.ch[m] = { s.tmr.ch[m] with snap := (u.tmr.ch[m]).snap }))) ∧
    (ctrlServed s = false →
      exec (.tmrCmdStart n) s = .next s ∧ exec (.tmrCmdStop n) s = .next s ∧ exec (.tmrCmdSnap g) s = .next s ∧
      exec (.tmrCmpWrite n v) s = .next s ∧ exec (.tmrCountWrite n v) s = .next s)

/-- R240, R248, R250, R252, R254 to R256, R259: what happens at a compare match, a wrap, a trigger, a captured edge, and a match of
a stagger channel that comes more than 10 µs late or not at all. A match is judged on the CMP and ARMED of the start of the tick; it sets
CMPF and moves CMP on by STEP within MOD, unless a write of the same tick has replaced it. A capture, of the count of the tick in which its
edge arrived, enters CAPR or CAPF of an unlocked pair, the hold of a locked one, and counts as LOST where the hold is full.

The model's own choices that it rests on: log entries 3, 13, 15, 100, 122 and 123. -/
def Obligations.TimerEvents : Prop :=
  ∀ (n : Fin 32) (s : State),
    let c := s.tmr.ch[n]
    let w := c.cmpIn s.t.tbA
    (c.mode ≠ 0 → c.run = true → w.2 = true → linked s.tmr n = false → n.val < 30 →
      advances s.tmr s.t.tbA n = true → countAt s.tmr s.t.tbA n = w.1.toNat → c.cmpAt ≠ some s.t.tbA →
      ∃ u, exec (.timerCompare n) s = .next u ∧ (u.tmr.ch[n]).cmpf = true ∧
        (u.tmr.ch[n]).cmp = (if c.step = 0 ∨ (c.cmpWas.any fun p => p.1 == s.t.tbA) = true then c.cmp
          else BitVec.ofNat 32 ((w.1.toNat + c.step.toNat) % modulus s.tmr n)) ∧
        (∀ m : Fin 32, m ≠ n → (u.tmr.ch[m]).cmpf = (s.tmr.ch[m]).cmpf ∧ (u.tmr.ch[m]).cmp = (s.tmr.ch[m]).cmp) ∧
        u.mem = s.mem ∧ u.sys = s.sys ∧ u.hld = s.hld) ∧
    (linked s.tmr n = false → advances s.tmr s.t.tbA n = true → countAt s.tmr s.t.tbA n = 0 →
      ∃ u, exec (.timerWrap n) s = .next u ∧ (u.tmr.ch[n]).wrapf = true ∧
        (∀ m : Fin 32, m ≠ n → (u.tmr.ch[m]).wrapf = (s.tmr.ch[m]).wrapf) ∧ u.mem = s.mem ∧ u.sys = s.sys ∧ u.sout = s.sout) ∧
    (∀ (i : Nat) (at_ : DWord) (q : List (Nat × Nat × DWord)) (h : i < 32), s.tmr.trigQ = (3, i, at_) :: q →
      come s at_ = true → at_ ≠ s.t.tbA → linked s.tmr ⟨i, h⟩ = false → (s.tmr.ch[i]).mode = 1 → (s.tmr.ch[i]).run = false →
      ∃ u, exec .timerTrigger s = .next u ∧ u.tmr.trigQ = q ∧ (u.tmr.ch[i]).run = true ∧ (u.tmr.ch[i]).base = s.t.tbA ∧
        u.mem = s.mem ∧ u.sys = s.sys ∧ u.sout = s.sout) ∧
    (c.mode ≠ 0 → linked s.tmr n = false → cntFalling c true = true →
      (∀ x ∈ c.sync, ¬ (x.1 = true ∧ come s x.2.1 = true ∧ 2 ≤ since s x.2.1)) →
      exec (.capture n true) s = .next (s.onTc n fun y => { y with sync := y.sync ++ [(true, s.t.tbA, none)] })) ∧
    (∀ (b : Bool) (at_ : DWord) (kept : Option DWord) (q : List (Bool × DWord × Option DWord)), c.mode ≠ 0 →
      c.sync = (b, at_, kept) :: q → come s at_ = true → 2 ≤ since s at_ → linked s.tmr n = false →
      let v : Word := BitVec.ofNat 32 (match kept with | some k => k.toNat | none => countAt s.tmr at_ n)
      ∃ u, exec (.capture n b) s = .next u ∧ u.mem = s.mem ∧ u.sys = s.sys ∧ u.sout = s.sout ∧
        (c.lock = false → b = false → (u.tmr.ch[n]).capr = v ∧ (u.tmr.ch[n]).caprf = true ∧
          (u.tmr.ch[n]).capf = c.capf) ∧
        (c.lock = false → b = true → (u.tmr.ch[n]).capf = v ∧ (u.tmr.ch[n]).capff = true ∧
          (u.tmr.ch[n]).capr = c.capr) ∧
        (c.lock = true → (u.tmr.ch[n]).capr = c.capr ∧ (u.tmr.ch[n]).capf = c.capf ∧
          (c.hold = none → (u.tmr.ch[n]).hold = some (b, v)) ∧
          (c.hold ≠ none → (u.tmr.ch[n]).lost = satInc c.lost ∧ (u.tmr.ch[n]).hold = c.hold))) ∧
    (n.val = 30 ∨ n.val = 31 → c.mode = 2 → c.run = true → w.2 = true → c.cmpAt ≠ some s.t.tbA →
      slotCome n s = true → 2000 < slotLate n s → s.live →
      ∀ row ∈ [Instr.timerSlip n, .timerCompare n], ∃ u, exec row s = .next u ∧ lockedOut 0x44 u ∧ u.mem = s.mem)

/-! ## Safe outputs -/

/-- The lockout of output `k` for a cause, after `s`: the cause stands on the output and on its parallel partner, a cause that is
new opens switch A and ends a switch test, and no other output's causes or demand, no memory, no run state and no
part of channel B changes. -/
def Sys2Proof.Machine.lockedFor (k : Fin 16) (c : OutCause) (s u : State) : Prop :=
  (∀ j ∈ both s.sout k, ∃ p, (c, p) ∈ (u.sout.o[j]).causes) ∧
  ((s.sout.o[k]).causes.all (fun x => x.1 != c) = true → (u.sout.o[k]).swa = false ∧ (u.sout.o[k]).test = false) ∧
  (∀ j : Fin 16, j ∉ both s.sout k → (u.sout.o[j]).causes = (s.sout.o[j]).causes) ∧
  (∀ j : Fin 16, (u.sout.o[j]).demand = (s.sout.o[j]).demand) ∧
  u.mem = s.mem ∧ u.sys = s.sys ∧ u.hld = s.hld ∧ u.sin = s.sin

/-- R218, R220, R230, R231, R233, R236: the faults of outputs lock out the output and its parallel partner under their conditions:
OUT_LOW, OVERLOAD, OVERTEMP, FEEDBACK; BANK_SUPPLY locks out every configured output of the bank, until its end clears the
condition.

The model's own choices that it rests on: log entries 3 and 132. -/
def Obligations.OutputFaults : Prop :=
  ∀ (k : Fin 16) (n : Fin 2) (b : Bool) (s : State),
    let o := s.sout.o[k]
    (∀ t, cmdEnergised s k = true → o.pulse = none → o.limit = false → o.rb = false → o.lowSince = some t → past s t 2000 = true →
      ∃ u, exec (.outLow k) s = .next u ∧ lockedFor k .outLow s u) ∧
    (∀ t, bit o.cfg 0 = true → o.limit = true → o.limitSince = some t → past s t (1000 * fld o.cfg 22 16) = true →
      ∃ u, exec (.overload k) s = .next u ∧ lockedFor k .overload s u) ∧
    (bit o.cfg 0 = true → ∃ u, exec (.overtemp k b) s = .next u ∧ lockedFor k .overtemp s u ∧ (u.sout.o[k]).hot = true ∧
      (u.sout.o[k]).rb = (if b ∧ fdigUp s = true then false else o.rb)) ∧
    (bit o.cfg 0 = true → bit o.fb 7 = true → fbLevel s o ≠ (cmdEnergised s k == bit o.fb 5) →
      s.sys.runState ≠ .dormant → o.energised = cmdEnergised s k → o.fbSettled = true ∨ past s o.enAt (1000 * fld o.fb 18 8) = true →
      ∃ u, exec (.feedback k) s = .next u ∧ lockedFor k .feedback s u) ∧
    (∃ u, exec (.bankSupply n) s = .next u ∧ u.sout.bankCond[n] = true ∧
      (∀ j : Fin 16, j.val / 8 = n.val → bit (s.sout.o[j]).cfg 0 = true → ∃ p, (OutCause.bankSupply, p) ∈ (u.sout.o[j]).causes) ∧
      (∀ j : Fin 16, j.val / 8 ≠ n.val → (u.sout.o[j]).causes = (s.sout.o[j]).causes) ∧ u.mem = s.mem ∧ u.sys = s.sys) ∧
    exec (.bankSupplyEnd n) s = .next (s.onSout fun x => { x with bankCond := x.bankCond.upd n fun _ => false })

/-- R219, R222 to R228, R373: off-pulses, readbacks and the switch test. A pulse ends with its verdict: a readback that fell passes
and trims the width, one that stayed high at less than the maximum width falters and is repeated at the maximum, and one that stayed
high at the maximum makes the output suspect. A readback high while a switch is open is a feed, or is watched while another
output is on; the watch ends in a feed only where the readback has stayed high since the watch began. No readback is presented while
PD-FDIG is off or being checked (R516). A switch test closes switch A alone, and a high readback ends it with SWITCH_TEST_FAIL.

The model's own choices that it rests on: log entries 3 and 148. -/
def Obligations.OutputPulses : Prop :=
  ∀ (k : Fin 16) (lvl : Bool) (s : State),
    let o := s.sout.o[k]
    (fdigUp s = true → ∃ u, exec (.readbackEdge k lvl) s = .next u ∧ (u.sout.o[k]).rb = lvl ∧ (u.sout.o[k]).raw = lvl ∧
      (∀ j : Fin 16, j ≠ k → (u.sout.o[j]).rb = (s.sout.o[j]).rb) ∧
      (o.test = true → lvl = true → (∃ p, (OutCause.switchTest, p) ∈ (u.sout.o[k]).causes) ∧ (u.sout.o[k]).test = false ∧
        bit u.diag.tested k.val = true ∧ bit u.diag.passed k.val = false) ∧
      u.mem = s.mem ∧ u.sys = s.sys ∧ u.hld = s.hld) ∧
    (fdigUp s = false → o.test = false → ∃ u, exec (.readbackEdge k lvl) s = .next u ∧ (u.sout.o[k]).rb = o.rb ∧
      (u.sout.o[k]).raw = lvl ∧ (∀ j : Fin 16, j ≠ k → (u.sout.o[j]).rb = (s.sout.o[j]).rb) ∧
      u.mem = s.mem ∧ u.sys = s.sys ∧ u.hld = s.hld) ∧
    (∀ p, o.pulse = some p → p.joint = none → parallelOf s.sout k = none → (∀ a : Fin 16, (s.sout.o[a]).watch = false) →
      p.void = false → past s p.start (p.width * 10) = true →
      ∃ u, exec (.offPulseEnd k) s = .next u ∧ (u.sout.o[k]).pulse = none ∧ u.mem = s.mem ∧ u.sys = s.sys ∧
        (o.rb = false → o.suspect = false → ∀ f, p.fell = some f →
          let t := ((f - p.start).toNat + 199) / 200
          (u.sout.o[k]).lastFall = BitVec.ofNat 9 (min t 511) ∧
          (t + 20 ≤ p.width * 10 → (u.sout.o[k]).falters = o.falters ∧ (u.sout.o[k]).again = none ∧
            (bit o.cfg 3 = true → (u.sout.o[k]).width =
              BitVec.ofNat 6 (min o.wmax (max (max 6 ((t + 9) / 10 + 4)) (o.curWidth - 1))))) ∧
          (p.width * 10 < t + 20 → (u.sout.o[k]).falters = satInc o.falters ∧ (u.sout.o[k]).again = some p.swB)) ∧
        (o.rb = true → p.width < o.wmax → (u.sout.o[k]).falters = satInc o.falters ∧
          (u.sout.o[k]).width = BitVec.ofNat 6 o.wmax ∧ (u.sout.o[k]).again = some p.swB ∧ (u.sout.o[k]).causes = o.causes) ∧
        (o.rb = true → o.wmax ≤ p.width → o.suspect = false → (u.sout.o[k]).suspect = true ∧ (u.sout.o[k]).causes = o.causes)) ∧
    (∀ t, bit o.cfg 0 = true → o.openSince = some t → past s t (10 * fld o.cfg2 26 16) = true → o.pulse = none → o.rb = true →
      o.watch = false →
      o.test = false → o.causes = [] →
      ∃ u, exec (.readbackDelayElapsed k) s = .next u ∧ u.mem = s.mem ∧ u.sys = s.sys ∧
        ((∃ b : Fin 16, b ≠ k ∧ cmdEnergised s b = true) → (u.sout.o[k]).watch = true ∧ (u.sout.o[k]).causes = []) ∧
        ((∀ b : Fin 16, b ≠ k → cmdEnergised s b = false) → ∃ p, (OutCause.externalFeed, p) ∈ (u.sout.o[k]).causes)) ∧
    (o.watch = true → come s o.watchAt = true → pulsePeriod s.sout ≤ since s o.watchAt → ∃ u, exec (.locateWatchEnd k) s = .next u ∧ (u.sout.o[k]).watch = false ∧ u.mem = s.mem ∧ u.sys = s.sys ∧
      (o.rb = true → (o.watchAt - o.rbAt).toNat < 2 ^ 63 → ∃ p, (OutCause.externalFeed, p) ∈ (u.sout.o[k]).causes) ∧
      (o.rb = false ∨ 2 ^ 63 ≤ (o.watchAt - o.rbAt).toNat → (u.sout.o[k]).causes = o.causes)) ∧
    (∀ i, o.isol = some i → past s i.at_ 1000 = true → ∃ u, exec (.feedIsolationStep k) s = .next u ∧ u.mem = s.mem ∧ u.sys = s.sys ∧
      (0 < i.reqs → (u.hld.req[k]) = s.hld.req[k] ++ [o.wmax]) ∧
      (i.reqs = 0 → (u.sout.o[k]).isol = none ∧ ∀ b, i.partner = some b → ∃ p, (OutCause.crossConnect, p) ∈ (u.sout.o[b]).causes)) ∧
    (ctrlServed s = true → s.live → (∀ j : Fin 16, (s.sout.o[j]).test = false) →
      (∀ j ∈ both s.sout k, testable s j = true) →
      ∃ u, exec (.switchTest k) s = .next u ∧ (u.sout.o[k]).test = true ∧ (u.sout.o[k]).swa = true ∧ u.hld = s.hld ∧
        u.diag.result = 1 ∧ u.mem = s.mem ∧ u.sys = s.sys ∧ (∀ j : Fin 16, j ≠ k → (u.sout.o[j]).test = false)) ∧
    (o.test = true → past s o.testAt 5000 = true → ∃ u, exec (.switchTestEnd k) s = .next u ∧ (u.sout.o[k]).test = false ∧
      bit u.diag.tested k.val = true ∧ bit u.diag.passed k.val = true ∧ u.mem = s.mem ∧ u.sys = s.sys ∧ u.hld = s.hld)

/-! ## Safe inputs -/

/-- Nothing but input `n`, its presented level and the connections differs: no other input, source, slot or counter, no memory, no
run state, no output and no part of channel B. -/
def Sys2Proof.Machine.onlyInput (n : Fin 32) (s u : State) : Prop :=
  (∀ m : Fin 32, m ≠ n → u.sin.i[m] = s.sin.i[m]) ∧ u.sin.tp = s.sin.tp ∧ u.sin.slot = s.sin.slot ∧ u.sin.cnt = s.sin.cnt ∧
  u.mem = s.mem ∧ u.sys = s.sys ∧ u.sout = s.sout ∧ u.hld = s.hld

/-- R183, R184, R187 to R189, R209: sampling. A CONTINUOUS input presents an edge at its terminal at once with its time, a PULSED one at
a sample point within its settle delay, an input in OFF mode never; a presented level that has held for the filter is counted; a
counting input counts each rising edge with its time; while the field digital domain does not run nothing is sampled, and only the
terminal's own level follows (R516).

The model's own choices that it rests on: log entries 3 and 80. -/
def Obligations.InputSampling : Prop :=
  ∀ (n : Fin 32) (c : Fin 4) (lvl : Bool) (t : Nat) (s : State),
    let i := s.sin.i[n]
    (fdigRuns s = true →
      (i.mode = 2 → i.forced = false → i.masked = false → inMask s.sin n = false →
        ∃ u, exec (.inputEdge n lvl) s = .next u ∧ onlyInput n s u ∧ u.sin.pair = s.sin.pair ∧
          (u.sin.i[n]).raw = lvl ∧ (u.sin.i[n]).present = lvl ∧ (u.sin.i[n]).level = i.level ∧
          (u.sin.i[n]).edges = (if i.present = lvl then i.edges else consEdge s.t.tbA i.edges)) ∧
      (∀ x, i.mode = 1 → i.forced = false → i.masked = false → t ≤ fld i.cfg 13 8 → i.testAt = none → i.sampleAt = some x →
        come s x = true →
        ∃ u, exec (.samplePoint n lvl t) s = .next u ∧ onlyInput n s u ∧ u.sin.pair = s.sin.pair ∧ (u.sin.i[n]).sampleAt = none ∧
          (inMask s.sin n = false →
            (u.sin.i[n]).present = (if t ≤ i.settleDelay.toNat then lvl else i.present) ∧
            (u.sin.i[n]).settleMeas = BitVec.ofNat 6 (min t 63)) ∧
          (inMask s.sin n = true → (u.sin.i[n]).present = i.present ∧ (u.sin.i[n]).settleMeas = i.settleMeas)) ∧
      (i.mode = 2 → (∀ g, i.gapAt = some g → past s g 100000 = true) →
        (t ≤ fld i.cfg 13 8 → ∃ u, exec (.settleGap n t) s = .next u ∧ onlyInput n s u ∧ u.sin.pair = s.sin.pair ∧
          (u.sin.i[n]).settleMeas = BitVec.ofNat 6 (min t 63) ∧ (u.sin.i[n]).overN = 0 ∧ (u.sin.i[n]).present = i.present) ∧
        (fld i.cfg 13 8 < t → i.overN = 2 → i.settleFault = false → (s.sin.pair[pairOf n]).conn ≠ 0 →
          ∃ u, exec (.settleGap n t) s = .next u ∧ (u.sin.i[n]).settleFault = true ∧ (u.sin.i[n]).forced = true ∧
            (u.sin.i[n]).present = safeLevel s.sin n ∧ (connOf u.sin n).locked = true ∧ u.mem = s.mem ∧ u.sys = s.sys)) ∧
      exec (.cntEdge c) s = .next (captureEdge (1 + c.val) false (s.onSin fun x =>
        { x with cnt := x.cnt.upd c fun y => { count := y.count + 1, edge := s.t.tbA.extractLsb' 0 32 } }))) ∧
    (fdigRuns s = false ∨ i.mode ≠ 2 → exec (.inputEdge n lvl) s = .next (s.onI n fun i => { i with raw := lvl })) ∧
    (fdigRuns s = false →
      exec (.samplePoint n lvl t) s = .next s ∧ exec (.settleGap n t) s = .next s ∧
      exec (.cntEdge c) s = .next s) ∧
    (inMask s.sin n = true ∨ i.masked = true → exec (.filterElapsed .a n) s = .next s) ∧
    (i.mode ≠ 0 → i.running = true → inMask s.sin n = false → i.masked = false → past s i.countFrom (10 * fld i.cfg 27 16) = true →
      countsFirst s n = none →
      ∃ u, exec (.filterElapsed .a n) s = .next u ∧ onlyInput n s u ∧
        (u.sin.i[n]).level = i.present ∧ (u.sin.i[n]).running = false) ∧
    (s.hld.loadMode = false → s.sys.runState ≠ .dormant →
      ∃ u, exec (.filterElapsed .b n) s = .next u ∧ u.sin = s.sin ∧ u.mem = s.mem ∧ u.sys = s.sys ∧ u.sout = s.sout ∧
        ∀ e : Fin 64, (s.hld.ev[e]).inA ≠ n.val → (s.hld.ev[e]).inB ≠ n.val → u.hld.ev[e] = s.hld.ev[e])

/-- R193, R195 to R198, R206: connections. A discrepancy that lasts past T locks the connection; the guard delay ends with the delayed
enable; a band wait ends in a band lockout unless the mirror cell has reported; and the clear decision clears a lockout only
where channel B's cell holds none and, for an ordinary lockout, both inputs are safe.

R151, R205: a release input that stays active to 300 000 B cycles is stuck until it has been inactive for 50 000.

The model's own choices that it rests on: log entries 3 and 20. -/
def Obligations.Connections : Prop :=
  (∀ (k : Fin 16) (s : State),
     let p := s.sin.pair[k]
     let c := p.lo
     let frame := fun (u : State) => (∀ j : Fin 16, j ≠ k → u.sin.pair[j] = s.sin.pair[j]) ∧ u.mem = s.mem ∧ u.sys = s.sys ∧
       u.sout = s.sout ∧ u.hld = s.hld ∧ u.sin.tp = s.sin.tp
     let o := s.sin.i[if c.firstB then evenIn k else oddIn k]
     (p.two = true → (c.st = .waitOn ∨ c.st = .waitOff) → c.locked = false →
       come s c.e1 = true → p.disc < since s c.e1 →
       ¬ (o.running = true ∧ (c.e1 + BitVec.ofNat 64 p.disc - o.edge).toNat < 2 ^ 63) →
       ∃ u, exec (.discrepancyTimeout k) s = .next u ∧ (u.sin.pair[k]).lo.st = .locked ∧ (u.sin.pair[k]).lo.disc = true ∧
         (u.sin.pair[k]).lo.enable = false ∧ (u.sin.pair[k]).lo.unclassed = true ∧ u.sin.i = s.sin.i ∧ frame u) ∧
     (past s c.guardAt 100 = true → ∃ u, exec (.guardDelayEnd k) s = .next u ∧ (u.sin.pair[k]).lo = { c with guardPend := false, guardRun := false } ∧ u.sin.i = s.sin.i ∧ frame u) ∧
     (c.bandWait = true → past s c.bandAt 100 = true → ∃ u, exec (.bandWaitEnd k) s = .next u ∧ (u.sin.pair[k]).lo.bandWait = false ∧
       (u.sin.pair[k]).lo.band = !c.reported ∧ u.sin.i = s.sin.i ∧ frame u) ∧
     (p.two = true → c.locked = true → c.clearRel = true → past s c.relAt 50 = true →
       let lock := (s.hld.ev[mirrorOf s.sin (evenIn k)]).lock
       (lock = true → ∃ u, exec (.clearDecision k) s = .next u ∧ (u.sin.pair[k]).lo.locked = true ∧
         (u.sin.pair[k]).lo.band = false ∧ (u.sin.pair[k]).lo.clearRel = false ∧ u.sin.i = s.sin.i ∧ frame u) ∧
       (lock = false → c.band = false →
         (∀ n ∈ [evenIn k, oddIn k], enSide s.sin n (counted s.sin n) = false ∧ (s.sin.i[n]).settleFault = false ∧
           (s.sin.tp.getN (s.sin.i[n]).source {}).cond = false) →
         ∃ u, exec (.clearDecision k) s = .next u ∧ (u.sin.pair[k]).lo.locked = false ∧ (u.sin.pair[k]).lo.st = .safe ∧
           (∀ n ∈ [evenIn k, oddIn k], (u.sin.i[n]).forced = false) ∧ frame u) ∧
       (lock = false → c.band = false → enSide s.sin (evenIn k) (counted s.sin (evenIn k)) = true →
         ∃ u, exec (.clearDecision k) s = .next u ∧ (u.sin.pair[k]).lo.locked = true ∧ frame u))) ∧
  (∀ (r : Fin 8) (s : State),
     ((s.sin.slot[r]).cell.st = .active → 300000 ≤ (s.sin.slot[r]).cell.n → ∃ u, exec (.releaseStuck .a r) s = .next u ∧ (u.sin.slot[r]).cell.st = .stuck ∧
       (∀ q : Fin 8, q ≠ r → u.sin.slot[q] = s.sin.slot[q]) ∧ u.sin.i = s.sin.i ∧ u.mem = s.mem ∧ u.sys = s.sys ∧ u.hld = s.hld) ∧
     ((s.hld.rel[r]).st = .active → 300000 ≤ (s.hld.rel[r]).n → ∃ u, exec (.releaseStuck .b r) s = .next u ∧ (u.hld.rel[r]).st = .stuck ∧
       (∀ q : Fin 8, q ≠ r → u.hld.rel[q] = s.hld.rel[q]) ∧ u.sin = s.sin ∧ u.mem = s.mem ∧ u.sys = s.sys) ∧
     ((s.sin.slot[r]).cell.st = .recover → 50000 ≤ (s.sin.slot[r]).cell.m → ∃ u, exec (.recoverEnd .a r) s = .next u ∧ (u.sin.slot[r]).cell.st = .idle ∧
       (∀ q : Fin 8, q ≠ r → u.sin.slot[q] = s.sin.slot[q]) ∧ u = { s with sin := { s.sin with slot := u.sin.slot } }) ∧
     ((s.hld.rel[r]).st = .recover → 50000 ≤ (s.hld.rel[r]).m → ∃ u, exec (.recoverEnd .b r) s = .next u ∧ (u.hld.rel[r]).st = .idle ∧
       (∀ q : Fin 8, q ≠ r → u.hld.rel[q] = s.hld.rel[q]) ∧ u = { s with hld := { s.hld with rel := u.hld.rel } }))

/-- R199 to R202, R476, R516: test pulses. The source drives high again at the end of its pulse, but not in LOCKOUT or HALT; a falling readback starts the test mask, and a
rising one judges each own input that was high for the whole 50 µs before: one that did not fall has failed one pulse, and at
the second in a row takes TEST_PULSE and locks its connection; a readback that does not follow its command is TP_SOURCE, which
forces every input on the source.

The model's own choices that it rests on: log entry 3. -/
def Obligations.TestPulses : Prop :=
  ∀ (j : Fin 8) (s : State),
    let x := s.sin.tp[j]
    let frame := fun (u : State) => (∀ q : Fin 8, q ≠ j → u.sin.tp[q] = s.sin.tp[q]) ∧ u.sin.slot = s.sin.slot ∧
      u.sin.cnt = s.sin.cnt ∧ u.mem = s.mem ∧ u.sys = s.sys ∧ u.sout = s.sout ∧ u.hld = s.hld
    (bit s.sin.tpCfg (24 + j.val) = true → x.drive = false → stopped s = false → past s x.pulseAt (10 * fld s.sin.tpCfg 22 16) = true →
      ∃ u, exec (.testPulseEnd j) s = .next u ∧ (u.sin.tp[j]).drive = true ∧ u.sin.i = s.sin.i ∧ u.sin.pair = s.sin.pair ∧ frame u) ∧
    (x.rb = true → past s x.rbAt 50 = true → ∃ u, exec (.testMaskEnd j) s = .next u ∧ (u.sin.tp[j]).mask = false ∧ u.sin.pair = s.sin.pair ∧ frame u ∧
      ∀ n : Fin 32, (u.sin.i[n]).present = (s.sin.i[n]).present ∧ (u.sin.i[n]).level = (s.sin.i[n]).level) ∧
    (fdigUp s = false → ∀ lvl, exec (.tpReadbackEdge j lvl) s = .next (s.onTp j fun x => { x with raw := lvl })) ∧
    (x.rb = true → fdigUp s = true → ∃ u, exec (.tpReadbackEdge j false) s = .next u ∧ (u.sin.tp[j]).rb = false ∧ (u.sin.tp[j]).mask = true ∧
      u.sin.i = s.sin.i ∧ u.sin.pair = s.sin.pair ∧ frame u) ∧
    (x.rb = false → fdigUp s = true → ∃ u, exec (.tpReadbackEdge j true) s = .next u ∧ (u.sin.tp[j]).rb = true ∧ frame u ∧
      ∀ n : Fin 32,
        let i := s.sin.i[n]
        (i.mode ≠ 0 → i.source = j.val → bit x.whole n.val = true →
          (i.present = false → (u.sin.i[n]).tpFail = false ∧ (u.sin.i[n]).testPulse = i.testPulse) ∧
          (i.present = true → i.tpFail = false → (u.sin.i[n]).tpFail = true ∧ (u.sin.i[n]).testPulse = i.testPulse) ∧
          (i.present = true → i.tpFail = true → (u.sin.i[n]).testPulse = true ∧ (connOf u.sin n).tp = true)) ∧
        (i.source ≠ j.val → u.sin.i[n] = i)) ∧
    (∀ t, x.diffAt = some t → come s t = true → 6000 < since s t → x.cond = false → ∃ u, exec (.tpSource j) s = .next u ∧ (u.sin.tp[j]).cond = true ∧ frame u ∧
      ∀ n : Fin 32, (s.sin.i[n]).mode ≠ 0 → (s.sin.i[n]).source = j.val → (s.sin.pair[pairOf n]).conn ≠ 0 →
        (u.sin.i[n]).forced = true ∧ (connOf u.sin n).locked = true)

/-! ## Current-loop channels -/

/-- No other channel, memory, run state, input, output or part of channel B differs. -/
def Sys2Proof.Machine.onlyLoop (n : Fin 8) (s u : State) : Prop :=
  (∀ m : Fin 8, m ≠ n → u.alp.ch[m] = s.alp.ch[m]) ∧ u.mem = s.mem ∧ u.sys = s.sys ∧ u.sin = s.sin ∧ u.sout = s.sout ∧
  u.hld = s.hld ∧ u.csl = s.csl ∧ u.csc = s.csc ∧ u.otp = s.otp

/-- R264 to R270, R273, R277, R283: a conversion gives the code of the current and counts the sequence; a channel without one for its
time is stale; a gauge point outside 12.000 mA ± 0.2 % of span is drift; an owner's setpoint write is taken and restarts its
timeout; the loop faults set their conditions and, on a SAFETY channel, its lockout cause; their ends clear them.

The model's own choices that it rests on: log entries 3 and 6. -/
def Obligations.LoopChannels : Prop :=
  ∀ (n : Fin 8) (nA : Nat) (src : Src) (v : Half) (room : Byte) (s : State),
    let c := s.alp.ch[n]
    let only := fun (y : AlpCh) => s.onAlp fun x => { x with ch := x.ch.upd n fun _ => y }
    (c.mode ≠ 0 → alpClock s = true → c.gaugeRun = false → (bit c.cfg 3 = true ∨ c.conv = true) → c.gain = 0 →
      ∃ u, exec (.alpConversion n nA) s = .next u ∧ onlyLoop n s u ∧ (u.alp.ch[n]).code = codeOf nA ∧
        (u.alp.ch[n]).seq = c.seq + 1 ∧ (u.alp.ch[n]).stale = false ∧ (u.alp.ch[n]).conv = false) ∧
    (c.mode ≠ 0 → (bit c.cfg 3 = true → past s c.convAt (if bit c.cfg 2 then 15000 else 750) = true) →
      exec (.alpStale n) s = .next (only { c with stale := true })) ∧
    (c.mode ≠ 0 → alpClock s = true →
      (11976000 ≤ nA → nA ≤ 12024000 → ∃ u, exec (.gaugePoint n nA) s = .next u ∧ onlyLoop n s u ∧
        (u.alp.ch[n]).drift = (if 9 ≤ c.driftOk then false else c.drift) ∧ (u.alp.ch[n]).conv = false ∧
        (u.alp.ch[n]).causes = c.causes) ∧
      (nA < 11976000 ∨ 12024000 < nA → ∃ u, exec (.gaugePoint n nA) s = .next u ∧ onlyLoop n s u ∧
        (u.alp.ch[n]).drift = true ∧ (bit c.cfg 4 = true → c.drift = false → .gaugeDrift ∈ (u.alp.ch[n]).causes))) ∧
    (∃ u, exec (.comparatorChange n nA) s = .next u ∧ onlyLoop n s u ∧
      ∀ k : Fin 2, bit (u.alp.ch[n]).cmp k.val = comparatorStep c k nA) ∧
    (c.mode = 3 → ((src = .host ∧ ctrlServed s = true ∧ fld c.cfg 15 12 = 8) ∨
        (∃ e : Fin 24, src = .engine e ∧ fld c.cfg 15 12 < 8 ∧ e.val = 4 + fld c.cfg 15 12)) →
      ∃ u, exec (.setpointWrite src n v) s = .next u ∧ onlyLoop n s u ∧ (u.alp.ch[n]) = { c with set := v, timedOut := false, setAt := s.t.tbA }) ∧
    (src = .eth ∨ src = .can → exec (.setpointWrite src n v) s = .next s) ∧
    (c.mode = 3 → past s c.setAt 100000 = true → exec (.setpointTimeout n) s = .next (only { c with timedOut := true })) ∧
    (c.mode = 3 → fanOn s = true → ∃ u, exec (.complianceLow n room) s = .next u ∧ onlyLoop n s u ∧
      (u.alp.ch[n]).compliance = (c.compliance || decide (room.toNat < 20)) ∧ (u.alp.ch[n]).headroom = room ∧
      (room.toNat < 20 → c.compliance = false → bit c.cfg 4 = true → .complianceLow ∈ (u.alp.ch[n]).causes)) ∧
    (c.mode = 3 → exec (.complianceEnd n room) s = .next (only { c with compliance := c.compliance && decide (room.toNat < 25), headroom := room })) ∧
    (c.mode = 3 → fanOn s = true → (codeOf 1000000).toNat ≤ (setInForce s n).toNat →
      ∃ u, exec (.openLoop n) s = .next u ∧ onlyLoop n s u ∧ (u.alp.ch[n]).openLoop = true ∧
        (c.openLoop = false → bit c.cfg 4 = true → .openLoop ∈ (u.alp.ch[n]).causes)) ∧
    exec (.openLoopEnd n) s = .next (only { c with openLoop := false }) ∧
    (c.mode = 1 → fanOn s = true → ∃ u, exec (.loopShort n) s = .next u ∧ onlyLoop n s u ∧ (u.alp.ch[n]).short = true ∧
      (c.short = false → (u.alp.ch[n]).supplyOff = true ∧ (u.alp.ch[n]).supplyAt = s.t.tbA) ∧ (c.short = false → bit c.cfg 4 = true → .loopShort ∈ (u.alp.ch[n]).causes)) ∧
    (c.short = true → past s c.supplyAt (if c.supplyOff then 1000000 else 50000) = true → exec (.loopShortCycle n nA) s = .next (only
      (if c.supplyOff then { c with supplyOff := false, supplyAt := s.t.tbA } else if nA < 25000000 then { c with short := false }
        else { c with supplyOff := true, supplyAt := s.t.tbA }))) ∧
    (∃ u, exec .vanLow s = .next u ∧ u.mem = s.mem ∧ u.sys = s.sys ∧ u.sout = s.sout ∧
      ∀ m : Fin 8, (u.alp.ch[m]).vanLow = ((s.alp.ch[m]).vanLow || (s.alp.ch[m]).mode != 0)) ∧
    (∃ u, exec .vanLowEnd s = .next u ∧ u = { s with alp := u.alp } ∧ ∀ m : Fin 8, u.alp.ch[m] = { s.alp.ch[m] with vanLow := false })

/-- R276, R278, R279, R372, R461: the gauge test runs only while every affected output and port is off in both channels, and else is
refused with RESULT 2, as it is while PD-FAN or its clock is off; trims run only in SERVICE, and are refused with RESULT 3 elsewhere; an averaged point outside the range
of its trim gives RESULT 4 and stores nothing. A gauge test passes where both points lie within 24 µA and every used
comparator switches within 0.1 mA of its levels, and every channel in use is tested again when PD-FAN returns. Both buttons of one
evaluation are refused, with the armed trim kept (R487).

The model's own choices that it rests on: log entries 3, 6, 135 and 147. -/
def Obligations.GaugeAndTrims : Prop :=
  ∀ (n : Fin 8) (v : Half) (b : Bool) (m : GaugeMeas) (s : State),
    let c := s.alp.ch[n]
    let res := fun (t : State) (r : BitVec 4) => t.onAlp fun x => { x with result := r }
    (ctrlServed s = true →
      (c.mode ≠ 0 → c.gaugeRun = false →
        (affectedSafe s n = true → alpClock s = true → ∃ u, exec (.gaugeTest n) s = .next u ∧ onlyLoop n s u ∧
          (u.alp.ch[n]).gaugeRun = true ∧ u.alp.result = 1) ∧
        (affectedSafe s n = false ∨ alpClock s = false → ∃ u, exec (.gaugeTest n) s = .next u ∧ u.alp.ch = s.alp.ch ∧ u.alp.result = 2 ∧ onlyLoop n s u)) ∧
      (s.sys.runState ≠ .service →
        exec (.trimArm n) s = .next (res s 3) ∧ exec (.trimClear n) s = .next (res s 3) ∧
        exec (.trimOutZero n v) s = .next (res s 3) ∧ exec (.trimOutSpan n v) s = .next (res s 3)) ∧
      (s.sys.runState = .service → s.alp.avg = none →
        (c.mode ≠ 0 → exec (.trimArm n) s = .next (s.onAlp fun x => { x with armed := some n, drive := false, result := 0 })) ∧
        (s.alp.armed = some n → (c.mode = 1 ∨ c.mode = 2) →
          let go := fun (span : Bool) => s.onAlp fun x => { x with avg := some span, avgAt := s.t.tbA, sum := (0, 0), result := 1 }
          let push := fun (span : Bool) => (go span).onAlp fun x => { x with pressed := some (span, s.t.tbA, s.alp.result) }
          exec (.trimZero n) s = .next (go false) ∧ exec (.trimSpan n) s = .next (go true) ∧
          ((∀ x, s.alp.pressed = some x → x.2.1 ≠ s.t.tbA) →
            exec .zeroActivation s = .next (push false) ∧ exec .spanActivation s = .next (push true))) ∧
        (∃ u, exec (.trimClear n) s = .next u ∧ onlyLoop n s u ∧ (u.alp.ch[n]) = { c with zero := 0, gain := 0 } ∧ u.alp.result = 0 ∧
          (flashRuns s = true → u.upd.trims[n] = 0)) ∧
        (s.alp.armed = some n → c.mode = 3 →
          (3800 ≤ v.toNat → v.toNat ≤ 4200 → ∃ u, exec (.trimOutZero n v) s = .next u ∧ onlyLoop n s u ∧ u.alp.result = 0 ∧
            (flashRuns s = true → u.upd.trims[n] = (u.alp.ch[n]).gain ++ (u.alp.ch[n]).zero)) ∧
          (v.toNat < 3800 ∨ 4200 < v.toNat → exec (.trimOutZero n v) s = .next (res s 4)) ∧
          (19600 ≤ v.toNat → v.toNat ≤ 20400 → ∃ u, exec (.trimOutSpan n v) s = .next u ∧ onlyLoop n s u ∧ u.alp.result = 0 ∧
            (flashRuns s = true → u.upd.trims[n] = (u.alp.ch[n]).gain ++ (u.alp.ch[n]).zero)) ∧
          (v.toNat < 19600 ∨ 20400 < v.toNat → exec (.trimOutSpan n v) s = .next (res s 4))))) ∧
    (∀ r, s.sys.runState = .service → s.alp.pressed = some (false, s.t.tbA, r) → s.alp.avg = some false → s.alp.avgAt = s.t.tbA →
      ∃ u, exec .spanActivation s = .next u ∧ onlyLoop n s u ∧ u.alp.ch = s.alp.ch ∧ u.alp.avg = none ∧ u.alp.result = r ∧
        u.alp.armed = s.alp.armed) ∧
    (s.sys.runState ≠ .service → ∀ span : Bool, ∃ u, exec (if span then .spanActivation else .zeroActivation) s = .next u ∧
      onlyLoop n s u ∧ u.alp.ch = s.alp.ch ∧ u.alp.avg = s.alp.avg ∧ u.alp.armed = s.alp.armed ∧ u.alp.result = s.alp.result) ∧
    (s.alp.armed = some n → s.alp.avg = some b → past s s.alp.avgAt 1000000 = true →
      let p := s.alp.sum.1 / s.alp.sum.2 * 24000000 / 65536
      let inRange := s.alp.sum.2 ≠ 0 ∧ if b then 19600000 ≤ p ∧ p ≤ 20400000 else 3800000 ≤ p ∧ p ≤ 4200000
      (inRange → ∃ u, exec .trimAverageEnd s = .next u ∧ onlyLoop n s u ∧ u.alp.result = 0 ∧ u.alp.avg = none ∧
        (flashRuns s = true → u.upd.trims[n] = (u.alp.ch[n]).gain ++ (u.alp.ch[n]).zero)) ∧
      (¬ inRange → exec .trimAverageEnd s = .next (s.onAlp fun x => { x with avg := none, sum := (0, 0), result := 4 }))) ∧
    (c.gaugeRun = true → alpClock s = true → past s c.gaugeAt 20000 = true →
      let near := fun (d : Option Int) => ∃ x, d = some x ∧ x.natAbs ≤ 100000
      let good := m.d4.natAbs ≤ 24000 ∧ m.d20.natAbs ≤ 24000 ∧
        (bit c.win[0] 31 = true → near m.lo.1 ∧ near m.hi.1) ∧ (bit c.win[1] 31 = true → near m.lo.2 ∧ near m.hi.2)
      ∃ u, exec (.gaugeTestEnd n m) s = .next u ∧ onlyLoop n s u ∧ (u.alp.ch[n]).gaugeRun = false ∧
        (good → (u.alp.ch[n]).gaugeOk = true ∧ (u.alp.ch[n]).passed = true ∧ (u.alp.ch[n]).causes = c.causes) ∧
        (¬ good → (u.alp.ch[n]).gaugeOk = false ∧ (u.alp.ch[n]).passed = c.passed ∧
          (bit c.cfg 4 = true → .gaugeFail ∈ (u.alp.ch[n]).causes))) ∧
    (fanMay s = true → fanOn s = false → ∃ u, exec .pdFanReturn s = .next u ∧ bit u.pwr.domains 8 = true ∧ u.mem = s.mem ∧
      u.sys = s.sys ∧ u.sin = s.sin ∧ ∀ m : Fin 8, (u.alp.ch[m]).gaugeRun = ((s.alp.ch[m]).gaugeRun || (s.alp.ch[m]).mode != 0) ∧
        (u.alp.ch[m]).passed = ((s.alp.ch[m]).passed && (s.alp.ch[m]).mode == 0))

/-- R280, R281, R284, R285: modems. A received character enters the FIFO of 16 with its error flags, and is dropped while the carrier
transmits or the FIFO is full; reads take the oldest character; transmit characters beyond 16 are lost with TX_OVF.

The model's own choices that it rests on: log entry 70. -/
def Obligations.Modems : Prop :=
  ∀ (n : Fin 8) (ch : Byte) (p f b : Bool) (s : State),
    let c := s.alp.ch[n]
    let only := fun (y : AlpCh) => s.onAlp fun x => { x with ch := x.ch.upd n fun _ => y }
    (bit c.cfg 5 = true → c.mode ≠ 0 → alpClock s = true →
      (c.txOn = false → c.rx.length < 16 → ∃ u, exec (.modemRxChar n ch p f) s = .next u ∧ onlyLoop n s u ∧
        (u.alp.ch[n]) = { c with
          rx := c.rx ++ [BitVec.ofBool f ++ BitVec.ofBool p ++ ch]
          errors := if p || f then satInc c.errors else c.errors }) ∧
      (c.txOn = true ∨ 16 ≤ c.rx.length → exec (.modemRxChar n ch p f) s = .next (only { c with dropped := satInc c.dropped }))) ∧
    (bit c.cfg 5 = true →
      exec (.modemTxChar n ch) s = .next (only (if c.tx.length < 16 then { c with tx := c.tx ++ [ch], txAt := if c.tx = [] then s.t.tbA else c.txAt } else { c with txOvf := true })) ∧
      (alpClock s = true → c.tx ≠ [] → c.tx.length ≤ charsSent s c → ∃ u, exec (.modemTxEmpty n) s = .next u ∧ onlyLoop n s u ∧ (u.alp.ch[n]) = { c with tx := [] }) ∧
      (alpClock s = true → c.cd ≠ b → ∃ u, exec (.modemCarrierDetect n b) s = .next u ∧ onlyLoop n s u ∧ (u.alp.ch[n]) = { c with cd := b })) ∧
    (∀ x q, c.rx = x :: q → ∃ u, exec (.modemRxRead n) s = .next u ∧ onlyLoop n s u ∧ (u.alp.ch[n]) = { c with rx := q } ∧
      u.link.rdata = [BitVec.ofNat 32 (x.toNat % 256 + 256 + (if bit x 8 then 512 else 0) + (if bit x 9 then 1024 else 0))]) ∧
    exec (.modemCarrier n b) s = .next (only { c with txOn := b, txAt := if b = true ∧ c.txOn = false then s.t.tbA else c.txAt }) ∧
    exec (.modemFlushRx n) s = .next (only { c with rx := [] }) ∧
    (∃ u, exec (.modemFlushTx n) s = .next u ∧ onlyLoop n s u ∧ (u.alp.ch[n]) = { c with tx := [] })

/-! ## Channel B -/

/-- The cells of one B cycle, by the rules of one cell: a filtered window level, the edge rule of a release cell, the functions of
a logic cell, D, the off-pulse verdict and the release of an output cell, and the connections of an event cell. -/
def Sys2Proof.Machine.cellRules (h : HldS) (cyc : Nat) : Prop :=
  (∀ (c : WinCell) (x : Bool), c.valid = true → c.f.primed = true →
    let y := x != bit c.w1 31
    let f := if y then fld c.w1 11 0 else fld c.w1 27 16
    let u := c.tick cyc x
    u.w1 = c.w1 ∧ u.valid = true ∧ u.f.primed = true ∧
    (y = c.f.lvl → u.f.lvl = y ∧ u.f.n = 0) ∧
    (y ≠ c.f.lvl → c.f.n < f → u.f.lvl = c.f.lvl ∧ u.f.n = c.f.n + 1) ∧
    (y ≠ c.f.lvl → f ≤ c.f.n → u.f.lvl = y)) ∧
  (∀ (c : RelCell) (x : Bool), c.valid = true → c.f.primed = true →
    let f := c.f.tick c.filter.toNat cyc (x == c.high)
    let u := (c.tick cyc x).1
    u.event = (c.st == .active && !f.lvl && decide (5000 ≤ c.n)) ∧
    (c.st = .idle → u.st = if f.lvl then .active else .idle) ∧
    (c.st = .active → f.lvl = false → u.st = .idle) ∧
    (c.st = .active → f.lvl = true → (c.n < 300000 → u.st = .active ∧ u.n = c.n + 1) ∧ (300000 ≤ c.n → u.st = .stuck)) ∧
    (c.st = .stuck → u.st = if f.lvl then .stuck else .recover) ∧
    (c.st = .recover → f.lvl = true → u.st = .stuck) ∧
    (c.st = .recover → f.lvl = false → (c.m < 50000 → u.st = .recover ∧ u.m = c.m + 1) ∧ (50000 ≤ c.m → u.st = .idle))) ∧
  (∀ c : LogCell, c.valid = true →
    let n := fld c.w1 6 4
    let t := fld c.w4 23 0
    let x := c.input h 0
    let u := c.tick h
    (fld c.w1 3 0 = 0 → (u.out = true ↔ ∀ i, i < n → c.input h i = true)) ∧
    (fld c.w1 3 0 = 1 → (u.out = true ↔ ∃ i, i < n ∧ c.input h i = true)) ∧
    (fld c.w1 3 0 = 2 → u.out = !x) ∧
    (fld c.w1 3 0 = 3 → (x = true → u.c = min (c.c + 1) t ∧ u.out = decide (t ≤ c.c + 1)) ∧ (x = false → u.c = 0 ∧ u.out = false)) ∧
    (fld c.w1 3 0 = 4 → (x = false → u.c = min (c.c + 1) t ∧ u.out = decide (c.c + 1 < t)) ∧ (x = true → u.c = 0 ∧ u.out = true)) ∧
    (fld c.w1 3 0 = 5 → u.out = (x && !c.prev) ∧ u.prev = x) ∧
    (fld c.w1 3 0 = 6 → u.out = (!x && c.prev) ∧ u.prev = x) ∧
    (fld c.w1 3 0 = 7 → u.out = (x && (c.out || relEvent h (fld c.w4 2 0))))) ∧
  (∀ (c : OutCell) (k : Fin 16), c.valid = true →
    let u := c.tick h k
    let rb := bit h.rb k.val
    u.1.d = signal h (fld c.w1 8 0) ∧ u.1.w1 = c.w1 ∧ u.1.valid = true ∧
    (c.p = 1 → rb = true → c.failOnce = true → u.1.l = true ∧ 0x22 ∈ u.2.2) ∧
    (c.p = 1 → u.1.failOnce = (rb && !c.failOnce)) ∧
    (c.p ≠ 1 → 0x22 ∉ u.2.2 ∧ u.1.failOnce = c.failOnce) ∧
    (c.l = true → rb = false → u.1.l = !relEvent h (fld c.w1 14 12)) ∧
    (c.l = false → rb = false → u.1.l = false ∧ u.2.2 = [])) ∧
  (∀ c : EvCell, c.valid = true → c.started = true → c.lock = false → 8 ≤ c.srcA → 8 ≤ c.srcB →
    bit h.held c.inA = false → bit h.held c.inB = false →
    let a := c.a.tick c.filter cyc (bit h.lvls c.inA)
    let b := c.b.tick c.filter cyc (bit h.lvls c.inB)
    let d := bTicks h (b.edge - c.e1 + (c.e1 - b.edge))
    let u := c.tick h cyc
    (c.conn = 0 → u.1.enable = a.lvl ∧ u.1.lock = false ∧ u.2 = false) ∧
    (c.conn ≠ 0 → c.firstB = false → a.lvl = c.a.lvl → b.lvl ≠ c.b.lvl →
      (c.st = .waitOn → c.en false a.lvl = true → c.en true b.lvl = true →
        (d ≤ c.discMs * 200000 → u.1.enable = true ∧ u.2 = false) ∧
        (c.discMs * 200000 < d → u.1.lock = true ∧ u.1.enable = false ∧ u.2 = true)) ∧
      (c.st = .enabled → c.en true b.lvl = false → u.1.enable = false ∧ u.1.e1 = b.edge ∧ u.1.firstB = true)))

/-- R146, R149 to R160, R162: a B cycle counts, and timebase A takes its ticks. After a cycle in RUN the hold H is set unless fault line A carried
RUN in this and the previous cycle, the pattern is good and no fault is latched; switch B of an output is closed only by a valid
cell with D set, no lockout, no off-pulse and no hold, and a port transmits only with a valid gate cell set and no hold. Every cell takes
its next value from what clock 0 latched and from the cells of lower rank (R146). In DORMANT nothing of channel B moves.

The model's own choices that it rests on: log entries 2, 3 and 17. -/
def Obligations.BCycle : Prop :=
  ∀ (b : BInputs) (s : State),
    (s.pwr.good = true → s.pwr.hldBad = false → s.hld.loadMode = false → s.sys.runState = .run → s.sys.stage = .none →
      s.hld.devFault = false → s.hld.releaseSeen = false → s.sys.fallDue = false → s.sys.holding = false →
      ∃ u, exec (.bCycle b) s = .next u ∧ u.t.cyc = s.t.cyc + 1 ∧
        u.t.tbA = (if s.t.runA then s.t.tbA + b.ticks.zeroExtend 64 else s.t.tbA) ∧
        u.hld.h = !(u.hld.line == .run && u.hld.linePrev == .run && u.hld.patternOk && !u.hld.devFault && !u.hld.fatal) ∧
        (∀ k : Fin 16, (u.hld.out[k]).closed = true →
          (u.hld.out[k]).valid = true ∧ (u.hld.out[k]).d = true ∧ (u.hld.out[k]).l = false ∧ (u.hld.out[k]).p = 0 ∧
            u.hld.h = false) ∧
        (let h := (cellsB (s.t.cyc + 1) (comparators s) (latchB s)).1
         u.hld.rel = h.rel ∧ u.hld.win = h.win ∧ u.hld.lg = h.lg ∧ (s.hld.inbox = [] → u.hld.ev = h.ev) ∧
         (∀ r : Fin 8, h.rel[r] = ((s.hld.rel[r]).tick (s.t.cyc + 1) (bit (latchB s).lvls (s.hld.rel[r]).input.val)).1) ∧
         (∀ w : Fin 16, h.win[w] = (s.hld.win[w]).tick (s.t.cyc + 1) (bit (comparators s) w.val)) ∧
         (∀ k : Fin 16, u.hld.out[k] = { ((s.hld.out[k]).tick h k).1 with closed := ((s.hld.out[k]).tick h k).1.wantB u.hld.h }) ∧
         (∀ g : Fin 4, (u.hld.gate[g]).e = ((s.hld.gate[g]).valid && signal h (fld (s.hld.gate[g]).w1 8 0)) ∧
           (u.hld.gate[g]).tx = ((u.hld.gate[g]).e && !u.hld.h))) ∧
        cellRules (latchB s) (s.t.cyc + 1) ∧
        u.mem = s.mem ∧ u.otp = s.otp) ∧
    (s.sys.runState = .dormant → ∃ u, exec (.bCycle b) s = .next u ∧ u.t.cyc = s.t.cyc + 1 ∧ u.hld = s.hld ∧ u.sin = s.sin ∧
      u.sout = s.sout ∧ u.mem = s.mem)

/-- R166 to R169, R171, R473: scan records and exchanges. Without an exchange pair every record is held, whatever its CRC; with one, a
record with a bad CRC, length or version is discarded and counted. A record that passes checks 1 to 7 becomes its core's reference, and
one that agrees in every item leaves no fault; a disagreement that lasts N scan periods is the device fault AGREEMENT. A record that does not follow its core's last one, a missing record, a lost exchange and a
rate beyond 1 % are device faults of channel B and lead to LOCKOUT with everything off.

The model's own choices that it rests on: log entries 3, 69, 128, 129 and 149. -/
def Obligations.AgreementMonitor : Prop :=
  ∀ (w : List Word) (c : Fin 4) (s : State), s.hld.loadMode = false →
    let k : Fin 4 := Fin.ofNat 4 (fld (w.getD 0 0) 1 0)
    let m := s.hld.mon[k]
    (s.sys.stage ≠ .cross → s.hld.pairs ≠ [] → recOk w = false → ∃ u, exec (.scanRecord w) s = .next u ∧
      (u.hld.mon[k]).discarded = satInc m.discarded ∧ (u.hld.mon[k]).seq = m.seq ∧ u.sys = s.sys ∧ u.mem = s.mem ∧ u.sout = s.sout) ∧
    (s.sys.stage ≠ .cross → s.hld.pairs = [] → (s.hld.waiting.filter fun r => r.core == k).length < 8 →
      ∃ u, exec (.scanRecord w) s = .next u ∧ u.hld.waiting = s.hld.waiting ++ [⟨w, s.t.cyc⟩] ∧ u.sys = s.sys ∧ u.mem = s.mem ∧ u.sout = s.sout) ∧
    (s.live → s.sys.stage = .none → s.hld.devFault = false → s.hld.fatal = false →
      (recOk w = true → s.hld.pairs ≠ [] → mapTime s.hld (w.getD 1 0) ≠ none → hosts s.hld k = true →
        fld (w.getD 2 0) 31 0 = 0 → m.ref = true → fld (w.getD 0 0) 31 16 ≠ (m.seq.toNat + 1) % 65536 →
        ∃ u, exec (.scanRecord w) s = .next u ∧ lockedOut 0x03 u ∧ u.hld.devFault = true ∧ u.mem = s.mem) ∧
      (∀ mt : Int, recOk w = true → s.hld.pairs ≠ [] → mapTime s.hld (w.getD 1 0) = some mt → hosts s.hld k = true →
        let own := ownedOut (BitVec.ofNat 16 (fld (s.hld.hdr[3]) 31 16)) (s.hld.hdr[4]) k
        let ownP := ownedPort (BitVec.ofNat 4 (fld (s.hld.hdr[3]) 15 12)) (s.hld.hdr[5]) k
        let w2 := w.getD 2 0
        let seq : Half := BitVec.ofNat 16 (fld (w.getD 0 0) 31 16)
        let per := scanPeriod s.hld k
        ((w2.truncate 16 : Half) &&& ~~~own) = 0 → (w2.extractLsb' 16 4 &&& ~~~ownP) = 0 →
        (m.ref = true → seq = m.seq + 1 ∧ w.getD 1 0 - m.time = BitVec.ofNat 32 (per * 10000)) →
        ((s.t.cyc * 400 : Nat) : Int) - mt ≤ ((per * 2000 + 800 : Nat) : Int) → w.getD 3 0 = s.hld.hdr.getN (10 + k.val) 0 →
        let mine := fun (i : Nat) => i < 20 ∧ (if i < 16 then bit own i = true else bit ownP (i - 16) = true)
        let shown := fun (i : Nat) => decide (0 ≤ mt) && bit (histAt s (mt / 400).toNat) i
        ((∀ i, mine i → bit w2 i = shown i) → ∃ u, exec (.scanRecord w) s = .next u ∧
          (u.hld.mon[k]).ref = true ∧ (u.hld.mon[k]).seq = seq ∧ (u.hld.mon[k]).time = w.getD 1 0 ∧ (u.hld.mon[k]).since = s.t.cyc ∧
          (u.hld.mon[k]).armed = true ∧ (∀ i, mine i → disAt u.hld i = none) ∧ u.hld.devFault = false ∧
          u.sys.runState = s.sys.runState ∧ u.mem = s.mem ∧ u.sout = s.sout) ∧
        (∀ i, mine i → (∀ j, j ≠ i → mine j → bit w2 j = shown j) → bit w2 i ≠ shown i →
          (bit w2 i = false → guardCell s.hld i mt per = none) →
          (disAt s.hld i = none → ∃ u, exec (.scanRecord w) s = .next u ∧ disAt u.hld i = some mt.toNat ∧ (u.hld.mon[k]).ref = true ∧
            u.hld.devFault = false ∧ u.sys.runState = s.sys.runState ∧ u.mem = s.mem) ∧
          (∀ st, disAt s.hld i = some st → ((fld (s.hld.hdr[3]) 2 0 * per * 2000 : Nat) : Int) ≤ mt - (st : Int) →
            ∃ u, exec (.scanRecord w) s = .next u ∧ lockedOut 0x01 u ∧ u.hld.devFault = true ∧ u.mem = s.mem))) ∧
      ((s.hld.mon[c]).armed = true → missLimit s.hld c < s.t.cyc - (s.hld.mon[c]).since → ∃ u, exec (.recordMissing c) s = .next u ∧ lockedOut 0x02 u ∧ u.hld.devFault = true ∧ u.mem = s.mem) ∧
      (s.hld.exchArmed = true → 200 < s.t.cyc - s.hld.lastExch → ∃ u, exec .tbLost s = .next u ∧ lockedOut 0x0A u ∧ u.hld.devFault = true ∧ u.mem = s.mem) ∧
      (s.t.runA = true → s.pwr.good = true → s.hld.skipNext = false → s.hld.waiting = [] →
        ∀ a0 b0 q, s.hld.pairs = (a0, b0) :: q → (s.t.tbA - a0).toNat ≠ 0 →
          a0.toNat / 200000 < s.t.tbA.toNat / 200000 →
          let da : Int := (s.t.tbA - a0).toNat
          let db : Int := ((s.t.cyc - b0) * 2000 : Nat)
          (da < (db - da).natAbs * 100 → ∃ u, exec .timebaseExchange s = .next u ∧ lockedOut 0x09 u ∧ u.hld.devFault = true ∧
            u.mem = s.mem) ∧
          ((db - da).natAbs * 100 ≤ da → ∃ u, exec .timebaseExchange s = .next u ∧
            u.hld.pairs = consCap 129 (s.t.tbA, s.t.cyc) s.hld.pairs ∧ u.hld.exchCount = satInc s.hld.exchCount ∧
            u.hld.lastExch = s.t.cyc ∧ u.sys = { s.sys with crossGood := s.sys.crossGood + 1 } ∧ u.mem = s.mem ∧ u.sout = s.sout)) ∧
      (s.t.runA = true → s.pwr.good = true → s.hld.waiting = [] →
        (∀ a0 b0 q, s.hld.skipNext = true → s.hld.pairs = (a0, b0) :: q → a0.toNat / 200000 < s.t.tbA.toNat / 200000 →
          ∃ u, exec .timebaseExchange s = .next u ∧ u.hld.skipNext = false ∧ u.hld.dev = s.hld.dev ∧ u.sys = s.sys ∧
            u.hld.pairs = consCap 129 (s.t.tbA, s.t.cyc) s.hld.pairs ∧ u.mem = s.mem ∧ u.sout = s.sout) ∧
        (s.hld.pairs = [] → ∃ u, exec .timebaseExchange s = .next u ∧ u.hld.skipNext = s.hld.skipNext ∧ u.hld.dev = s.hld.dev ∧
            u.hld.pairs = [(s.t.tbA, s.t.cyc)] ∧ u.hld.lastExch = s.t.cyc ∧ u.mem = s.mem ∧ u.sout = s.sout)))

/-- R40, R52, R157, R163, R178, R180, R366 to R369: fault line B, off-pulse requests, the read-back of the pattern, the report queue, and the limits
of CROSS and of cast-on. A line that channel A sees asserted is a device fault; a pattern that does not read back and a cast-on
that does not end are fatal.

R153, R154: filters of window cells and delay cells of channel B: a valid window cell takes the comparator's level with its
inversion; an ON_DELAY cell with its input set, or an OFF_DELAY cell with its input clear, reaches T; no other cell changes.

The model's own choices that it rests on: log entries 3, 18 and 22. -/
def Obligations.ChannelBPaths : Prop :=
  (∀ (k : Fin 16) (n : Nat) (s : State),
     (diesDown s = false → s.live → ∃ u, exec .lineB s = .next u ∧ lockedOut 0x48 u ∧ u.mem = s.mem) ∧
     (diesDown s = false → s.sys.runState = .castOn → s.sys.stage ≠ .cross → ∃ u, exec .lineB s = .next u ∧ u.sys.lineA = true ∧
       u.sys.devPending = true ∧ u.sys.runState = .castOn ∧ u.mem = s.mem) ∧
     exec (.offPulseRequest k n) s = .next (s.onHld fun h => { h with req := h.req.upd k fun l => l ++ [n] }) ∧
     (s.hld.loadMode = false → s.pwr.good = true → s.live → s.hld.fatal = false →
       (∃ u, exec (.patternReadback false) s = .next u ∧ halted 0x10 u ∧ u.hld.fatal = true ∧ u.mem = s.mem) ∧
       (crcWords s.hld.store.dropLast = s.hld.loadCrc → exec (.patternReadback true) s = .next s)) ∧
     (∃ u, exec .reportQueueDrain s = .next u ∧ u.hld = { s.hld with queue := [] } ∧ u.sys = s.sys ∧ u.mem = s.mem ∧
       u.sout = s.sout ∧ u.sin.i = s.sin.i ∧
       ((∀ q ∈ s.hld.queue, q.code ≠ 0x20) → u.diag.rct = (drainB s).diag.rct)) ∧
     (∀ q, s.hld.queue = [q] →
       let r : Rep := ⟨q.code.zeroExtend 16, 2, bClass q.code, q.cell.zeroExtend 24⟩
       let d := (drainB s).diag
       (rctTakes s = false → d.rct = s.diag.rct) ∧
       (rctTakes s = true →
         (∀ i, rctFind s.diag r = some i → (nowMs s - (s.diag.rct[i]).last).toNat ≤ fld s.diag.cfg 11 0 * 1000 →
           d.rct = s.diag.rct.upd i fun e => { e with count := satInc e.count, last := nowMs s }) ∧
         (∀ i, rctFind s.diag r = none → rctFree s.diag = some i → d.rct = s.diag.rct.upd i fun _ =>
           { valid := true, code := r.code, scls := 2, cls := r.cls, src := r.src, count := 1, first := nowMs s, last := nowMs s }))) ∧
     (s.sys.reeval = true → s.sys.runState = .lockout → s.sys.crossAt + crossMax s.hld ≤ s.t.cyc → ∃ u, exec .crossLate s = .next u ∧ u.sys.runState = .lockout ∧
       u.sys.reeval = false ∧ u.sys.stage = .none ∧ u.sys.lineA = true ∧ u.allOff ∧ u.mem = s.mem) ∧
     (s.hld.superOn = true → s.pwr.good = true → s.sys.runState = .castOn → s.hld.fatal = false → 32000 ≤ s.t.cyc →
       ∃ u, exec .castonTimeout s = .next u ∧ halted 0x12 u ∧ u.hld.fatal = true ∧ u.mem = s.mem)) ∧
  (∀ (w : Fin 16) (l : Fin 128) (s : State), s.hld.loadMode = false → s.sys.runState ≠ .dormant →
     (∃ u, exec (.windowFilterElapsed w) s = .next u ∧ u = { s with hld := { s.hld with win := u.hld.win } } ∧
       (let x := bit (comparators s) w.val != bit (s.hld.win[w]).w1 31
        (s.hld.win[w]).valid = true → (if x then fld (s.hld.win[w]).w1 11 0 else fld (s.hld.win[w]).w1 27 16) ≤ (s.hld.win[w]).f.n → (u.hld.win[w]).f.lvl = x) ∧
       (∀ v : Fin 16, v ≠ w → u.hld.win[v] = s.hld.win[v])) ∧
     (∃ u, exec (.delayElapsed l) s = .next u ∧ u = { s with hld := { s.hld with lg := u.hld.lg } } ∧
       (∀ v : Fin 128, v ≠ l → u.hld.lg[v] = s.hld.lg[v]) ∧
       ((s.hld.lg[l]).valid = true → fld (s.hld.lg[l]).w4 23 0 ≤ (s.hld.lg[l]).c + 1 → fld (s.hld.lg[l]).w1 3 0 = 3 → (s.hld.lg[l]).input s.hld 0 = true →
         (u.hld.lg[l]).out = true ∧ (u.hld.lg[l]).c = fld (s.hld.lg[l]).w4 23 0) ∧
       ((s.hld.lg[l]).valid = true → fld (s.hld.lg[l]).w4 23 0 ≤ (s.hld.lg[l]).c + 1 → fld (s.hld.lg[l]).w1 3 0 = 4 → (s.hld.lg[l]).input s.hld 0 = false →
         (u.hld.lg[l]).out = false ∧ (u.hld.lg[l]).c = fld (s.hld.lg[l]).w4 23 0)))

/-! ## The session unit -/

/-- Nothing but session `n` of the session unit differs in a register the spec names there, and no memory, run state, input,
channel-B state, channel or timer mode. -/
def Sys2Proof.Machine.onlySession (n : Fin 256) (s u : State) : Prop :=
  (∀ m : Fin 256, m ≠ n → u.csl.s[m] = s.csl.s[m]) ∧ u.mem = s.mem ∧ u.sys = s.sys ∧ u.sin = s.sin ∧ u.hld = s.hld ∧
  u.alp = s.alp ∧ u.csc = s.csc ∧ u.otp = s.otp ∧ u.t = s.t

/-- Every remote link of session `n` is locked out. -/
def Sys2Proof.Machine.linksLocked (n : Fin 256) (s u : State) : Prop :=
  ∀ j : Fin 32, bit (s.csl.link[j]).cfg 27 = true → fld (s.csl.link[j]).cfg 23 16 = n.val → (u.csl.link[j]).locked = true

/-- A session that entered OPENING (R299 to R301): an initiator with its next incarnation and a fresh sequence. -/
def Sys2Proof.Machine.openingFrom (x y : Sess) : Prop :=
  y.st = .opening ∧ y.pend = false ∧
  (x.responder = true → y.inc = x.inc) ∧
  (x.responder = false → y.inc = (if x.used then x.inc + 1 else x.inc) ∧ y.used = true ∧ y.tx = 0 ∧ y.l = 0 ∧ y.acc = 0)

/-- R302, R304, R305, R307: the commands of a session. OPEN and RESTART act in CLOSED and FAULT only, and wait for the end of a
quarantine; CLOSE acts in RUN only, sends one telegram, releases the connection ID into quarantine and locks out the links of the
session; where the unit's two checkers disagree nothing of it happens and CSL_CHECK is a device fault (R288); while the session unit
sleeps none of them does anything.

The model's own choices that it rests on: log entries 49 and 50. -/
def Obligations.SessionCommands : Prop :=
  ∀ (n : Fin 256) (s : State),
    let x := s.csl.s[n]
    (cslAwake s = true →
      (x.st = .closed → x.quar = true → ∃ u, exec (.openSess ⟨n, true⟩) s = .next u ∧
        u.csl.s[n] = { x with st := .quarantine, pend := true } ∧ onlySession n s u ∧ u.sout = s.sout) ∧
      (x.st = .closed → x.quar = false → ∃ u, exec (.openSess ⟨n, true⟩) s = .next u ∧ openingFrom x u.csl.s[n] ∧ onlySession n s u ∧
        u.sout = s.sout) ∧
      (x.st ≠ .closed → exec (.openSess ⟨n, true⟩) s = .next s) ∧
      (x.st = .fault → x.quar = true → ∃ u, exec (.restart ⟨n, true⟩) s = .next u ∧
        u.csl.s[n] = { x with st := .quarantine, pend := true } ∧ onlySession n s u ∧ u.sout = s.sout) ∧
      (x.st = .fault → x.quar = false → ∃ u, exec (.restart ⟨n, true⟩) s = .next u ∧ openingFrom x u.csl.s[n] ∧ onlySession n s u ∧
        u.sout = s.sout) ∧
      (x.st ≠ .fault → exec (.restart ⟨n, true⟩) s = .next s) ∧
      (x.st = .run → ∃ u, exec (.closeSess ⟨n, true⟩) s = .next u ∧ (u.csl.s[n]).st = .quarantine ∧ (u.csl.s[n]).quar = true ∧
        (u.csl.s[n]).pend = false ∧ (u.csl.s[n]).tx = x.tx + 1 ∧ linksLocked n s u ∧ onlySession n s u) ∧
      (x.st ≠ .run → ∃ u, exec (.closeSess ⟨n, true⟩) s = .next u ∧ u.csl = s.csl ∧ u.mem = s.mem ∧ u.sys = s.sys ∧ u.sout = s.sout)) ∧
    (s.live → ∀ row ∈ [Instr.openSess ⟨n, false⟩, .closeSess ⟨n, false⟩, .restart ⟨n, false⟩],
      ∃ u, exec row s = .next u ∧ lockedOut 0x45 u ∧ u.csl.s = s.csl.s ∧ u.csl.hlTx = s.csl.hlTx ∧ u.mem = s.mem) ∧
    (cslAwake s = false → ∀ agree : Bool, exec (.openSess ⟨n, agree⟩) s = .next s ∧ exec (.closeSess ⟨n, agree⟩) s = .next s ∧
      exec (.restart ⟨n, agree⟩) s = .next s)

/-- R297, R299, R302, R304 to R306: what time does to a session. A lapsed time expectation is the session fault TIMEOUT, which
releases the connection ID and locks out the links of the session; a quarantine ends in CLOSED, or in OPENING where an OPEN
waits or the session restarts itself; an initiator in OPENING sends OPEN again with the same incarnation; and the two-hour window
of dropped stitches rolls.

The model's own choices that it rests on: log entries 3 and 49. -/
def Obligations.SessionTimes : Prop :=
  ∀ (n : Fin 256) (s : State),
    let x := s.csl.s[n]
    (cslAwake s = true →
      (x.st = .run → x.valid s.t.tbA = false → ∃ u, exec (.timeout ⟨n, true⟩) s = .next u ∧ (u.csl.s[n]).st = .fault ∧ (u.csl.s[n]).cause = 1 ∧
        (u.csl.s[n]).quar = true ∧ (∀ now, (u.csl.s[n]).valid now = false) ∧ linksLocked n s u ∧ onlySession n s u) ∧
      (x.quar = true → quarPassed s x = true →
        (x.st = .quarantine → x.pend = false → ∃ u, exec (.quarantineEnd ⟨n, true⟩) s = .next u ∧
          u.csl.s[n] = { x with st := .closed, quar := false } ∧ onlySession n s u ∧ u.sout = s.sout) ∧
        ((x.st = .quarantine ∧ x.pend = true) ∨ (x.st = .fault ∧ bit x.cfg 5 = true) →
          ∃ u, exec (.quarantineEnd ⟨n, true⟩) s = .next u ∧ openingFrom x u.csl.s[n] ∧ (u.csl.s[n]).quar = false ∧
            onlySession n s u ∧ u.sout = s.sout) ∧
        (x.st = .fault → bit x.cfg 5 = false → exec (.quarantineEnd ⟨n, true⟩) s = .next (s.onS n fun x => { x with quar := false }))) ∧
      (x.st = .opening → x.responder = false →
        (∀ t q, x.times = t :: q → come s t = true ∧ max 1000000 (x.te / 2) ≤ since s t) → ∃ u, exec (.openResend ⟨n, true⟩) s = .next u ∧
        u.csl.s[n] = { x with times := [s.t.tbA] } ∧ onlySession n s u ∧ u.sout = s.sout ∧
        (x.transport = 2 → s.csl.hlTx.length < 16 →
          u.csl.hlTx = s.csl.hlTx ++ [telegram s.csl.id x.peer x.inc 0 1 x.conn 0 0 (halfBytes x.inc ++ [0, 0] ++ wordBytes x.param)]) ∧
        (x.transport = 2 → 16 ≤ s.csl.hlTx.length → u.csl.hlTx = s.csl.hlTx))) ∧
    (x.st ≠ .run → exec (.timeout ⟨n, true⟩) s = .next s) ∧
    (x.st ≠ .opening → exec (.openResend ⟨n, true⟩) s = .next s) ∧
    (cslAwake s = false → exec (.timeout ⟨n, true⟩) s = .next s ∧ exec (.openResend ⟨n, true⟩) s = .next s ∧ exec (.quarantineEnd ⟨n, true⟩) s = .next s) ∧
    (let h := s.t.tbA.toNat / 720000000000
     let roll := fun (all : Bool) => { s with csl := { s.csl with
       hour := h, s := s.csl.s.map fun x => { x with hourPrev := if all then 0 else x.hourNow, hourNow := 0 } } }
     (h = s.csl.hour → exec .cslHourRoll s = .next s) ∧
     (h = s.csl.hour + 1 → exec .cslHourRoll s = .next (roll false)) ∧
     (h ≠ s.csl.hour → h ≠ s.csl.hour + 1 → exec .cslHourRoll s = .next (roll true)))

/-- R292, R293, R295 to R298, R314: receiving. A DATA telegram with the right context, a sequence 1 to WIN past the last one and an
echo inside the time expectation is accepted, whole: its payload, sequence and echo are kept and its data is valid; what is no
telegram is a dropped stitch of the session it names.

R315: a write frame at CSL_HL_RX queues one telegram of at most 76 bytes for the session unit, which takes what waits in each B cycle;
a full queue of 16 loses it with overflow, and a frame of another length is an unknown telegram. A 20-word read at CSL_HL_TX answers
the oldest outgoing telegram, its length and the valid flag first, and removes it; with none queued it answers zeros and changes
nothing.

The model's own choices that it rests on: log entries 49 and 52. -/
def Obligations.SessionQueues : Prop :=
  (∀ (n : Fin 256) (i : Fin 2) (d : Nat) (echo : Half) (pl bs : List Byte) (s : State), cslAwake s = true → ethOn s i = true →
     let x := s.csl.s[n]
     let from_ := fun (bs : List Byte) => Instr.ethDatagramRx i ⟨x.addr, x.addr2.extractLsb' 0 16, s.csl.udpPort, bs, false⟩ true
     (∀ m : Fin 256, ((s.csl.s[m]).present = true ∧ (s.csl.s[m]).transport = 0 ∧ (s.csl.s[m]).iface = i ∧ (s.csl.s[m]).addr = x.addr ∧
         (s.csl.s[m]).addr2.extractLsb' 0 16 = x.addr2.extractLsb' 0 16 ∧ (s.csl.s[m]).conn = x.conn) ↔ m = n) →
       (∀ sent : DWord, x.st = .run → 1 ≤ d → d ≤ x.win → pl.length = x.rxLen → pl.length ≤ 64 →
         let q := x.l + BitVec.ofNat 32 d
         let e := echoSeq x.tx echo
         x.eAcc ≤ e → x.times[(x.tx - e).toNat]? = some sent → since s sent ≤ x.te →
         ∃ u, exec (from_ (telegram x.peer s.csl.id x.inc (hi16 q) 3 x.conn (lo16 q) echo pl)) s = .next u ∧
           u.csl.s[n] = { x with run := 0, l := q, acc := q, eAcc := e, accAt := some sent, payload := pl, fresh := true } ∧
           (u.csl.s[n]).valid s.t.tbA = true ∧ onlySession n s u) ∧
       (teleConn bs = some x.conn → wellFormedTele bs = false →
         ∃ u, exec (from_ bs) s = .next u ∧ (u.csl.s[n]).dropped = satInc x.dropped ∧
           (u.csl.s[n]).payload = x.payload ∧ (u.csl.s[n]).l = x.l ∧ onlySession n s u)) ∧
  (∀ (bs : List Byte) (ws : List Word) (b : BInputs) (s : State),
     (ctrlServed s = true →
       (bs.length ≤ 76 →
         (s.csl.hlRx.length < 16 → exec (.hlRxWrite (BitVec.ofNat 32 bs.length) (bytesWords bs)) s = .next { s with csl := { s.csl with hlRx := s.csl.hlRx ++ [bs] } }) ∧
         (16 ≤ s.csl.hlRx.length → exec (.hlRxWrite (BitVec.ofNat 32 bs.length) (bytesWords bs)) s = .next { s with csl := { s.csl with rxOvf := true } })) ∧
       (∀ head : Word, ws.length ≠ (fld head 6 0 + 3) / 4 →
         exec (.hlRxWrite head ws) s = .next { s with csl := { s.csl with unknown := s.csl.unknown.upd 2 satInc } })) ∧
     (s.live → s.pwr.good = true → s.pwr.hldBad = false → s.hld.loadMode = false → s.hld.devFault = false → s.hld.fatal = false →
       s.hld.releaseSeen = false → s.sys.stage = .none → s.sys.fallDue = false → s.sys.holding = false → b.parity = false →
       ∃ u, exec (.bCycle b) s = .next u ∧ u.csl.hlRx = [])) ∧
  (∀ (bs : List Byte) (q : List (List Byte)) (s : State), ctrlServed s = true →
     (s.csl.hlTx = bs :: q → exec .hlTxRead s = .next { s with
       csl := { s.csl with hlTx := q }
       link := { s.link with rdata := (at_ bs.length 0 ||| at_ 1 7) :: bytesWords bs ++ List.replicate (19 - (bytesWords bs).length) 0 } }) ∧
     (s.csl.hlTx = [] → exec .hlTxRead s = .next { s with link := { s.link with rdata := List.replicate 20 0 } }))

/-! ## The string carrier -/

/-- Nothing outside port `p` of the carrier, the result of CSC_CMD and what the event fabric and the settings store hold differs. -/
def Sys2Proof.Machine.onlySkein (p : Fin 4) (s u : State) : Prop :=
  (∀ q : Fin 4, q ≠ p → u.csc.p[q] = s.csc.p[q]) ∧ u.mem = s.mem ∧ u.sys = s.sys ∧ u.sin = s.sin ∧ u.sout = s.sout ∧
  u.hld = s.hld ∧ u.alp = s.alp ∧ u.csl = s.csl ∧ u.otp = s.otp ∧ u.t = s.t

/-- R324 to R329, R344: the row period. In RUN a row telegram is built with the permits of the latest scan record; at the row slot
it is sent first, with the next sequence; two OPEN frames in START lead to RUN; a port whose transmit enable is 0 sends nothing;
falling enable cuts a frame in progress and leads to SILENT, rising enable to START with the next incarnation; energy without
enable is the device fault CSC_TX_STUCK; a ROW level under 70 % of the port's transmit level in two row periods in a row locks the skein
out (R505); a telegram on which
the unit's two checkers disagree is not sent, and CSL_CHECK follows (R288).

The model's own choices that it rests on: log entries 54 and 141. -/
def Obligations.CarrierRows : Prop :=
  ∀ (p : Fin 4) (level : Byte) (e : ToneEnergy) (agree inFrame : Bool) (t : List Byte) (pm : DWord) (s : State),
    let x := s.csc.p[p]
    (x.st = .run → cslAwake s = true → rowTick p 200000 s = true →
      exec (.rowBuild ⟨p, true⟩) s = .next (s.onP p fun x =>
        { x with built := some (rowTelegram s p (rowPermits s p) (x.rows % 16 == 15), rowPermits s p) }) ∧
      (s.live → ∃ u, exec (.rowBuild ⟨p, false⟩) s = .next u ∧ lockedOut 0x45 u ∧ u.csc = s.csc ∧ u.mem = s.mem)) ∧
    (x.st ≠ .run ∨ rowTick p 200000 s = false → exec (.rowBuild ⟨p, agree⟩) s = .next s) ∧
    (rowTick p 0 s = false → exec (.rowSlot ⟨p, agree⟩ level e) s = .next s) ∧
    (rowTick p 0 s = true → (txEn s p = false ∨ cslAwake s = false ∨ x.st = .off ∨ x.st = .silent) →
      ∃ u, exec (.rowSlot ⟨p, agree⟩ level e) s = .next u ∧
        (u.csc.p[p]).sent = [] ∧ (u.csc.p[p]).seq = x.seq ∧ (u.csc.p[p]).st = x.st ∧ onlySkein p s u) ∧
    (rowTick p 0 s = true → txEn s p = true → cslAwake s = true →
      (x.st = .start → ∃ u, exec (.rowSlot ⟨p, true⟩ level e) s = .next u ∧
        (u.csc.p[p]).sent = [cscFrame 1 0xFFFF (openTelegram s p)] ∧
        (u.csc.p[p]).wave = frameWave (cscFrame 1 0xFFFF (openTelegram s p)) ∧ (u.csc.p[p]).starts = x.starts + 1 ∧
        (u.csc.p[p]).st = (if x.starts = 0 then .start else .run) ∧ onlySkein p s u) ∧
      (x.st = .run → x.built = some (t, pm) → ∃ u, exec (.rowSlot ⟨p, true⟩ level e) s = .next u ∧
        (u.csc.p[p]).sent[0]? = some (cscFrame 1 0xFFFF t) ∧ (u.csc.p[p]).seq = x.seq + 1 ∧ (u.csc.p[p]).permits = pm ∧
        (u.csc.p[p]).st = .run ∧ (u.csc.p[p]).lowOnce = decide (2 * level.toNat < 7 * x.level.toNat) ∧
        (u.csc.p[p]).locked = (x.locked || (decide (2 * level.toNat < 7 * x.level.toNat) && x.lowOnce)) ∧ onlySkein p s u)) ∧
    (rowTick p 0 s = true → openInSlot s p = true → s.live → ∃ u, exec (.rowSlot ⟨p, false⟩ level e) s = .next u ∧
      lockedOut 0x45 u ∧ u.csc = s.csc ∧ u.mem = s.mem) ∧
    (txEn s p = true → cslAwake s = true →
      (x.st = .silent → ∃ u, exec (.txEnableChange p inFrame) s = .next u ∧ (u.csc.p[p]).st = .start ∧
        (u.csc.p[p]).inc = (if x.used then x.inc + 1 else x.inc) ∧ (u.csc.p[p]).seq = 0 ∧ (u.csc.p[p]).rowCut = x.rowCut ∧
        onlySkein p s u)) ∧
    (txEn s p = false → (x.st = .start ∨ x.st = .run) → ∃ u, exec (.txEnableChange p inFrame) s = .next u ∧
      (u.csc.p[p]).st = .silent ∧ (u.csc.p[p]).rowCut = (if inFrame then satInc x.rowCut else x.rowCut) ∧
      (u.csc.p[p]).active = false ∧ (u.csc.p[p]).built = none ∧ onlySkein p s u) ∧
    (txEn s p = true → exec (.cscTxStuck p) s = .next s) ∧
    (txEn s p = false → s.live → ∃ u, exec (.cscTxStuck p) s = .next u ∧ lockedOut 0x47 u ∧ u.mem = s.mem)

/-- The bytes of a frame as the decoder of the convolutional code delivers them: scrambled (R321, Table 12-1). -/
def Sys2Proof.Machine.onAir (f : List Byte) : List Byte := bitsBytes (scramble 0x7F (byteBits f))

/-- R321, R322, R334, R337 to R339, R341 to R343: answers. A frame that is received as it was sent gives its type, address and body. A
paired partner that does not answer in three polls in a row is MISSING; a REPORT clears that and gives its state, fault, signal and
missed rows, and a group or setting that does not agree makes it a MISMATCH; it writes no memory but the partner's equaliser record; a
frame with a bad CRC is counted and is no answer; a round whose paired groups all flag is a common-cause event, which ends
the search; a half that flags without a paired partner and a located address that does not answer count as SEARCH_EMPTY, and the located
addresses are counted.

The model's own choices that it rests on: log entries 54, 55, 109 and 150. -/
def Obligations.CarrierAnswers : Prop :=
  (∀ (ty : Nat) (addr : Half) (body : List Byte), ty < 16 → body.length < 256 →
    rxFrame (onAir (cscFrame ty addr body)) = some (ty, addr, body)) ∧
  ∀ (p : Fin 4) (a : BitVec 10) (rest : List (BitVec 10)) (body b : List Byte) (h : Word) (c : Half) (snr : Byte) (flags : List ToneEnergy) (s : State),
    let x := s.csc.p[p]
    let e := x.entry a
    let good := onAir (cscFrame 4 (a.zeroExtend 16) body)
    (s.Inv → Sparse.wf {} x.tab = true → x.wait = .poll (a :: rest) true false → x.job = none → e.entry ≠ 0 →
      symbolsPassed p (7 * rest.length + 1) s = true →
      (∃ u, exec (.pollSlotEnd p) s = .next u ∧ onlySkein p s u ∧ (u.csc.p[p]).reports = x.reports ∧
        (u.csc.p[p]).entry a = { e with
          silent := satInc e.silent, entry := if e.silent = 2 ∧ e.entry = 1 then 2 else e.entry } ∧
        ∀ b : BitVec 10, b ≠ a → (u.csc.p[p]).entry b = x.entry b) ∧
      (body.length = 16 → rxBytes h b c = good → ∃ u, exec (.report p h b c snr) s = .next u ∧ onlySkein p s { u with mem := s.mem } ∧
        (eqBase s p = none → u.mem = s.mem) ∧
        (∀ base, eqBase s p = some base → ∀ (f : Fin 24) (y : Nat), ¬ storedTo 12 f (base + 64 * a.toNat) 64 y →
          readByte u.mem f y = readByte s.mem f y) ∧
        (u.csc.p[p]).reports = satInc x.reports ∧
        (let bad := (body.getD 12 0).toNat % 64 ≠ e.group.toNat ∨ (body.getD 13 0).toNat % 16 ≠ fld x.cfg 19 16
         ((u.csc.p[p]).entry a).entry = if bad then 3 else if e.entry = 2 then 1 else e.entry) ∧
        ((u.csc.p[p]).entry a).silent = 0 ∧ ((u.csc.p[p]).entry a).snr = snr ∧
        ((u.csc.p[p]).entry a).state = (body.getD 0 0).extractLsb' 0 2 ∧
        ((u.csc.p[p]).entry a).fault = bytesHalf [body.getD 2 0, body.getD 3 0] ∧
        ((u.csc.p[p]).entry a).missed = BitVec.ofNat 8 (min 255 (bytesHalf [body.getD 4 0, body.getD 5 0]).toNat) ∧
        ((u.csc.p[p]).entry a).sn = e.sn ∧ ((u.csc.p[p]).entry a).group = e.group ∧
        ∀ b : BitVec 10, b ≠ a → (u.csc.p[p]).entry b = x.entry b) ∧
      (rxFrame (rxBytes h b c) = none → ∃ u, exec (.report p h b c snr) s = .next u ∧ (u.csc.p[p]).frameErr = satInc x.frameErr ∧
        (u.csc.p[p]).reports = x.reports ∧ ((u.csc.p[p]).entry a).silent = satInc e.silent ∧ onlySkein p s u)) ∧
    (x.wait = .poll (a :: rest) false true → symbolsPassed p (7 * rest.length + 1) s = true →
      ∃ u, exec (.pollSlotEnd p) s = .next u ∧ onlySkein p s u ∧ (u.csc.p[p]).empty = satInc x.empty ∧ (u.csc.p[p]).tab = x.tab ∧
        (u.csc.p[p]).reports = x.reports) ∧
    ((∀ l r q, x.wait ≠ .poll l r q) → exec (.pollSlotEnd p) s = .next s ∧ exec (.report p h b c snr) s = .next s) ∧
    (x.wait = .query → txEn s p = true → symbolsPassed p 1 s = true →
      let halves := flaggedHalves x.sets (flags.map fun e => (flagSeen .lo e, flagSeen .hi e))
      (x.rounds = 1 → allFlag x halves = true → ∃ u, exec (.queryRoundEnd p flags) s = .next u ∧ (u.csc.p[p]).common = true ∧
        (u.csc.p[p]).active = false ∧ (u.csc.p[p]).endedCommon = true ∧ (u.csc.p[p]).commons = satInc x.commons ∧ onlySkein p s u) ∧
      (x.rounds ≠ 1 → ∃ u, exec (.queryRoundEnd p flags) s = .next u ∧ onlySkein p s u ∧
        (u.csc.p[p]).located = (((halves.filter (halfPaired x)).take 16).filter fun h => h.1 == 10).foldl (fun n _ => satInc n) x.located ∧
        (u.csc.p[p]).empty = (halves.filter fun h => !halfPaired x h).foldl (fun n _ => satInc n) x.empty ∧
        (x.commonRot ≠ 1 → (u.csc.p[p]).common = x.common))) ∧
    (x.wait ≠ .query → exec (.queryRoundEnd p flags) s = .next s)

/-- R333 to R335: a PAIR_ACK that names the address, the serial and the CRC of PAIR makes the address paired, in the table and in the settings store, with the group of its range; any other changes nothing.

R328 to R330, R333, R334: CSC_CMD. START takes a used port from OFF to START or SILENT, with the
carrier engines loaded first where their domain is off, and their failed hash is a device fault (R33, R38); STOP takes it to OFF, and is refused with
RESULT 3 while the owning core's record permits a group of the port, whatever its state; PAIR and UNPAIR need the device and the port in RUN (RESULT 2),
no such command in progress (RESULT 6) and an address that fits (RESULT 4), and then are under way with RESULT 1; a port that
is not in RUN cannot be polled, and a second poll waits for the first (RESULT 6). Where the carrier is absent nothing happens.

The model's own choices that it rests on: log entries 47 and 54. -/
def Obligations.CarrierCommands : Prop :=
  (∀ (p : Fin 4) (a : BitVec 10) (sn : BitVec 48) (tries : Nat) (crc h : Word) (l : List Byte) (c : Half) (s : State),
     let x := s.csc.p[p]
     let ack := fun (b : BitVec 10) (m : BitVec 48) (c : Word) => onAir (cscFrame 6 (b.zeroExtend 16) (snBytes m ++ wordBytes c))
     x.wait = .pair true → x.job = some (.pair a sn tries) → symbolsPassed p 1 s = true →
       (rxBytes h l c = ack a sn crc → crc = crc32c (pairBody s p a sn) → Sparse.wf {} x.tab = true →
         ∃ u, exec (.pairAck p h l c) s = .next u ∧ onlySkein p s u ∧ u.csc.result = 0 ∧ (u.csc.p[p]).job = none ∧
           (u.csc.p[p]).entry a = { entry := 1, group := pairGroup x a, sn := sn } ∧
           Sparse.get {} (u.upd.table p) a.toNat = (u.csc.p[p]).entry a) ∧
       (rxBytes h l c = ack a sn crc → crc ≠ crc32c (pairBody s p a sn) → exec (.pairAck p h l c) s = .next s) ∧
       (∀ b : BitVec 10, b ≠ a → rxBytes h l c = ack b sn crc → exec (.pairAck p h l c) s = .next s) ∧
       (∀ m : BitVec 48, m ≠ sn → rxBytes h l c = ack a m crc → exec (.pairAck p h l c) s = .next s)) ∧
  (∀ (p : Fin 4) (a : BitVec 10) (s : State), ctrlServed s = true →
     let x := s.csc.p[p]
     (cscAbsent s = true → exec (.cscStart p) s = .next s ∧ exec (.cscStop p) s = .next s ∧ exec (.pair p a) s = .next s ∧
       exec (.unpair p a) s = .next s ∧ exec (.poll p a) s = .next s) ∧
     (cscAbsent s = false →
       (x.st = .off → bit x.cfg 0 = true →
         (bit s.pwr.domains 3 = true ∨ ((ceLoad s).eng.e[(12 : Fin 24)]).on = true → ∃ u, exec (.cscStart p) s = .next u ∧
           u.csc.result = 0 ∧ (u.csc.p[p]).st = (if txEn s p then .start else .silent) ∧ u.sys = s.sys ∧ u.sout = s.sout ∧
           u.hld = s.hld ∧ bit u.pwr.domains 3 = true ∧ (bit s.pwr.domains 3 = true → onlySkein p s u)) ∧
         (bit s.pwr.domains 3 = false → ((ceLoad s).eng.e[(12 : Fin 24)]).on = false → s.live →
           ∃ u, exec (.cscStart p) s = .next u ∧ lockedOut 0x4B u ∧ (u.csc.p[p]).st = .off)) ∧
       ((x.st ≠ .off ∨ bit x.cfg 0 = false) → exec (.cscStart p) s = .next (s.onCsc fun c => { c with result := 2 })) ∧
       (permitsAny s p = true → exec (.cscStop p) s = .next (s.onCsc fun c => { c with result := 3 })) ∧
       ((x.st = .run ∨ x.st = .silent) → permitsAny s p = false → ∃ u, exec (.cscStop p) s = .next u ∧ u.csc.result = 0 ∧
         (u.csc.p[p]).st = .off ∧ (u.csc.p[p]).active = false ∧ onlySkein p s u) ∧
       ((x.st = .start ∨ x.st = .off) → permitsAny s p = false → exec (.cscStop p) s = .next (s.onCsc fun c => { c with result := 2 })) ∧
       ((s.sys.runState ≠ .run ∨ x.st ≠ .run) → exec (.pair p a) s = .next (s.onCsc fun c => { c with result := 2 }) ∧
         exec (.unpair p a) s = .next (s.onCsc fun c => { c with result := 2 })) ∧
       (x.st ≠ .run → exec (.poll p a) s = .next (s.onCsc fun c => { c with result := 2 })) ∧
       (s.sys.runState = .run → x.st = .run →
         (cscBusy s = true → ∀ i ∈ [Instr.pair p a, .unpair p a, .poll p a],
           exec i s = .next (s.onCsc fun c => { c with result := 6 })) ∧
         (cscBusy s = false →
           ((x.entry a).entry = 0 → groupOf x a ≠ none → exec (.pair p a) s = .next
             ((s.onP p fun x => { x with job := some (.pair a s.csc.pairSn 0) }).onCsc fun c => { c with result := 1 })) ∧
           (((x.entry a).entry ≠ 0 ∨ groupOf x a = none) → exec (.pair p a) s = .next (s.onCsc fun c => { c with result := 4 })) ∧
           ((x.entry a).entry ≠ 0 → exec (.unpair p a) s = .next
             ((s.onP p fun x => { x with job := some (.unpair a true 0) }).onCsc fun c => { c with result := 1 })) ∧
           ((x.entry a).entry = 0 → exec (.unpair p a) s = .next (s.onCsc fun c => { c with result := 4 })) ∧
           ((∀ q : Fin 4, (s.csc.p[q]).pollJob = none) → exec (.poll p a) s = .next
             ((s.onP p fun x => { x with pollJob := some a }).onCsc fun c => { c with result := 1 })) ∧
           ((∃ q : Fin 4, (s.csc.p[q]).pollJob ≠ none) → exec (.poll p a) s = .next (s.onCsc fun c => { c with result := 6 }))))))

/-! ## Check-value units and DMA -/

/-- The source's write reaches the register space: an engine's and a DMA channel's always, the host's while it is served (R444). -/
def Sys2Proof.Machine.reaches (src : Src) (s : State) : Prop :=
  match src with
  | .engine _ | .dma => True
  | .host => ctrlServed s = true
  | .eth | .can => False

/-- Nothing but unit `u` and the events it raises differs. -/
def Sys2Proof.Machine.onlyUnit (u : Fin 4) (s t : State) : Prop :=
  (∀ v : Fin 4, v ≠ u → t.cvu.u[v] = s.cvu.u[v]) ∧ t.mem = s.mem ∧ t.sys = s.sys ∧ t.sin = s.sin ∧ t.sout = s.sout ∧ t.hld = s.hld ∧
  t.csl = s.csl ∧ t.csc = s.csc ∧ t.alp = s.alp ∧ t.otp = s.otp ∧ t.t = s.t

/-- R349 to R351, R353 to R355: writes to a check-value unit. VALUE, the context words and EXPECT take the owner's write while the feed
channel is idle, VALUE leaving the unit fresh; FEED and CVU_CMD take the host owner's on a unit that is not DMA-fed, in the order
of R351; any other write is ignored and sets ERR; two implementations that disagree where a word is absorbed are the device fault CVU_CHECK, and
an operation that absorbs nothing compares nothing (R353). A write that does not reach the register space changes nothing (R444).

The model's own choices that it rests on: log entries 35 and 62. -/
def Obligations.CheckUnitWrites : Prop :=
  ∀ (src : Src) (u : Fin 4) (which : Fin 3) (v : Word) (agree : Bool) (s : State),
    let x := s.cvu.u[u]
    (¬ reaches src s → ∀ i ∈ [Instr.cvuValueWrite src u v, .cvuContextWrite src u which v, .cvuFeedWrite src u v agree,
      .cvuFoldCtxs src u agree, .cvuFoldCtxe src u agree], exec i s = .next s) ∧
    (reaches src s → srcCode src = x.owner → fedBusy s u = false →
      (∃ t, exec (.cvuValueWrite src u v) s = .next t ∧ t.cvu.u[u] = { x with value := v &&& x.mask, st := .fresh, seqerr := false, bytes := 0 } ∧
        onlyUnit u s t) ∧
      (∃ t, exec (.cvuContextWrite src u which v) s = .next t ∧ onlyUnit u s t ∧ t.cvu.u[u] = { x with
        ctxs := if which = 0 then v else x.ctxs, ctxe := if which = 1 then v else x.ctxe, expect := if which = 2 then v else x.expect })) ∧
    (reaches src s → (srcCode src ≠ x.owner ∨ fedBusy s u = true) → ∀ i ∈ [Instr.cvuValueWrite src u v, .cvuContextWrite src u which v],
      ∃ t, exec i s = .next t ∧ t.cvu.u[u] = { x with err := true } ∧ onlyUnit u s t) ∧
    (reaches src s → srcCode src = 0x18 → x.owner = 0x18 → x.dmaFed = false →
      (agree = true ∨ x.st = .closed → ∃ t, exec (.cvuFeedWrite src u v agree) s = .next t ∧ onlyUnit u s t ∧
        t.cvu.u[u] = (if x.st = .closed then { x with seqerr := true } else x.take (wordBytes v) .opened)) ∧
      (agree = true ∨ x.st ≠ .fresh → ∃ t, exec (.cvuFoldCtxs src u agree) s = .next t ∧ onlyUnit u s t ∧
        t.cvu.u[u] = (if x.st = .fresh then x.take (wordBytes x.ctxs) .opened else { x with seqerr := true })) ∧
      (agree = true ∨ x.st = .closed → ∃ t, exec (.cvuFoldCtxe src u agree) s = .next t ∧ onlyUnit u s t ∧
        t.cvu.u[u] = (if x.st = .closed then { x with seqerr := true } else x.take (wordBytes x.ctxe) .closed)) ∧
      (s.live → x.st ≠ .closed → ∀ i ∈ [Instr.cvuFeedWrite src u v false, .cvuFoldCtxe src u false],
        ∃ t, exec i s = .next t ∧ lockedOut 0x46 t ∧ t.mem = s.mem) ∧
      (s.live → x.st = .fresh → ∃ t, exec (.cvuFoldCtxs src u false) s = .next t ∧ lockedOut 0x46 t ∧ t.mem = s.mem)) ∧
    (reaches src s → (srcCode src ≠ 0x18 ∨ x.owner ≠ 0x18 ∨ x.dmaFed = true) →
      ∀ i ∈ [Instr.cvuFeedWrite src u v agree, .cvuFoldCtxs src u agree, .cvuFoldCtxe src u agree],
        ∃ t, exec i s = .next t ∧ t.cvu.u[u] = { x with err := true } ∧ onlyUnit u s t)

/-- Nothing but channels of the DMA and what the event fabric reaches differs. -/
def Sys2Proof.Machine.onlyDma (s t : State) : Prop :=
  t.mem = s.mem ∧ t.cvu.u = s.cvu.u ∧ t.sys = s.sys ∧ t.sin = s.sin ∧ t.sout = s.sout ∧ t.hld = s.hld ∧ t.csl = s.csl ∧
  t.csc = s.csc ∧ t.alp = s.alp ∧ t.otp = s.otp ∧ t.t = s.t

/-- R355 to R357: the commands and registers of a DMA channel, which take its owner's access and the host's. START makes an idle channel with something to move busy,
with its addresses and count kept for CIRC, and a unit it feeds absorbs its context word where that is set, compared in both
implementations (R353, R354); STOP ends a busy one; a request starts a burst, is held one deep, or sets OVR; the
registers take those writes while the channel is idle; any other source is refused. A request counts where REQ names its kind, so a
channel on software requests takes START alone.

The model's own choices that it rests on: log entries 63 and 138. -/
def Obligations.DmaCommands : Prop :=
  ∀ (src : Src) (d : Fin 16) (which : Fin 3) (v : Word) (s : State), reaches src s →
    let c := s.cvu.d[d]
    ((srcCode src = c.owner ∨ (srcCode src = 0x18 ∧ c.owner < 24)) →
      (c.busy = false → c.count ≠ 0 → fedBy s d = [] → exec (.dmaStart src ⟨d, true⟩) s = .next (s.onCvu fun x => { x with d := x.d.upd d fun c =>
        { c with busy := true, result := 0, code := 0, src0 := c.src, dst0 := c.dst, count0 := c.count, held := false
                 burst := if fld c.cfg 9 8 = 0 then fld c.cfg 15 10 else 0 } })) ∧
      (∀ u ∈ fedBy s d, c.busy = false → c.count ≠ 0 → bit (s.cvu.u[u]).cfg 8 = true → s.live →
        (∃ t, exec (.dmaStart src ⟨d, true⟩) s = .next t ∧ onlyDma s { t with cvu := { t.cvu with u := s.cvu.u } } ∧
          (t.cvu.d[d]).busy = true ∧
          t.cvu.u[u] = ({ s.cvu.u[u] with bytes := 0, seqerr := false } : Cvu).take (wordBytes (s.cvu.u[u]).ctxs) .opened) ∧
        (∃ t, exec (.dmaStart src ⟨d, false⟩) s = .next t ∧ lockedOut 0x46 t ∧ t.mem = s.mem)) ∧
      (c.busy = false → c.count = 0 → exec (.dmaStart src ⟨d, true⟩) s = .next (s.onCvu fun x => { x with d := x.d.upd d fun c => { c with result := 2 } })) ∧
      (c.busy = true → fld c.cfg 9 8 = 0 → c.burst = 0 → exec (.dmaStart src ⟨d, true⟩) s = .next (s.onCvu fun x => { x with
        d := x.d.upd d fun c => { c with result := 0, burst := fld c.cfg 15 10 } })) ∧
      (c.busy = true → fld c.cfg 9 8 ≠ 0 → exec (.dmaStart src ⟨d, true⟩) s = .next (s.onCvu fun x => { x with
        d := x.d.upd d fun c => { c with result := 2 } })) ∧
      (c.busy = true → exec (.dmaStop src d) s = .next (s.onCvu fun x => { x with d := x.d.upd d fun c =>
        { c with busy := false, burst := 0, held := false, result := 0 } })) ∧
      (c.busy = false → exec (.dmaStop src d) s = .next (s.onCvu fun x => { x with d := x.d.upd d fun c => { c with result := 2 } })) ∧
      (c.busy = false → exec (.dmaRegWrite src d which v) s = .next (s.onCvu fun x => { x with d := x.d.upd d fun c =>
        { c with src := if which = 0 then v else c.src, dst := if which = 1 then v else c.dst
                 count := if which = 2 then v.truncate 24 else c.count } })) ∧
      (c.busy = true → ∃ t, exec (.dmaRegWrite src d which v) s = .next t ∧ onlyDma s t ∧ (t.cvu.d[d]).err = true ∧
        (t.cvu.d[d]).src = c.src ∧ (t.cvu.d[d]).dst = c.dst ∧ (t.cvu.d[d]).count = c.count)) ∧
    (¬ (srcCode src = c.owner ∨ (srcCode src = 0x18 ∧ c.owner < 24)) → ∀ i ∈ [Instr.dmaStart src ⟨d, true⟩, .dmaStop src d],
      exec i s = .next (s.onCvu fun x => { x with d := x.d.upd d fun c => { c with result := 1 } })) ∧
    (c.busy = false ∨ fld c.cfg 9 8 = 0 → exec (.dmaRequest d) s = .next s) ∧
    (fld c.cfg 9 8 ≠ 0 → c.busy = true → c.burst = 0 → exec (.dmaRequest d) s = .next (s.onCvu fun x => { x with d := x.d.upd d fun c =>
      { c with burst := fld c.cfg 15 10 } })) ∧
    (fld c.cfg 9 8 ≠ 0 → c.busy = true → c.burst ≠ 0 → c.held = false → exec (.dmaRequest d) s = .next (s.onCvu fun x => { x with d := x.d.upd d fun c =>
      { c with held := true } })) ∧
    (fld c.cfg 9 8 ≠ 0 → c.busy = true → c.burst ≠ 0 → c.held = true → ∃ t, exec (.dmaRequest d) s = .next t ∧ (t.cvu.d[d]).ovr = true ∧ onlyDma s t)

/-- R354, R356 to R359: one element. Channels are served in ascending number. Between two places of the shared SRAM that the owner may load from and store to, its bytes arrive
whole at the destination, no other byte of any memory changes, the addresses advance and COUNT goes down; one for the FEED register of a
unit that the channel feeds is absorbed, of 1, 2 or 4 bytes, under the comparison of R353. The last element sets DONE and stops the
channel, or reloads it under CIRC, and ends the block of a fed unit: CTXE_WORD where enabled, MATCH against EXPECT, DONE. An element outside the
permitted ranges, or not aligned, is neither read nor written: the channel stops with ERR and its code.

The model's own choices that it rests on: log entry 65. -/
def Obligations.DmaElements : Prop :=
  ∀ (d : Fin 16) (agree : Bool) (s : State) (e : Fin 24),
    let c := s.cvu.d[d]
    let a := c.src.toNat
    let b := c.dst.toNat
    (dmaBefore d s = true → exec (.dmaElement d agree) s = .next s) ∧
    (c.busy = true → c.burst ≠ 0 → c.owner = e.val → dmaBefore d s = false →
      (Memory.wf s.mem = true → inShared a c.size = true → inShared b c.size = true → mayLoad s.mem e a c.size = true →
        mayStore s.mem e b c.size = true → a % c.size = 0 → b % c.size = 0 → eccAt s.mem 14 a = none → eccAt s.mem 14 b = none →
        (c.count = 1 → fedBy s d = [] → ∃ t, exec (.dmaElement d agree) s = .next t ∧ onlyDma s { t with mem := s.mem } ∧
          readBytes t.mem 14 b c.size = readBytes s.mem 14 a c.size ∧ (t.cvu.d[d]).done = true ∧ (t.cvu.d[d]).busy = bit c.cfg 4 ∧
          (bit c.cfg 4 = true → (t.cvu.d[d]).src = c.src0 ∧ (t.cvu.d[d]).dst = c.dst0 ∧ (t.cvu.d[d]).count = c.count0) ∧
          (bit c.cfg 4 = false → (t.cvu.d[d]).count = 0)) ∧
        (c.count ≠ 1 → c.count ≠ 0 →
        ∃ t, exec (.dmaElement d agree) s = .next t ∧ readBytes t.mem 14 b c.size = readBytes s.mem 14 a c.size ∧
          (∀ (f : Fin 24) (x : Nat), inShared x 1 = true → (x < b ∨ b + c.size ≤ x) → readByte t.mem f x = readByte s.mem f x) ∧
          t.mem.own = s.mem.own ∧ t.mem.keyStore = s.mem.keyStore ∧ Memory.wf t.mem = true ∧
          (t.cvu.d[d]).count = c.count - 1 ∧ (t.cvu.d[d]).busy = true ∧
          (t.cvu.d[d]).src = (if bit c.cfg 2 then c.src + BitVec.ofNat 32 c.size else c.src) ∧
          (t.cvu.d[d]).dst = (if bit c.cfg 3 then c.dst + BitVec.ofNat 32 c.size else c.dst) ∧
          t = { s with mem := t.mem, cvu := t.cvu } ∧ t.cvu.u = s.cvu.u ∧ (∀ f : Fin 16, f ≠ d → t.cvu.d[f] = s.cvu.d[f]))) ∧
      (∀ u : Fin 4, feedAt b = some u → u ∈ fedBy s d → inShared a c.size = true → mayLoad s.mem e a c.size = true →
        a % c.size = 0 → eccAt s.mem 14 a = none → (s.cvu.u[u]).st ≠ .closed →
        let x := s.cvu.u[u]
        let y := x.take (readBytes s.mem 14 a c.size) .opened
        let z := if bit x.cfg 9 then y.take (wordBytes x.ctxe) .closed else y
        (c.count ≠ 1 → c.count ≠ 0 → ∃ t, exec (.dmaElement d true) s = .next t ∧ t.cvu.u[u] = y ∧ (t.cvu.d[d]).count = c.count - 1 ∧
          (t.cvu.d[d]).busy = true ∧ onlyUnit u s t) ∧
        (c.count = 1 → ∃ t, exec (.dmaElement d true) s = .next t ∧
          t.cvu.u[u] = { z with match_ := if bit x.cfg 10 then z.read == x.expect else x.match_, done := true } ∧
          (t.cvu.d[d]).done = true ∧ (t.cvu.d[d]).busy = bit c.cfg 4 ∧ t.mem = s.mem ∧ t.sys = s.sys) ∧
        (s.live → ∃ t, exec (.dmaElement d false) s = .next t ∧ lockedOut 0x46 t ∧ t.mem = s.mem)) ∧
      (∀ code, dmaSrcBad s e a c.size = some code ∨ (dmaSrcBad s e a c.size = none ∧ dmaDstBad s e d b c.size = some code) →
        ∃ t, exec (.dmaElement d agree) s = .next t ∧ onlyDma s t ∧ (t.cvu.d[d]).busy = false ∧ (t.cvu.d[d]).err = true ∧
          (t.cvu.d[d]).code = code ∧ (t.cvu.d[d]).count = c.count ∧ (t.cvu.d[d]).src = c.src))

/-! ## Reports, log and background tests -/

/-- R369, R370: DIAG_CMD and the archive. CLEAR_ENTRY frees a counted-only, local or group entry (RESULT 0) and refuses a device, fatal
or stage one (RESULT 4); CLEAR_COUNTED frees every counted-only entry; an undefined command answers RESULT 5; the archive takes
every record not yet archived, while its flash has its clock.

R72, R371: background tests. A pass that finds nothing changes nothing; a word that can be corrected keeps its value, with good
check bits, and is reported; a word that cannot be
corrected in a memory of no safety core, a failed known answer, code that no longer matches its hash, and a test that is late
are device faults. Where the run state serves no host, none of them happens.

The model's own choices that it rests on: log entries 18, 40, 58 and 125. -/
def Obligations.Diagnostics : Prop :=
  (∀ (i : Fin 256) (cmd : BitVec 4) (s : State),
     let e := s.diag.rct[i]
     let answers := fun (row : Instr) (d : DiagS) => exec row s = .next (if ctrlServed s then { s with diag := d } else s)
     answers (.clearEntry i)
       (if e.valid = true ∧ (e.cls = .device ∨ e.cls = .fatal ∨ e.cls = .stage) then { s.diag with result := 4 }
        else { s.diag with rct := if e.valid then s.diag.rct.upd i fun _ => {} else s.diag.rct, result := 0 }) ∧
     answers .clearCounted
       { s.diag with
         rct := Tab.gen 256 fun j =>
           if (s.diag.rct[j]).valid = true ∧ (s.diag.rct[j]).cls = .counted then {} else s.diag.rct[j]
         result := 0 } ∧
     ((cmd = 0 ∨ 4 ≤ cmd.toNat) → answers (.diagUndefinedCmd cmd) { s.diag with result := 5 }) ∧
     (flashRuns s = false → exec .logArchive s = .next s) ∧
     (flashRuns s = true → ∃ m, answers .logArchive
         { s.diag with archive := m, archHead := (s.diag.archHead + s.diag.unarchived) % 163840, unarchived := 0 } ∧
       (s.diag.unarchived = 0 → m = s.diag.archive))) ∧
  (∀ (l : List (Fin 17 × Nat × Bool)) (m : Fin 17) (a : Nat) (c : Fin 4) (s : State),
     ((∀ x ∈ l, x.2.2 = false) → ∃ u, exec (.memoryPass l) s = .next u ∧ Fab { s with mem := u.mem } u ∧
        u.mem.own = s.mem.own ∧ u.mem.shared = s.mem.shared ∧ u.mem.keyStore = s.mem.keyStore) ∧
     exec (.memoryPass []) s = .next s ∧
     exec (.knownAnswer c true) s = .next s ∧
     (bit s.sout.hosting c.val = false → exec (.knownAnswer c false) s = .next s ∧ exec (.selftestLate (some c)) s = .next s) ∧
     (codeIntact s = true → exec .codeRehash s = .next s) ∧
     (ctrlServed s = false → exec (.memoryPass l) s = .next s ∧ exec (.knownAnswer c false) s = .next s ∧
       exec .codeRehash s = .next s ∧ exec (.selftestLate (some c)) s = .next s ∧ exec (.selftestLate none) s = .next s) ∧
     (ctrlServed s = true → s.live →
       (4 ≤ m.val → ∃ u, exec (.memoryPass [(m, a, true)]) s = .next u ∧ lockedOut 0x42 u ∧ u.mem.own = s.mem.own ∧
         u.mem.shared = s.mem.shared) ∧
       (bit s.sout.hosting c.val = true →
         ((s.eng.e[(engOf c)]).on = true → ∃ u, exec (.knownAnswer c false) s = .next u ∧ lockedOut 0x4B u ∧ u.mem = s.mem) ∧
         (∃ u, exec (.selftestLate (some c)) s = .next u ∧ lockedOut 0x4A u ∧ u.mem = s.mem)) ∧
       (∃ u, exec (.selftestLate none) s = .next u ∧ lockedOut 0x4A u ∧ u.mem = s.mem) ∧
       (codeIntact s = false → ∃ u, exec .codeRehash s = .next u ∧ lockedOut 0x4B u ∧ u.mem = s.mem)))

/-- R464, R465, R142, R474: the tension loop and the clock check. The setpoint rises one step while the rate is below target, falls one
after eight updates more than 15 above it, and never passes 28; an emergency raise is two steps, and at 28 it is the device
fault STEP_RATE_LOW; a clock check records CK-32K, and without PLL lock it is a device fault.

The model's own choices that it rests on: log entries 3 and 33. -/
def Obligations.TensionAndClocks : Prop :=
  ∀ (rate : BitVec 9) (sensor : BitVec 3) (proc hld dev : Byte) (run : Bool) (c : Fin 4) (s : State),
    let p := s.pwr
    let t := max 270 (fld p.tensionCfg 8 0)
    let same := fun (u : State) => u.sys = s.sys ∧ u.mem = s.mem ∧ u.sin = s.sin ∧ u.sout = s.sout ∧ u.hld = s.hld ∧ u.t = s.t
    (∃ u, exec (.tensionUpdate rate sensor proc hld) s = .next u ∧ same u ∧ u.pwr.tempProc = proc ∧ u.pwr.tempHld = hld ∧
      (tensionRuns s = false → u = { s with pwr := { s.pwr with tempProc := proc, tempHld := hld } }) ∧
      (tensionRuns s = true → u.pwr.minRate = rate ∧ u.pwr.raised = false ∧
        (p.raised = false → rate.toNat < t → u.pwr.setpoint.toNat = min 28 (p.setpoint.toNat + 1)) ∧
        (p.raised = false → t ≤ rate.toNat → rate.toNat ≤ t + 15 → u.pwr.setpoint.toNat = min 28 p.setpoint.toNat ∧ u.pwr.above = 0) ∧
        (p.raised = false → t + 15 < rate.toNat → p.above = 7 → u.pwr.setpoint.toNat = min 28 (p.setpoint.toNat - 1)))) ∧
    (tensionRuns s = true → rate.toNat < 260 →
      (p.setpoint ≠ 28 → ∃ u, exec (.stepRateRaise c rate) s = .next u ∧ same u ∧
        u.pwr.setpoint.toNat = min 28 (p.setpoint.toNat + 2) ∧ u.pwr.emergency = satInc p.emergency) ∧
      (p.setpoint = 28 → s.live → ∃ u, exec (.stepRateRaise c rate) s = .next u ∧ lockedOut 0x43 u ∧ u.mem = s.mem)) ∧
    (tensionRuns s = false ∨ 260 ≤ rate.toNat → exec (.stepRateRaise c rate) s = .next s) ∧
    (p.good = true → s.sys.clockWait = false → s.sys.runState ≠ .dormant → s.sys.runState ≠ .castOn →
      (p.pllLock = true → ∃ u, exec (.clockCheck dev run) s = .next u ∧ same u ∧ u.pwr.k32Run = run ∧ u.pwr.k32Dev = dev ∧
        u.pwr.ck32Drift = (!run || k32Off dev)) ∧
      (p.pllLock = false → s.live → ∃ u, exec (.clockCheck dev run) s = .next u ∧ lockedOut 0x49 u ∧ u.mem = s.mem)) ∧
    (p.good = false ∨ s.sys.clockWait = true ∨ s.sys.runState = .dormant ∨ s.sys.runState = .castOn →
      exec (.clockCheck dev run) s = .next s)

/-! ## The OTP fuse array -/

/-- No state of the block but the fuse array and what its alarms report differs. -/
def Sys2Proof.Machine.onlyOtp (s u : State) : Prop :=
  u.mem = s.mem ∧ u.sys = s.sys ∧ u.sin = s.sin ∧ u.sout = s.sout ∧ u.hld = s.hld ∧ u.pwr = s.pwr ∧ u.csl = s.csl ∧ u.csc = s.csc ∧
  u.alp = s.alp ∧ u.upd = s.upd ∧ u.t = s.t ∧ u.otp.shadow = s.otp.shadow

/-- R391, R392: the common refusals of the controller, in order: the run state (RESULT 2) for a command that needs one, the key
(RESULT 6), the temperature (RESULT 7), and a command already in progress (RESULT 5). A refused command changes nothing else but that
it ends an arming. A step of the boot core or update core is bound to neither state nor temperature, and waits for a command in progress
(R389, R391, R392).

R380, R386, R390, R392, R395, R397: commands that are accepted. Each is in progress with RESULT 1 until it ends. READ gives both margins
of the addressed word, zeros under a read lock; COMPUTE the check word of the region; STICKY sets its lock; ARM_FORCE arms the region for
FORCE_LOCK; PROGRAM programs the bits of OTP_DATA that read 0 and leaves every other word alone; the end of a command gives its
result, and an arming expires.

The model's own choices that it rests on: log entries 56, 57 and 142. -/
def Obligations.OtpCommands : Prop :=
  (∀ (src : Src) (key : Half) (p : PulseEnv) (s : State), reaches src s →
     let no := fun (r : BitVec 4) => { s with otp := { s.otp with armed := none, result := r } }
     let state := s.sys.runState = .safeHold ∨ s.sys.runState = .service
     (∀ i ∈ [Instr.program src key p, .lock src key p, .readLock src key p, .armForce src key, .forceLock src key p, .setMode src key p,
         .setPolicy src key p, .tapProgram src key p],
       (coreStep src = true ∨ state → key ≠ 0xB7E1 → exec i s = .next (no 6)) ∧
       (coreStep src = false → (¬ state → exec i s = .next (no 2)) ∧
         (state → key = 0xB7E1 → tempOk s = false → exec i s = .next (no 7)))) ∧
     (∀ i ∈ [Instr.otpRead src key, .compute src key, .sticky src key],
       (key ≠ 0xB7E1 → exec i s = .next (no 6)) ∧
       (coreStep src = false → (key = 0xB7E1 → tempOk s = false → exec i s = .next (no 7)) ∧
         (key = 0xB7E1 → tempOk s = true → s.otp.busy = true → exec i s = .next (no 5))) ∧
       (coreStep src = true → key = 0xB7E1 → s.otp.busy = true →
         ∃ u, exec i s = .next u ∧ u.otp.busy = true ∧ u.otp.result = 1 ∧ u.otp.ending = 0 ∧ onlyOtp s u))) ∧
  (∀ (src : Src) (p : PulseEnv) (s : State), reaches src s → (coreStep src = true ∨ tempOk s = true) → s.otp.busy = false → Sparse.wf {} s.otp.w = true →
     let o := s.otp
     let a := otpAddr o.region.val o.word
     let state := coreStep src = true ∨ s.sys.runState = .safeHold ∨ s.sys.runState = .service
     (∃ u, exec (.otpRead src 0xB7E1) s = .next u ∧ u = { s with otp := { o with
       armed := none, busy := true, result := 1, ending := 0
       readN := if bit o.rlock o.region.val then 0 else (o.fuse a).n, readT := if bit o.rlock o.region.val then 0 else (o.fuse a).t } }) ∧
     exec (.compute src 0xB7E1) s = .next { s with otp := { o with
       armed := none, busy := true, result := 1, ending := 0, check := o.checkWord o.region.val } } ∧
     exec (.sticky src 0xB7E1) s = .next { s with otp := { o with
       armed := none, busy := true, result := 1, ending := 0, sticky := setBit o.sticky o.region.val true } } ∧
     (state → lockCheck s = none → exec (.armForce src 0xB7E1) s = .next { s with otp := { o with
       armed := some o.region, busy := true, result := 1, ending := 0 } }) ∧
     (state → programCheck src s = none → ∃ u, exec (.program src 0xB7E1 p) s = .next u ∧ onlyOtp s u ∧ u.otp.busy = true ∧ u.otp.result = 1 ∧
       (u.otp.fuse a).n = ((o.fuse a).n ||| (o.data &&& ~~~p.blank)) ∧
       u.otp.ending = (if o.data &&& ~~~(u.otp.fuse a).n = 0 then 0 else 10) ∧
       (∀ b, b ≠ a → u.otp.fuse b = o.fuse b) ∧ u.otp.tapN = o.tapN ∧ u.otp.sticky = o.sticky) ∧
     (state → programCheck src s ≠ none → ∃ r, programCheck src s = some r ∧
       exec (.program src 0xB7E1 p) s = .next { s with otp := { o with armed := none, result := r } }) ∧
     exec .armForceExpiry s = .next { s with otp := { o with armed := none } } ∧
     exec .otpCommandDone s = .next s ∧
     (∃ u, exec .otpCommandDone { s with otp := { o with busy := true } } = .next u ∧
       u.otp = { o with busy := false, result := o.ending } ∧ onlyOtp s u))

/-- R394, R396 to R398, R383, R385: lock commands. LOCK checks the contents against word 127 (RESULT 4) and programs the write lock in both
copies of region 7; FORCE_LOCK needs the arming of the same region (RESULT 8) and skips the check; READ_LOCK, SET_MODE and SET_POLICY
program their bits in both copies; TAP_PROGRAM programs the three copies of the bit and its mirror. No other word changes.

The model's own choices that it rests on: log entries 56 and 57. -/
def Obligations.OtpLocks : Prop :=
  ∀ (src : Src) (p : PulseEnv) (s : State), reaches src s → (coreStep src = true ∨ tempOk s = true) → s.otp.busy = false → Sparse.wf {} s.otp.w = true →
    (coreStep src = true ∨ s.sys.runState = .safeHold ∨ s.sys.runState = .service) →
    let o := s.otp
    let r := o.region.val
    let no := fun (x : BitVec 4) => { s with otp := { o with armed := none, result := x } }
    let locks := fun (i : Instr) (w : Nat) (req : Word) => ∃ u, exec i s = .next u ∧ onlyOtp s u ∧ u.otp.busy = true ∧
      u.otp.result = 1 ∧ u.otp.armed = none ∧ u.otp.tapN = o.tapN ∧
      (u.otp.fuse (otpAddr 7 w)).n = ((o.fuse (otpAddr 7 w)).n ||| (req &&& ~~~p.blank)) ∧
      (u.otp.fuse (otpAddr 7 (w + 4))).n = ((o.fuse (otpAddr 7 (w + 4))).n ||| (req &&& ~~~p.blank)) ∧
      ∀ b, b ≠ otpAddr 7 w → b ≠ otpAddr 7 (w + 4) → u.otp.fuse b = o.fuse b
    (lockCheck s = none →
      (o.checkWord r = o.val r 127 → locks (.lock src 0xB7E1 p) 0 (BitVec.ofNat 32 (2 ^ r))) ∧
      (o.checkWord r ≠ o.val r 127 → exec (.lock src 0xB7E1 p) s = .next (no 4)) ∧
      (o.armed = some o.region → locks (.forceLock src 0xB7E1 p) 0 (BitVec.ofNat 32 (2 ^ r)))) ∧
    (o.armed ≠ some o.region → exec (.forceLock src 0xB7E1 p) s = .next (no 8)) ∧
    (r ≠ 1 → lockRights s r = true → bit o.sticky r = false → locks (.readLock src 0xB7E1 p) 1 (BitVec.ofNat 32 (2 ^ r))) ∧
    (s.sys.life ≠ .retired → 8 ≤ r →
      (o.wlocked r = false → locks (.setMode src 0xB7E1 p) 2 (at_ (fld o.data 1 0) (2 * r))) ∧
      locks (.setPolicy src 0xB7E1 p) 3 (at_ (fld o.data 1 0) (2 * r))) ∧
    (let b := fld o.addr 21 16
     (tapAllowed s b = false → exec (.tapProgram src 0xB7E1 p) s = .next (no 9)) ∧
     (tapAllowed s b = true → ∃ u, exec (.tapProgram src 0xB7E1 p) s = .next u ∧ onlyOtp s u ∧ u.otp.busy = true ∧
       (∀ c : Fin 3, bit (u.otp.tapN[c]) b = (bit (o.tapN[c]) b || !bit p.blank c.val) ∧
         ∀ k, k ≠ b → bit (u.otp.tapN[c]) k = bit (o.tapN[c]) k) ∧
       bit (u.otp.val 0 (b / 32)) (b % 32) = (bit (o.val 0 (b / 32)) (b % 32) || !bit p.blank 3) ∧
       ∀ x, x ≠ otpAddr 0 (b / 32) → u.otp.fuse x = o.fuse x))

/-- R37, R386 to R388, R397, R399: the background reread and the re-pulse service. A reread takes what the reads give, leaves every shadow
as it is, shows the locked regions that are incomplete, raises the alarm of every region with a cause, and keeps for the service the weak
bits that are meant to be programmed, no others; a re-pulse completes the tight margin of one weak bit, at most one per 10 ms, and gives
nothing while the controller is busy or the die is outside 0 to 60 °C.

The model's own choices that it rests on: log entries 56, 57 and 143. -/
def Obligations.OtpServices : Prop :=
  ∀ (d : List (Nat × Word × Word)) (p : PulseEnv) (i : Nat) (rest : List Nat) (s : State),
    (∃ u, exec (.fuseReread d) s = .next u ∧ onlyOtp s u ∧ u.otp.w = (applyDrift d s.otp).w ∧ u.otp.tapN = s.otp.tapN ∧
      (∀ r, r < 16 → bit u.otp.incomplete r = (applyDrift d s.otp).broken r) ∧
      (∀ i ∈ u.otp.weak, stillMeant (applyDrift d s.otp) i = true) ∧
      (∀ i ∈ weakAll (applyDrift d s.otp), stillMeant (applyDrift d s.otp) i = true → i ∈ u.otp.weak) ∧
      ∀ r, r < 16 → alarmCause (applyDrift d s.otp) r = true → bit u.otp.alarm r = true) ∧
    ((s.otp.busy = true ∨ tempOk s = false ∨ repulseDue s = false) → exec (.repulse p) s = .next s) ∧
    (s.otp.busy = false → tempOk s = true → (s.live ∨ s.sys.runState = .lockout) → Sparse.wf {} s.otp.w = true →
      i < 65536 → s.otp.weak = i :: rest → repulseDue s = true → stillMeant s.otp i = true →
      let f := s.otp.fuse (i / 32)
      let m := BitVec.ofNat 32 (2 ^ (i % 32))
      ∃ u, exec (.repulse p) s = .next u ∧ onlyOtp s u ∧ u.otp.fuse (i / 32) = { f with t := f.t ||| (m &&& f.n &&& ~~~p.weak) } ∧
        i ∉ u.otp.weak ∧ u.otp.repulseAt = some s.t.tbA ∧ (∀ a, a ≠ i / 32 → u.otp.fuse a = s.otp.fuse a) ∧
        ((u.otp.fuse (i / 32)).n &&& ~~~(u.otp.fuse (i / 32)).t &&& m ≠ 0 → bit u.otp.alarm (i / 32 / 128) = true)) ∧
    (s.otp.weak = [] → s.otp.tapTodo = [] → s.otp.copies = [] → s.otp.lockDebug = false → exec (.repulse p) s = .next s)

/-! ## Run states -/

/-- A command code of SYS_CTRL with a right key, accepted as a write: LAST_CMD and RESULT. -/
def Sys2Proof.Machine.answered (cmd result : Byte) (s : State) : State :=
  { s with sys := { s.sys with lastCmd := cmd, result := result } }

/-- The conditions of START (R42, R48). -/
def Sys2Proof.Machine.State.mayStart (s : State) : Prop :=
  s.sys.recovery = false ∧ s.sys.commitPending = false ∧ (s.sys.life = .commissioned ∨ s.sys.life = .serviceLocked) ∧
  s.upd.commissioned = some s.upd.code ∧ s.upd.running ≠ none ∧ s.sys.sealMatch = true ∧ s.sys.senseHold = false ∧
  s.sys.devPending = false

/-- The writes of SYS_CTRL, by their CMD code. -/
def Sys2Proof.Machine.ctrlRows (key : Half) (env : ReevalEnv) : List (Byte × Instr) :=
  [(1, .start key), (2, .hold key), (3, .serviceEnter key), (4, .serviceExit key env), (5, .sleep key), (6, .devRelease key env),
   (7, .reset key)]

/-- R8, R47 to R50, R53, R466: refusals of SYS_CTRL. A key that is wrong is RESULT 4 and changes nothing else; a command in a run state
that Table 2-3 does not name is RESULT 2; unmet conditions are RESULT 3 with the reason, a pending device fault among those of START;
for HOLD and SLEEP a device fault on its way to LOCKOUT is RESULT 6; what is not permitted, undefined codes among it, is RESULT 5; while the link serves no write nothing changes.

The model's own choices that it rests on: log entries 24, 35, 66 and 67. -/
def Obligations.ControlRefusals : Prop :=
  ∀ (key : Half) (cmd : Byte) (env : ReevalEnv) (s : State),
    (ctrlServed s = false → (∀ q ∈ ctrlRows key env, exec q.2 s = .next s) ∧ exec (.undefinedCmd key cmd) s = .next s) ∧
    (ctrlServed s = true →
      (key ≠ 0x6A5C → (∀ q ∈ ctrlRows key env, exec q.2 s = .next { s with sys := { s.sys with result := 4 } }) ∧
        ((cmd = 0 ∨ 8 ≤ cmd) → exec (.undefinedCmd key cmd) s = .next { s with sys := { s.sys with result := 4 } })) ∧
      ((cmd = 0 ∨ 8 ≤ cmd) → exec (.undefinedCmd 0x6A5C cmd) s = .next (answered cmd 5 s)) ∧
      (s.sys.runState ≠ .safeHold → exec (.start 0x6A5C) s = .next (answered 1 2 s) ∧
        exec (.serviceEnter 0x6A5C) s = .next (answered 3 2 s)) ∧
      (s.sys.devPending = false → s.sys.runState ≠ .run → exec (.hold 0x6A5C) s = .next (answered 2 2 s)) ∧
      (s.sys.devPending = true → exec (.hold 0x6A5C) s = .next (answered 2 6 s) ∧ exec (.sleep 0x6A5C) s = .next (answered 5 6 s)) ∧
      (s.sys.runState ≠ .service → exec (.serviceExit 0x6A5C env) s = .next (answered 4 2 s)) ∧
      (s.sys.runState ≠ .lockout → exec (.devRelease 0x6A5C env) s = .next (answered 6 2 s)) ∧
      (s.sys.runState = .safeHold → (s.sys.life = .serviceLocked ∨ s.sys.life = .retired ∨ s.sys.recovery = true) →
        exec (.serviceEnter 0x6A5C) s = .next (answered 3 5 s)) ∧
      (s.sys.runState = .safeHold → ¬ s.mayStart → ∃ r, r ≠ 0 ∧ r ≠ 7 ∧
        exec (.start 0x6A5C) s = .next { s with sys := { s.sys with lastCmd := 1, result := 3, holdReason := r } }) ∧
      (s.sys.devPending = false → s.sys.runState ≠ .safeHold → s.sys.runState ≠ .run → exec (.sleep 0x6A5C) s = .next
        { s with sys := { s.sys with lastCmd := 5, result := 2 }, pwr := { s.pwr with refuse := 1 } }) ∧
      (s.sys.devPending = false → (s.sys.runState = .safeHold ∨ s.sys.runState = .run) → ∀ r, sleepBar s = some r →
        exec (.sleep 0x6A5C) s = .next { s with sys := { s.sys with lastCmd := 5, result := 3 }, pwr := { s.pwr with refuse := r } }))

/-- R48 to R50, R53, R56: what SYS_CTRL starts. START enters RUN where all its conditions hold; should it start skeins whose engines
fail their checks, that is a device fault (R33, R38). HOLD begins the binding off, RUN goes on until every hosting core has passed a
release; SERVICE_ENTER enters SERVICE; SLEEP waits for the ends of scans; RESET waits for a commit under way. Outputs, inputs and
channel B are as before where no fault is met.

The model's own choices that it rests on: log entries 24 and 66. -/
def Obligations.ControlCommands : Prop :=
  ∀ (s : State), ctrlServed s = true →
    let same := fun (u : State) => u.sin = s.sin ∧ u.sout = s.sout ∧ u.hld = s.hld ∧ u.otp = s.otp ∧ u.t = s.t
    (s.sys.runState = .safeHold → s.mayStart →
      let begins := fun (p : Fin 4) => s.sys.ranOnce = false ∧ cscAbsent s = false ∧ (s.csc.p[p]).st = .off ∧
        bit (s.csc.p[p]).cfg 0 = true ∧ bit (s.csc.p[p]).cfg 1 = true
      let loads := bit s.pwr.domains 3 = true ∨ ((ceLoad s).eng.e[(12 : Fin 24)]).on = true
      (∀ p, begins p → ¬ loads → ∃ u, exec (.start 0x6A5C) s = .next u ∧ lockedOut 0x4B u ∧ (u.csc.p[p]).st = .off) ∧
      ((∀ p, ¬ begins p) ∨ loads → ∃ u, exec (.start 0x6A5C) s = .next u ∧ u.sys.runState = .run ∧ u.sys.result = 0 ∧
        u.sys.holdReason = 0 ∧ u.sys.ranOnce = true ∧ same u ∧ (s.sys.ranOnce = true → u.mem = s.mem))) ∧
    (s.sys.runState = .run → s.sys.devPending = false → s.sys.holding = false → s.sout.hosting ≠ 0 →
      exec (.hold 0x6A5C) s = .next { s with sys := { s.sys with
        lastCmd := 2, result := 1, holding := true, holdWhy := .command, holdPassed := 0, sealGone := false } }) ∧
    (s.sys.runState = .run → s.sys.devPending = false → s.sys.holding = true → exec (.hold 0x6A5C) s = .next (answered 2 1 s)) ∧
    (s.sys.runState = .safeHold → s.sys.life ≠ .serviceLocked → s.sys.life ≠ .retired → s.sys.recovery = false →
      ∃ u, exec (.serviceEnter 0x6A5C) s = .next u ∧ u.sys.runState = .service ∧ u.sys.result = 0 ∧ same u ∧ u.mem = s.mem ∧
        u.upd.armed = false) ∧
    (s.sys.devPending = false → (s.sys.runState = .safeHold ∨ s.sys.runState = .run) → sleepBar s = none →
      ∃ u, exec (.sleep 0x6A5C) s = .next u ∧ u = { s with sys := { s.sys with
        lastCmd := 5, result := 1, sleeping := true, sleepDone := u.sys.sleepDone } } ∧
        ∀ c : Fin 4, bit u.sys.sleepDone c.val = !(s.eng.c[c]).inScan) ∧
    (s.upd.commit ≠ none → exec (.reset 0x6A5C) s = .next { s with sys := { s.sys with lastCmd := 7, result := 1, resetWait := true } })

/-- R51, R52, R135 to R137, R177: re-evaluation. SERVICE_EXIT, and in LOCKOUT a device release that the headers permit, stop asserting
fault line A, clear channel B's latch and start every hosting core at INIT for CROSS; a changed code memory is a device
fault, a failed swatch is HALT, a pattern that does not verify is fatal.

The model's own choices that it rests on: log entries 22, 23, 25 and 26. -/
def Obligations.Reevaluation : Prop :=
  ∀ (env : ReevalEnv) (s : State), ctrlServed s = true → s.sys.reeval = false →
    let enters := fun (i : Instr) => ∃ u, exec i s = .next u ∧ u.sys.runState = s.sys.runState ∧ u.sys.stage = .cross ∧
      u.sys.reeval = true ∧ u.sys.result = 1 ∧ u.sys.lineA = false ∧ u.hld.devFault = false ∧ u.hld.h = true ∧
      (∀ c : Fin 4, bit s.sout.hosting c.val = true → (u.eng.e[(engOf c)]).on = true ∧ (u.eng.c[c]).initDone = false) ∧
      u.mem = s.mem ∧ u.sout = s.sout ∧ u.otp = s.otp
    (s.sys.runState = .service →
      (codeIntact s = true → swatchFails env.swatch = [] → env.storeOk = true → crcWords s.hld.store.dropLast = s.hld.loadCrc →
        enters (.serviceExit 0x6A5C env)) ∧
      (codeIntact s = true → swatchFails env.swatch ≠ [] → ∃ u, exec (.serviceExit 0x6A5C env) s = .next u ∧ halted 0x50 u ∧ u.mem = s.mem) ∧
      (codeIntact s = false → ∃ u, exec (.serviceExit 0x6A5C env) s = .next u ∧ lockedOut 0x4B u ∧ u.mem = s.mem) ∧
      (codeIntact s = true → swatchFails env.swatch = [] → env.storeOk = false → s.hld.fatal = false →
        ∃ u, exec (.serviceExit 0x6A5C env) s = .next u ∧ halted 0x10 u ∧ u.hld.fatal = true ∧ u.mem = s.mem)) ∧
    (s.sys.runState = .lockout →
      (bit (s.upd.hdr.getN 3 0) 1 = false ∨ bit (s.hld.hdr.getN 3 0) 3 = false →
        exec (.devRelease 0x6A5C env) s = .next (answered 6 5 s)) ∧
      (bit (s.upd.hdr.getN 3 0) 1 = true → bit (s.hld.hdr.getN 3 0) 3 = true → s.sys.devPending = false → codeIntact s = true →
        swatchFails env.swatch = [] → env.storeOk = true → crcWords s.hld.store.dropLast = s.hld.loadCrc → enters (.devRelease 0x6A5C env)))

/-! ## Power, clocks and sleep -/

/-- The device is held in reset (R459, R6): no switch closed and nothing demanded, no engine runs, the memories are wiped, and
only PD-AON, the fuses, the flash, the log archive and the settings store keep their values. -/
def Sys2Proof.Machine.heldReset (s u : State) : Prop :=
  u.allOff ∧ (∀ e : Fin 24, (u.eng.e[e]).on = false) ∧ (∀ k : Fin 16, (u.hld.out[k]).closed = false) ∧
  u.mem = {} ∧ u.otp.w = s.otp.w ∧ u.otp.tapN = s.otp.tapN ∧ u.otp.tapT = s.otp.tapT ∧
  u.otp.shadow = [] ∧ u.diag.archive = s.diag.archive ∧ u.diag.rct = Tab.fill 256 {} ∧ u.link.inc = s.link.inc ∧
  u.upd.store = s.upd.store ∧ u.upd.storeAt = s.upd.storeAt ∧ (s.upd.phase = .idle → u.upd.flash = s.upd.flash) ∧
  u.pending = s.pending

/-- R6, R53, R56, R57, R459, R460, R479: resets. Loss of power-good, of PD-AON, an asserted RESET_N and a host RESET hold the device;
power-good starts timebase A at zero, clears PD-AON after a loss of it (POR alone), and otherwise adds BROWNOUT; a release of
RESET_N adds PIN, and the cast-on waits for the clocks. A cast-on begins at TAP, and taps that do not resolve are HALT.

The model's own choices that it rests on: log entries 29, 48 and 58. -/
def Obligations.Resets : Prop :=
  ∀ (env : CastEnv) (s : State),
    (s.pwr.good = true →
      (∃ u, exec .powerGoodLoss s = .next u ∧ heldReset s u ∧ u.pwr.good = false ∧ u.sys.cause = s.sys.cause) ∧
      (∃ u, exec .aonLoss s = .next u ∧ heldReset s u ∧ u.pwr.good = false ∧ u.pwr.aonLost = true) ∧
      (s.pwr.resetN = false → ∃ u, exec .resetNAssert s = .next u ∧ heldReset s u ∧ u.pwr.resetN = true ∧ u.pwr.good = true ∧
        u.sys.cause = s.sys.cause ||| 4) ∧
      (s.pwr.resetN = true → ∃ u, exec .resetNRelease s = .next u ∧ u.pwr.resetN = false ∧ u.sys.cause = s.sys.cause ||| 4 ∧
        u.sys.clockWait = true ∧ u.t.tbA = 0 ∧ u.mem = s.mem ∧ u.sout = s.sout ∧ u.otp = s.otp) ∧
      (s.pwr.resetN = false → s.sys.clockWait = true → env.stuck = some 1 → ∃ u, exec (.xtalReady env) s = .next u ∧
        u.sys.runState = .castOn ∧ u.sys.stage = .tap ∧ u.sys.clockWait = false ∧ u.sys.castOns = satInc s.sys.castOns ∧
        u.pwr.xtalOk = true ∧ u.pwr.pllLock = true ∧ u.t.runA = true ∧ u.t.cyc = 0 ∧ heldReset s u) ∧
      (s.pwr.resetN = false → s.sys.clockWait = true → env.stuck = none → tapResolves s.otp = false →
        ∃ u, exec (.xtalReady env) s = .next u ∧ halted 0x50 u ∧ u.mem = {} ∧ u.otp.w = s.otp.w) ∧
      exec (.powerGood env) s = .next s) ∧
    (s.pwr.good = false →
      (s.pwr.resetN = true → ∃ u, exec (.powerGood env) s = .next u ∧ u.pwr.good = true ∧ u.pwr.aonLost = false ∧ u.t.tbA = 0 ∧
        u.t.runA = true ∧ u.mem = s.mem ∧ u.sout = s.sout ∧ u.otp = s.otp ∧
        u.sys.cause = (if s.pwr.aonLost then 1 else s.sys.cause ||| 2)) ∧
      (s.pwr.resetN = false → env.stuck = some 1 → ∃ u, exec (.powerGood env) s = .next u ∧ u.pwr.good = true ∧ u.t.tbA = 0 ∧
        u.sys.runState = .castOn ∧ u.sys.stage = .tap ∧ u.sys.cause = (if s.pwr.aonLost then 1 else s.sys.cause ||| 2) ∧
        u.mem = {} ∧ u.allOff ∧ u.otp.w = s.otp.w) ∧
      exec .powerGoodLoss s = .next s) ∧
    (ctrlServed s = true → s.upd.commit = none → ∃ u, exec (.reset 0x6A5C) s = .next u ∧ heldReset s u ∧ u.sys.clockWait = true ∧
      u.sys.cause = s.sys.cause ||| 8 ∧ u.sys.lastState = BitVec.ofNat 4 s.sys.runState.code)

/-- R218, R460, R463, R474, R516: supplies and clocks. A field supply that fails locks out the outputs of its bank, and without either
the field domain is off and every level presents low until it is back and checked; VLOGIC_HIGH is a status bit only; a failed
regulator or clock and a failed check are device faults; in DORMANT a supply that changes wakes no task and waits for the wake (R32); a lost clock stops timebase A and PLL lock brings it back.

The model's own choices that it rests on: log entries 3 and 113. -/
def Obligations.SuppliesAndClocks : Prop :=
  ∀ (n : Fin 2) (meas : BitVec 10) (high xtal : Bool) (s : State),
    let keeps := fun (u : State) => u.sys = s.sys ∧ u.mem = s.mem ∧ u.otp = s.otp ∧ u.upd = s.upd ∧ u.csl = s.csl ∧ u.csc = s.csc
    (s.pwr.vlogicHigh = high → exec (.vlogicHigh high) s = .next s) ∧
    (s.pwr.vlogicHigh ≠ high → ∃ u, exec (.vlogicHigh high) s = .next u ∧ u.pwr = { s.pwr with
        vlogicHigh := high, supplyEv := s.pwr.supplyEv || s.sys.runState == .dormant } ∧ keeps u ∧
      u.sout = s.sout ∧ u.hld = s.hld ∧ u.sin = s.sin) ∧
    (s.pwr.good = true → s.sys.clockWait = false → s.pwr.resetN = false → s.sys.runState ≠ .dormant → s.pwr.vf1 = true →
      s.pwr.vf2 = true → s.sout.bankCond[n] = false →
      ∃ u, exec (.supplyPresentChange ⟨n.val, by omega⟩ false meas) s = .next u ∧ keeps u ∧ u.sout.bankCond[n] = true ∧
        (u.pwr.vf1, u.pwr.vf2) = (if n = 0 then (false, true) else (true, false)) ∧ u.pwr.domains = s.pwr.domains ∧
        (∀ k : Fin 16, bankOf k = n → bit (s.sout.o[k]).cfg 0 = true →
          (u.sout.o[k]).causes.any (fun c => c.1 == .bankSupply) = true) ∧
        (∀ k : Fin 16, bankOf k ≠ n → (u.sout.o[k]).causes = (s.sout.o[k]).causes)) ∧
    (s.pwr.good = true → s.sys.clockWait = false → s.pwr.resetN = false → s.sys.runState ≠ .dormant → s.pwr.vf1 = true →
      s.pwr.vf2 = false → bit s.pwr.domains 7 = true → ∃ u, exec (.supplyPresentChange 0 false meas) s = .next u ∧ keeps u ∧ u.pwr.vf1 = false ∧
        bit u.pwr.domains 7 = false ∧ (∀ k : Fin 16, (u.sout.o[k]).rb = false) ∧ ∀ m : Fin 32, (u.sin.i[m]).present = false) ∧
    (s.pwr.good = true → s.sys.runState = .dormant → s.pwr.vf1 = true → ∃ u, exec (.supplyPresentChange 0 false meas) s = .next u ∧
      u.pwr = { s.pwr with vf1 := false, vf1Meas := meas, supplyEv := true } ∧ keeps u ∧ u.sout = s.sout ∧ u.hld = s.hld ∧
      u.sin = s.sin ∧ u.eng = s.eng) ∧
    (pastLoad s = true → s.pwr.vf1 = true → bit s.pwr.domains 7 = false → exec .pdFdigReturn s = .next { s with
      pwr := { s.pwr with domains := setBit s.pwr.domains 7 true }, sin := { s.sin with checking := true } }) ∧
    (s.sin.checking = false → exec (.pdFdigCheckEnd high) s = .next s) ∧
    (s.sin.checking = true →
      (∃ u, exec (.pdFdigCheckEnd true) s = .next u ∧ u.sin.checking = false ∧ keeps u ∧ (∀ k : Fin 16, (u.sout.o[k]).width = 0 ∧
        ((u.sout.o[k]).goodSince = none ∨ (u.sout.o[k]).goodSince = some s.t.tbA))) ∧
      (s.live → ∃ u, exec (.pdFdigCheckEnd false) s = .next u ∧ lockedOut 0x4B u ∧ u.mem = s.mem)) ∧
    (s.pwr.good = true → s.sys.clockWait = false → s.pwr.resetN = false → s.live →
      (∃ u, exec .hldRegulatorFault s = .next u ∧ lockedOut 0x48 u ∧ u.hld.h = true ∧ (∀ k : Fin 16, (u.hld.out[k]).closed = false) ∧
        (∀ p : Fin 4, (u.hld.gate[p]).tx = false) ∧ u.mem = s.mem) ∧
      (s.pwr.pllLock = true → ∃ u, exec (.clockFail xtal) s = .next u ∧ lockedOut 0x49 u ∧ u.pwr.pllLock = false ∧
        u.pwr.xtalOk = !xtal ∧ u.t = { s.t with runA := false } ∧ u.mem = s.mem) ∧
      (s.pwr.pllLock = false → ∃ u, exec .pllLockRegained s = .next u ∧ u.pwr.pllLock = true ∧ u.t = { s.t with runA := true } ∧
        keeps u ∧ u.sout = s.sout ∧ u.hld = s.hld))

/-- R50, R466 to R471: sleep and wake. Entry is judged once more at the end of the scans; checkers that disagree on the CLOSE
telegrams end it with CSL_CHECK (R288), else it opens every switch of both channels, switches
five domains off, forms the bank checks and latches timebase A. A source that is active at the moment of entry wakes at once, and a
wake records the lowest cause code of its CK-32K period. A wake whose checks pass ends in SAFE-HOLD, with timebase A gone on by the
counted periods; one whose checks fail, a word that DORMANT has changed among them, is a cast-on with cause WAKE_FAIL.

The model's own choices that it rests on: log entries 3, 39, 84, 107, 113, 145 and 146. -/
def Obligations.Dormancy : Prop :=
  ∀ (w : WakeEnv) (d : Fin 10) (s : State),
    (s.sys.sleeping = true → scansEnded s = true → (s.sys.runState = .safeHold ∨ s.sys.runState = .run) →
      let differ := closeFails (Config.writeEnv s.fresh).agree s
      (sleepBar s = none → ∃ u, exec .dormantEntry s = .next u ∧
        (differ = true → s.live → lockedOut 0x45 u ∧ u.mem = s.mem) ∧
        (differ = false → activeSource s = none → u.sys.runState = .dormant ∧ u.sys.sleeping = false ∧
          u.t.runA = false ∧ u.t.tbA = s.t.tbA ∧ u.pwr.dormantA = s.t.tbA ∧ u.pwr.domains = s.pwr.domains &&& 0x037 ∧
          u.hld.h = true ∧ (∀ k : Fin 16, (u.hld.out[k]).closed = false ∧ (u.sout.o[k]).swa = false) ∧
          (∀ e : Fin 16, u.mem.own[e] = if e = 12 ∨ e = 13 then [] else s.mem.own[e]) ∧ u.mem.shared = s.mem.shared ∧
          u.mem.keyStore = s.mem.keyStore ∧ u.pwr.bankSums = bankSums u.mem ∧ u.pwr.pllLock = false ∧ u.otp = s.otp) ∧
        (∀ q, differ = false → activeSource s = some q → s.pwr.good = true → s.pwr.resetN = false →
          u.pwr.wakeCause = wakeCode q.1 q.2 s ∧ (u.sys.runState = .safeHold ∨ u.sys.clockWait = true))) ∧
      (∀ r, sleepBar s = some r → exec .dormantEntry s = .next { s with
        sys := { s.sys with sleeping := false, result := 3 }, pwr := { s.pwr with refuse := r } })) ∧
    (s.sys.sleeping = false ∨ scansEnded s = false → exec .dormantEntry s = .next s) ∧
    (let level := fun (c : Fin 6) => s.pwr.wakeOn.upd c fun _ => if w.ends then none else some w
     w.ends = true ∨ s.sys.runState ≠ .dormant →
       exec (.wakePin w) s = .next { s with pwr := { s.pwr with wakeOn := level 1 } } ∧
       exec (.canWake w) s = .next { s with pwr := { s.pwr with wakeOn := level 4 } } ∧
       (w.ends = true → exec (.k32Lost w) s = .next { s with pwr := { s.pwr with wakeOn := level 5 } }) ∧
       (w.ends = false → ∃ u, exec (.k32Lost w) s = .next u ∧ u.pwr = { s.pwr with wakeOn := level 5, k32Run := false } ∧
         u.sys = s.sys ∧ u.mem = s.mem ∧ u.hld = s.hld ∧ u.sout = s.sout)) ∧
    (∀ c : BitVec 3, wakeCode c w s ≤ c ∧ (∀ x ∈ w.also, wakeEnabled s x = true → wakeCode c w s ≤ x) ∧
      (wakeCode c w s = c ∨ wakeCode c w s ∈ w.also.filter (wakeEnabled s))) ∧
    (s.sys.runState = .dormant → s.pwr.good = true → s.pwr.resetN = false → w.ends = false →
      let ok := wakeOk w { s with mem := upsetMem w.upset s.mem }
      (∀ q ∈ [((1 : BitVec 3), Instr.wakePin w), (5, .k32Lost w)],
        (ok = true → ∃ u, exec q.2 s = .next u ∧ u.sys.runState = .safeHold ∧ u.sys.stage = .none ∧ u.pwr.wakeCause = wakeCode q.1 w s ∧
          u.t.tbA = s.pwr.dormantA + BitVec.ofNat 64 (w.periods * 390625 / 64) ∧ u.t.runA = true ∧ u.pwr.setpoint = 28 ∧
          u.hld.h = true ∧ u.mem = upsetMem w.upset s.mem ∧ u.otp = s.otp) ∧
        (ok = false → ∃ u, exec q.2 s = .next u ∧ heldReset s u ∧ u.sys.cause = s.sys.cause ||| 0x40 ∧
          u.sys.clockWait = true ∧ u.pwr.wakeCause = wakeCode q.1 w s)) ∧
      (ok = true → bit s.pwr.wakeCfg 0 = true → s.pwr.wakeTimer ≠ 0 → s.pwr.wakeTimer.toNat ≤ w.periods → ∃ u, exec (.wakeTimer w) s = .next u ∧
        u.sys.runState = .safeHold ∧ u.pwr.wakeCause = wakeCode 2 w s ∧ u.mem = upsetMem w.upset s.mem) ∧
      (ok = true → bit s.pwr.wakeCfg 2 = true → ∃ u, exec (.canWake w) s = .next u ∧
        u.sys.runState = .safeHold ∧ u.pwr.wakeCause = wakeCode 4 w s ∧ u.mem = upsetMem w.upset s.mem) ∧
      (bit s.pwr.wakeCfg 2 = false → exec (.canWake w) s = .next { s with pwr := { s.pwr with wakeOn := s.pwr.wakeOn.upd 4 fun _ => some w } }) ∧
      exec (.retentionSupplyDip d) s = .next { s with pwr := { s.pwr with lost := setBit s.pwr.lost d.val true } }) ∧
    (w.periods < s.pwr.wakeTimer.toNat → exec (.wakeTimer w) s = .next s) ∧
    (s.sys.runState ≠ .dormant → exec (.wakeTimer w) s = .next s ∧
      exec (.retentionSupplyDip d) s = .next s)

/-! ## Commissioning and life-cycle -/

/-- R412 to R416, R428: arming, the seal and the COMMIT edge. COMMISSION_ARM arms for the code where every condition of Table 16-7 holds and
answers the first unmet one otherwise; CANCEL and expiry end the arming; a seal value that has been read unchanged is counted and
compared, and a match lost in RUN carries out HOLD; a counted edge with arming and match starts the commit, any other only is logged, in every run state but
DORMANT.

The model's own choices that it rests on: log entries 3, 151 and 152. -/
def Obligations.Commissioning : Prop :=
  ∀ (src : Src) (key : Half) (v : BitVec 12) (w : WakeEnv) (s : State),
    let same := fun (u : State) => u.mem = s.mem ∧ u.sout = s.sout ∧ u.hld = s.hld ∧ u.otp = s.otp ∧ u.t = s.t
    (ctrlServed s = true →
      (key ≠ 0x9E3D → ∀ i ∈ [Instr.commissionArm src key, .commissionCancel src key],
        exec i s = .next { s with upd := { s.upd with result := if foreignLease s src then 3 else 4 } }) ∧
      (armBar s = none → ∃ u, exec (.commissionArm src 0x9E3D) s = .next u ∧ u.upd = { s.upd with armed := true, armedAt := s.t.tbA, result := 0 } ∧
        u.sys = s.sys ∧ same u) ∧
      (∀ r, armBar s = some r → exec (.commissionArm src 0x9E3D) s = .next { s with upd := { s.upd with result := r } }) ∧
      (s.upd.owner = 0 → ∃ u, exec (.commissionCancel src 0x9E3D) s = .next u ∧ u.upd = { s.upd with armed := false, result := 0 } ∧
        u.sys = s.sys ∧ same u) ∧
      (s.upd.armed = true → s.sys.sealMatch = true → s.upd.commit = none → trialOver s = false → exec (.commitEdge w) s = .next { s with upd := { s.upd with
        armed := false, trialTime := if s.upd.trial && s.upd.rule then none else s.upd.trialTime
        commit := some { idx := s.otp.commCount, first := s.sys.life == .uncommissioned } } }) ∧
      ((s.upd.armed = false ∨ s.sys.sealMatch = false ∨ trialOver s = true) → ∃ u, exec (.commitEdge w) s = .next u ∧ u.upd = s.upd ∧ u.sys = s.sys ∧ same u)) ∧
    (ctrlServed s = false → s.sys.runState ≠ .dormant → s.pwr.good = true → s.sys.clockWait = false → s.pwr.resetN = false →
      exec (.commitEdge w) s = .next (raise 123 (logPut 4 .counted 0 0x0013 0 s)) ∧
        ∃ u, exec (.commitEdge w) s = .next u ∧ u.upd = s.upd ∧ u.sys = s.sys ∧ same u ∧ bit u.evt.pend 123 = true) ∧
    (s.sys.runState ≠ .dormant → (s.pwr.good = false ∨ s.sys.clockWait = true) → exec (.commitEdge w) s = .next s) ∧
    ((s.upd.armed = false ∨ past s s.upd.armedAt 120000000 = false) → exec .commissionArmExpiry s = .next s) ∧
    (s.upd.armed = true → past s s.upd.armedAt 120000000 = true → ∃ u, exec .commissionArmExpiry s = .next u ∧ u.upd = { s.upd with armed := false } ∧ u.sys = s.sys ∧ same u) ∧
    (s.sys.runState = .dormant → bit s.pwr.wakeCfg 1 = false → exec (.commitEdge w) s = .next s) ∧
    (s.sys.runState = .dormant → bit s.pwr.wakeCfg 1 = true → s.pwr.good = true → s.pwr.resetN = false →
      wakeOk w { s with mem := upsetMem w.upset s.mem } = true →
      ∃ u, exec (.commitEdge w) s = .next u ∧ u.sys.runState = .safeHold ∧ u.pwr.wakeCause = wakeCode 3 w s ∧
        u.upd.commit = s.upd.commit ∧ u.mem = upsetMem w.upset s.mem) ∧
    (s.pwr.good = true → s.sys.clockWait = false → s.pwr.resetN = false → s.sys.runState ≠ .dormant →
      (v ≠ s.pwr.sealRead → exec (.sealRead v) s = .next { s with pwr := { s.pwr with sealRead := v, sealSame := 0 } }) ∧
      (v = s.pwr.sealRead → 4 ≤ s.pwr.sealSame → s.upd.running ≠ none →
        let hit := v == s.upd.code.truncate 12
        ∃ u, exec (.sealRead v) s = .next u ∧ u.pwr.sealValue = v ∧ u.sys.sealMatch = hit ∧ u.mem = s.mem ∧ u.otp = s.otp ∧
          (s.sout.hosting ≠ 0 → same u) ∧
          (hit = false → s.sys.sealMatch = true → u.upd.armed = false) ∧
          (hit = false → s.sys.sealMatch = true → s.sys.runState = .run → s.sys.holding = false → s.sout.hosting ≠ 0 →
            u.sys.holding = true ∧ u.sys.holdWhy = .seal ∧ u.sys.runState = .run) ∧
          (hit = false → s.sys.sealMatch = true → s.sys.runState = .run → s.sys.holding = true →
            u.sys.holding = true ∧ u.sys.holdWhy = s.sys.holdWhy ∧ u.sys.sealGone = true ∧ u.sys.runState = .run)))

/-- R54, R55, R60, R393, R428, R429: the steps of a commit and of a change of life-cycle. The intent is written and the counter's next bit is
programmed; a first commissioning then programs its life-cycle bit and casts on with cause LIFECYCLE at the end; a commit whose
step did not burn ends without one; steps wait while the flash has no clock (R34); a retry completes a commit whose step is sound; a change that R428 does not list is RESULT 5.

The model's own choices that it rests on: log entries 36, 37, 119 and 125. -/
def Obligations.CommitSteps : Prop :=
  ∀ (p : PulseEnv) (c : Commit) (m : Marker) (src : Src) (s : State), Sparse.wf {} s.otp.w = true →
    let a := otpAddr 5 (c.idx / 32)
    let burned := bit (s.otp.fuse a).n (c.idx % 32)
    (s.upd.commit = none → s.upd.confirming = false → exec (.commitStepDue p) s = .next s) ∧
    (flashRuns s = false → exec (.commitStepDue p) s = .next s ∧ exec (.commitRetry p) s = .next s) ∧
    (s.upd.commit = some c → flashRuns s = true →
      (c.phase = 0 → c.idx = s.otp.commCount → c.idx < 512 → compactDue s.upd = false → bit s.otp.sticky 5 = false → ∃ u, exec (.commitStepDue p) s = .next u ∧
        u.upd.commit = some { c with phase := 1 } ∧ bit (u.otp.fuse a).n (c.idx % 32) = (burned || !bit p.blank (c.idx % 32)) ∧
        (∀ b, b ≠ a → u.otp.fuse b = s.otp.fuse b) ∧ u.sys = s.sys ∧ u.mem = s.mem ∧ u.sout = s.sout ∧ u.hld = s.hld) ∧
      (c.phase = 1 → c.first = false → exec (.commitStepDue p) s = .next { s with upd := { s.upd with commit := some { c with phase := 2 } } }) ∧
      (c.phase = 2 → burned = true → c.first = true → s.sys.resetWait = false → s.upd.trial = false → ∃ u, exec (.commitStepDue p) s = .next u ∧
        u.upd.commit = none ∧ u.sys.clockWait = true ∧ u.sys.cause = s.sys.cause ||| 0x10 ∧ u.allOff ∧ u.otp.w = s.otp.w ∧
        u.mem = {}) ∧
      (c.phase = 2 → burned = false → s.sys.resetWait = false → ∃ u, exec (.commitStepDue p) s = .next u ∧ u.upd.commit = none ∧
        u.sys.runState = s.sys.runState ∧ u.otp = s.otp ∧ u.mem = s.mem ∧ u.sout = s.sout ∧ u.hld = s.hld)) ∧
    ((s.sys.commitPending = false ∨ s.sys.runState ≠ .safeHold) → exec (.commitRetry p) s = .next s) ∧
    (s.sys.commitPending = true → s.sys.runState = .safeHold → flashRuns s = true → (s.upd.trial && s.upd.rule) = false → openCommit (journal s.upd) = some m → m.step = (c.idx, false) →
      burned = true → bit (s.otp.fuse a).weakBits (c.idx % 32) = false → ∃ u, exec (.commitRetry p) s = .next u ∧
        u.sys.commitPending = false ∧ u.sys.runState = .safeHold ∧ u.otp = s.otp ∧ u.mem = s.mem ∧ u.sout = s.sout) ∧
    (ctrlServed s = true → holdsLease s src = true →
      let t := { s with upd := { s.upd with leaseAt := s.t.tbA } }
      (s.sys.runState ≠ .safeHold → s.sys.runState ≠ .service → exec (.lifecycle src 0x9E3D p) s = .next { t with upd := { t.upd with result := 2 } }) ∧
      ((s.sys.runState = .safeHold ∨ s.sys.runState = .service) →
        (s.upd.arg ≠ 5 → lifeStep s s.upd.arg.toNat = none → exec (.lifecycle src 0x9E3D p) s = .next { t with upd := { t.upd with result := 5 } }) ∧
        (s.upd.arg = 5 → s.upd.retireAt = none → exec (.lifecycle src 0x9E3D p) s = .next { t with upd := { t.upd with
          result := 0, retireAt := some s.t.tbA } }) ∧
        (∀ first, s.upd.arg = 5 → s.upd.retireAt = some first → since s first ≤ 2000000000 → ∃ u, exec (.lifecycle src 0x9E3D p) s = .next u ∧
          u.sys.clockWait = true ∧ u.sys.cause = s.sys.cause ||| 0x10 ∧ u.mem = {} ∧ u.allOff) ∧
        (s.upd.arg = 2 → s.sys.life = .provisioned → s.otp.count 3 0 1 = 1 →
          (∀ r ∈ [1, 2, 6], s.otp.wlocked r = true ∧ s.otp.broken r = false) → bit p.blank 1 = false → bit s.otp.sticky 3 = false →
          ∃ u, exec (.lifecycle src 0x9E3D p) s = .next u ∧ u.sys.clockWait = true ∧ u.sys.cause = s.sys.cause ||| 0x10 ∧
            bit (u.otp.fuse (otpAddr 3 0)).n 1 = true ∧ u.allOff)))

/-! ## Update -/

/-- No state but that of the update block and what its events and log records reach differs. -/
def Sys2Proof.Machine.onlyUpd (s u : State) : Prop :=
  u.mem = s.mem ∧ u.sys = s.sys ∧ u.sin = s.sin ∧ u.sout = s.sout ∧ u.hld = s.hld ∧ u.otp = s.otp ∧ u.csl = s.csl ∧ u.csc = s.csc ∧
  u.alp = s.alp ∧ u.t = s.t

/-- R422, R423: the update lease. A right key claims it where it is free and nothing bars it, and a source that no lease code names is RESULT
2 (log entry 124); only its owner releases it; when it ends, an
update that has not been activated leaves its target invalid.

The model's own choices that it rests on: log entries 3, 32 and 124. -/
def Obligations.UpdateLease : Prop :=
  ∀ (src : Src) (key : Half) (s : State), ctrlServed s = true →
    let res := fun (r : BitVec 4) => { s with upd := { s.upd with leaseResult := r } }
    (key ≠ 0x3C91 → exec (.leaseClaim src key) s = .next (res 4) ∧ exec (.leaseRelease src key) s = .next (res 4)) ∧
    (leaseCode src = 0 → exec (.leaseClaim src 0x3C91) s = .next (res 2)) ∧
    (leaseCode src ≠ 0 → (s.upd.owner ≠ 0 ∨ s.upd.armed = true ∨ confirmBusy s = true) → exec (.leaseClaim src 0x3C91) s = .next (res 1)) ∧
    (leaseCode src ≠ 0 → s.upd.owner = 0 → s.upd.armed = false → confirmBusy s = false → ∃ u, exec (.leaseClaim src 0x3C91) s = .next u ∧
      u.upd = { s.upd with owner := leaseCode src, leaseAt := s.t.tbA, phase := .idle, leaseResult := 0 } ∧ onlyUpd s u) ∧
    (holdsLease s src = false → exec (.leaseRelease src 0x3C91) s = .next (res 3)) ∧
    (holdsLease s src = true → ∃ u, exec (.leaseRelease src 0x3C91) s = .next u ∧ u.upd.owner = 0 ∧ u.upd.leaseResult = 0 ∧ u.upd.phase = .idle ∧
      (s.upd.phase ≠ .idle → (u.upd.slot.getN (s.upd.target.toNat % 3) {}).valid = false) ∧ (s.upd.phase = .idle → u.upd.flash = s.upd.flash) ∧
      onlyUpd s u) ∧
    ((s.upd.owner = 0 ∨ past s s.upd.leaseAt 30000000 = false) → exec .leaseTimeout s = .next s) ∧
    (s.upd.owner ≠ 0 → past s s.upd.leaseAt 30000000 = true → ∃ u, exec .leaseTimeout s = .next u ∧ u.upd.owner = 0 ∧ u.upd.phase = .idle ∧ onlyUpd s u)

/-- R422, R424: the update commands and their order. A source without the lease that another holds is RESULT 3, a wrong key else RESULT
4, and a source without the lease RESULT 3; BEGIN erases its
target, which is invalid from then on; words arrive in order at the write offset, and beyond the length or the area they end the update with
RESULT 9;
VERIFY needs every byte, and its end keeps or drops the image by its first failing check; ACTIVATE needs a verified image and
casts on with cause UPDATE; ABORT ends the lease. What needs the flash waits, or is RESULT 2, while it has no clock (R34).

The model's own choices that it rests on: log entries 44, 61, 124 and 125. -/
def Obligations.UpdateCommands : Prop :=
  ∀ (src : Src) (key : Half) (target : BitVec 2) (p : PulseEnv) (words : List Word) (s : State), ctrlServed s = true →
    let t := { s with upd := { s.upd with leaseAt := s.t.tbA } }
    let res := fun (r : BitVec 4) => { s with upd := { s.upd with result := r } }
    (∀ i ∈ [Instr.updBegin src key target, .verify src key, .activate src key p, .abort src key, .lifecycle src key p],
      (key ≠ 0x9E3D → exec i s = .next (res (if foreignLease s src then 3 else 4))) ∧ (key = 0x9E3D → holdsLease s src = false → exec i s = .next (res 3))) ∧
    (holdsLease s src = false → exec (.windowWrite src words) s = .next (res 3)) ∧
    (holdsLease s src = true →
      (s.upd.phase ≠ .erasing → s.upd.phase ≠ .verifying →
        (flashRuns s = false → exec (.updBegin src 0x9E3D target) s = .next { t with upd := { t.upd with result := 2 } }) ∧
        (flashRuns s = true → target = 3 → exec (.updBegin src 0x9E3D target) s = .next { t with upd := { t.upd with result := 5 } }) ∧
        (flashRuns s = true → target.toNat < 2 → s.upd.running ≠ some target → s.upd.trial = false → s.upd.arg.toNat ≤ 0x600000 →
          ∃ u, exec (.updBegin src 0x9E3D target) s = .next u ∧ onlyUpd s u ∧ u.upd.phase = .erasing ∧ u.upd.result = 1 ∧ u.upd.target = target ∧
            u.upd.offset = 0 ∧ (u.upd.slot.getN target.toNat {}).valid = false ∧
            (∀ a, (areaOf target.toNat).1 ≤ a → a < (areaOf target.toNat).1 + 0x600000 → flashAt u.upd.flash a = 0xFF) ∧
            (∀ e ∈ s.upd.flash, (e.1 < (areaOf target.toNat).1 ∨ (areaOf target.toNat).1 + 0x600000 ≤ e.1) → e ∈ u.upd.flash))) ∧
      (s.upd.phase = .receiving → flashRuns s = true →
        let room := min s.upd.arg.toNat (areaOf s.upd.target.toNat).2
        (room < s.upd.offset.toNat + 4 * (words.take 64).length → ∃ u, exec (.windowWrite src words) s = .next u ∧ u.upd.result = 9 ∧
          u.upd.owner = 0 ∧ u.upd.phase = .failed ∧ onlyUpd s u) ∧
        (s.upd.offset.toNat + 4 * (words.take 64).length ≤ room → exec (.windowWrite src words) s = .next { t with upd := { t.upd with
          flash := flashWrite ((areaOf s.upd.target.toNat).1 + s.upd.offset.toNat) ((words.take 64).flatMap wordBytes) s.upd.flash
          offset := s.upd.offset + BitVec.ofNat 32 (4 * (words.take 64).length) } }) ∧
        (s.upd.offset = s.upd.arg → exec (.verify src 0x9E3D) s = .next { t with upd := { t.upd with phase := .verifying, result := 1 } }) ∧
        (s.upd.offset ≠ s.upd.arg → exec (.verify src 0x9E3D) s = .next { t with upd := { t.upd with result := 5 } })) ∧
      (s.upd.phase ≠ .receiving ∨ flashRuns s = false → exec (.verify src 0x9E3D) s = .next { t with upd := { t.upd with result := 2 } } ∧
        exec (.windowWrite src words) s = .next { t with upd := { t.upd with result := 2 } }) ∧
      (s.upd.phase ≠ .verified ∨ flashRuns s = false → exec (.activate src 0x9E3D p) s = .next { t with upd := { t.upd with result := 2 } }) ∧
      (s.upd.phase = .verified → flashRuns s = true → compactDue s.upd = false → s.upd.target.toNat < 2 → (s.sys.runState = .safeHold ∨ s.sys.runState = .service) →
        readImage s.upd.flash s.upd.target.toNat ≠ none → ∃ u, exec (.activate src 0x9E3D p) s = .next u ∧ u.sys.clockWait = true ∧
          u.sys.cause = s.sys.cause ||| 0x20 ∧ u.allOff ∧ u.mem = {} ∧ u.otp.w = s.otp.w) ∧
      (∃ u, exec (.abort src 0x9E3D) s = .next u ∧ u.upd.owner = 0 ∧ u.upd.result = 0 ∧ u.upd.phase = .idle ∧ onlyUpd s u)) ∧
    (s.upd.phase = .erasing → flashRuns s = true → ∃ u, exec .eraseDone s = .next u ∧ u.upd = { s.upd with phase := .receiving, result := 0 } ∧ onlyUpd s u) ∧
    (s.upd.phase ≠ .erasing ∨ flashRuns s = false → exec .eraseDone s = .next s) ∧
    (s.upd.phase = .verifying → flashRuns s = true →
      let n := (firstChecks s s.upd.target.toNat).2
      ∃ u, exec .verifyEnd s = .next u ∧ onlyUpd s u ∧ u.upd.result = (if n = 0 then 0 else if n ≤ 3 then 6 else if n = 4 then 7 else 8) ∧
        u.upd.phase = (if n = 0 then .verified else .failed) ∧ (n ≠ 0 → u.upd.owner = 0)) ∧
    (s.upd.phase ≠ .verifying ∨ flashRuns s = false → exec .verifyEnd s = .next s)

/-- R418 to R420, R426, R447: trials and settings. CONFIRM_HEALTH answers RESULT 13 while a lease is held or a commit or confirmation runs and
RESULT 2 outside RUN on trial; an expiry in RUN carries out HOLD first and elsewhere casts on with cause UPDATE; a settings commit
writes the record of the settings in force registers, one at a time, and is RESULT 3 where the flash does not answer. CONFIRM_HEALTH is
the host's or an integrator slot's; any other source is ignored.

The model's own choices that it rests on: log entries 3, 37, 58, 119, 120 and 125. -/
def Obligations.TrialsAndSettings : Prop :=
  ∀ (src : Src) (key : Half) (p : PulseEnv) (s : State),
    let res := fun (r : BitVec 4) => { s with upd := { s.upd with result := r } }
    (ctrlServed s = true →
      (key ≠ 0x9E3D → exec (.confirmHealth src key p) s = .next (res (if foreignLease s src then 3 else 4))) ∧
      (mayConfirm s src = false → exec (.confirmHealth src 0x9E3D p) s = .next s) ∧
      (mayConfirm s src = true → (s.upd.owner ≠ 0 ∨ confirmBusy s = true) → exec (.confirmHealth src 0x9E3D p) s = .next (res 13)) ∧
      (mayConfirm s src = true → s.upd.owner = 0 → confirmBusy s = false → (s.sys.runState ≠ .run ∨ s.upd.trial = false ∨ s.upd.rule = true ∨
        trialOver s = true) → exec (.confirmHealth src 0x9E3D p) s = .next (res 2)) ∧
      (mayConfirm s src = true → s.upd.owner = 0 → confirmBusy s = false → s.sys.runState = .run → s.upd.trial = true → s.upd.rule = false →
        trialOver s = false → ∃ u, exec (.confirmHealth src 0x9E3D p) s = .next u ∧ u.upd.result = (if u.upd.confirming then 1 else 0) ∧
          (compactDue s.upd = false → u.sys = s.sys ∧ u.mem = s.mem ∧ u.sout = s.sout ∧ u.hld = s.hld ∧
          ∀ m, openConfirm (journal (startConfirm s).upd) = some m →
            (∀ i : Fin 3, min 256 (bytesHalf ((m.payload.drop (2 * i.val)).take 2)).toNat ≤ s.otp.arb i.val) →
            u.upd.confirming = false ∧ u.upd.trial = false ∧ u.upd.trialTime = none ∧ u.otp = s.otp)) ∧
      (key ≠ 0x5E77 → exec (.settingsCommit key) s = .next s) ∧
      ((confirmBusy s = true ∨ s.link.setBusy = true) → exec (.settingsCommit 0x5E77) s = .next { s with link := { s.link with setResult := 2 } }) ∧
      (confirmBusy s = false → s.link.setBusy = false → exec (.settingsCommit 0x5E77) s = .next { s with
        link := { s.link with setBusy := true, setResult := 1 } })) ∧
    (s.link.setBusy = false → exec .settingsCommitDone s = .next s) ∧
    (s.link.setBusy = true → flashRuns s = false → ∃ u, exec .settingsCommitDone s = .next u ∧
      u.link = { s.link with setBusy := false, setResult := 3 } ∧ u.upd = s.upd ∧ u.sys = s.sys ∧ u.mem = s.mem ∧ u.sout = s.sout) ∧
    (s.link.setBusy = true → flashRuns s = true → ∃ u, exec .settingsCommitDone s = .next u ∧ u.link = { s.link with setBusy := false, setResult := 0 } ∧
      u.upd = { s.upd.keep (.settings ((s.upd.hdr.getN 5 0).truncate 16) s.link.set) with newSet := false } ∧
      u.upd.settings = some ((s.upd.hdr.getN 5 0).truncate 16, s.link.set) ∧
      u.sys = s.sys ∧ u.mem = s.mem ∧ u.sout = s.sout) ∧
    ((trialOver s = false ∨ confirmBusy s = true) → exec .trialExpiry s = .next s) ∧
    (trialOver s = true → confirmBusy s = false →
      (s.sys.runState = .run → s.sout.hosting ≠ 0 → ∃ u, exec .trialExpiry s = .next u ∧ u.sys.holding = true ∧ u.sys.holdWhy = .trial ∧
        u.sys.runState = .run ∧ u.mem = s.mem ∧ u.upd = s.upd ∧ u.sout = s.sout) ∧
      ((s.sys.runState = .safeHold ∨ s.sys.runState = .service ∨ s.sys.runState = .lockout) → flashRuns s = false →
        exec .trialExpiry s = .next { s with sys := { s.sys with fallDue := true } }) ∧
      ((s.sys.runState = .safeHold ∨ s.sys.runState = .service ∨ s.sys.runState = .lockout) → flashRuns s = true → ∃ u, exec .trialExpiry s = .next u ∧
        u.sys.clockWait = true ∧ u.sys.cause = s.sys.cause ||| 0x20 ∧ u.allOff ∧ u.otp.w = s.otp.w))

/-! ## Host link, registers and network -/

/-- The requests of the host link, by command byte (Table 17-2). -/
def Sys2Proof.Machine.linkRows (f : Frame) : List (Byte × Instr) :=
  [(0xA1, .readFrame f), (0xA2, .writeFrame f), (0xA4, .statusFrame f), (0xA8, .leaseFrame f)]

/-- R433 to R438, R441, R444: a request is judged in order. A silent device answers nothing; a bad check code is NAK 0x81 and counted, a request
that equals the last executed one is answered from the stored response, and a bad format, run state or address is NAK 0x82, 0x84 or
0x83, without any effect; an aborted transaction is counted, after a request that was complete has been executed.

The model's own choices that it rests on: log entries 35 and 59. -/
def Obligations.LinkChecks : Prop :=
  ∀ (f : Frame) (cmd : Byte) (s : State),
    let answer := fun (b : List Byte) (s : State) => { s with link := { s.link with resp := s.link.resp.upd 0 fun _ => b } }
    let rows := linkRows f
    (linkSilent s = true → (∀ q ∈ rows, exec q.2 s = .next (answer [] s)) ∧ exec (.transactionAbort none) s = .next s ∧
      (knownCmd cmd = false → exec (.unknownFrame cmd f) s = .next (answer [] s))) ∧
    (linkSilent s = false →
      exec (.transactionAbort none) s = .next { s with link := { s.link with errAborted := satInc s.link.errAborted } } ∧
      (∀ b g, let t := (serve 0 b true g s).2
        linkSilent t = false → exec (.transactionAbort (some (b, g))) s = .next { t with link := { t.link with
          errAborted := satInc t.link.errAborted } }) ∧
      (∀ q ∈ rows,
        (crcGood s 0 q.1 f = false → ∃ u, exec q.2 s = .next u ∧ u.link.errCrc = satInc s.link.errCrc ∧
          (u.link.resp[0]).head? = some 0x81 ∧ u.sys = s.sys ∧ u.mem = s.mem ∧ u.upd = s.upd ∧ u.otp = s.otp ∧ u.sout = s.sout) ∧
        (crcGood s 0 q.1 f = true →
          ((s.link.retry[0]).valid = true → (s.link.retry[0]).seq = f.seq → (s.link.retry[0]).crc = f.crc →
            exec q.2 s = .next (answer (s.link.retry[0]).resp s)) ∧
          ((s.link.retry[0]).valid = false →
            (formatGood 0 q.1 f = false → ∃ u, exec q.2 s = .next u ∧ (u.link.resp[0]).head? = some 0x82 ∧
              u.link = { s.link with errFormat := satInc s.link.errFormat, resp := u.link.resp } ∧ u = { s with link := u.link }) ∧
            (formatGood 0 q.1 f = true → stateGood s q.1 f = false → ∃ u, exec q.2 s = .next u ∧ (u.link.resp[0]).head? = some 0x84 ∧
              u = answer (u.link.resp[0]) s) ∧
            (formatGood 0 q.1 f = true → stateGood s q.1 f = true → addrGood 0 q.1 f = false → ∃ u, exec q.2 s = .next u ∧
              (u.link.resp[0]).head? = some 0x83 ∧ u = answer (u.link.resp[0]) s)))) ∧
      (knownCmd cmd = false → crcGood s 0 cmd f = true → (s.link.retry[0]).valid = false → ∃ u, exec (.unknownFrame cmd f) s = .next u ∧
        (u.link.resp[0]).head? = some 0x82 ∧ u.link.errFormat = satInc s.link.errFormat ∧ u.sys = s.sys ∧ u.mem = s.mem))

/-- R434 to R436, R438, R439: requests that pass every check. STATUS answers the status, the incarnation, the reset cause and the interrupt word; a
read of one register answers its value and clears what a read clears; a write of one register is that register's write; LEASE acts
as UPD_LEASE. Each answer begins with status 0 and is kept for a retry.

The model's own choices that it rests on: log entries 59 and 70. -/
def Obligations.LinkRequests : Prop :=
  ∀ (f : Frame) (s : State), linkSilent s = false → (s.link.retry[0]).valid = false →
    let ok := fun (cmd : Byte) => crcGood s 0 cmd f = true ∧ formatGood 0 cmd f = true ∧ stateGood s cmd f = true ∧ addrGood 0 cmd f = true
    let done := fun (i : Instr) (cmd : Byte) (ws : List Word) (t : State) => ∃ u, exec i s = .next u ∧
      u.link.resp[0] = respBytes (linkCtx s 0 cmd f.seq) 0 f ws t ∧
      u.link.retry[0] = ⟨true, f.seq, f.crc, u.link.resp[0]⟩ ∧
      u = { t with link := { t.link with resp := u.link.resp, retry := u.link.retry } }
    (ok 0xA4 → done (.statusFrame f) 0xA4 [sysStatus s, at_ s.link.inc.toNat 0, sysCause s, irqWord s] s) ∧
    (ok 0xA1 → f.count = 1 → done (.readFrame f) 0xA1 [regVal false f.addr.toNat s] (regClear f.addr.toNat s)) ∧
    (ok 0xA2 → f.count = 1 → f.addr ≠ 0x064280 → f.addr ≠ 0x0A1000 →
      linkSilent (writeReg .host f.addr.toNat (bytesWord f.payload) s) = false →
      done (.writeFrame f) 0xA2 [] (writeReg .host f.addr.toNat (bytesWord f.payload) s)) ∧
    (ok 0xA8 → (bytesWord f.payload).toNat % 4 = 1 → s.upd.owner = 0 → s.upd.armed = false → confirmBusy s = false →
      ∃ u, exec (.leaseFrame f) s = .next u ∧ u.upd.owner = 1 ∧ u.upd.leaseResult = 0 ∧ (u.link.resp[0]).head? = some 0 ∧
        u.sys = s.sys ∧ u.mem = s.mem)

/-- R57, R389, R422, R439, R444, R449, R451, R454, R469: registers that only hold what is written, and words that ignore writes. A register takes the
bits that it has and nothing else changes; a word outside every block, an address that is not whole, and a register that a service
path may not write, take nothing; a mailbox word raises its event; an event flag is cleared by writing 1. An engine writes only what Table 17-9 gives it, a safety core
nothing, and a DMA channel what its owner may (R451).

The model's own choices that it rests on: log entries 61, 137 and 138. -/
def Obligations.RegisterWrites : Prop :=
  ∀ (a : BitVec 24) (v : Word) (n : Fin 32) (k : Fin 4) (s : State),
    (ctrlServed s = true →
      exec (.registerWrite .host 0x000018 v) s = .next { s with sys := { s.sys with cause := s.sys.cause &&& ~~~(v.truncate 7) } } ∧
      exec (.registerWrite .host 0x000424 v) s = .next { s with link := { s.link with set := { s.link.set with reqId := v } } } ∧
      exec (.registerWrite .host 0x090030 v) s = .next { s with otp := { s.otp with addr := v &&& 0x3F0F7F } } ∧
      exec (.registerWrite .host 0x090034 v) s = .next { s with otp := { s.otp with data := v } } ∧
      exec (.registerWrite .host 0x0B0020 v) s = .next { s with pwr := { s.pwr with wakeCfg := v &&& 0xF } } ∧
      exec (.registerWrite .host 0x0B0024 v) s = .next { s with pwr := { s.pwr with wakeTimer := v } } ∧
      exec (.registerWrite .host 0x071004 v) s = (if cscAbsent s then .next s else
        .next { s with csc := { s.csc with pairSn := (s.csc.pairSn.extractLsb' 32 16 : Half) ++ v } }) ∧
      (s.upd.owner = 0 → exec (.registerWrite .host 0x0A0008 v) s = .next { s with upd := { s.upd with arg := v } }) ∧
      (s.upd.owner ≠ 0 → s.upd.owner ≠ 1 → exec (.registerWrite .host 0x0A0008 v) s = .next { s with upd := { s.upd with result := 3 } }) ∧
      (0x0D0000 ≤ a ∨ a.toNat % 4 ≠ 0 → exec (.registerWrite .host a v) s = .next s) ∧
      (serviceMay a.toNat = false → exec (.registerWrite .eth a v) s = .next s ∧ exec (.registerWrite .can a v) s = .next s) ∧
      (∃ u, exec (.mbxWrite n v) s = .next u ∧ u.link = { s.link with mbx := u.link.mbx } ∧ bit u.evt.pend 6 = true ∧
        (∀ i : Fin 64, u.link.mbx[i] = if i.val = n.val then v else s.link.mbx[i]) ∧ u.sys = s.sys ∧ u.mem = s.mem ∧ u.sout = s.sout) ∧
      (∃ u, exec (.evtPendClear k v) s = .next u ∧ u = { s with evt := { s.evt with pend := u.evt.pend } } ∧
        ∀ i : Fin 128, bit u.evt.pend i.val = (bit s.evt.pend i.val && !(i.val / 32 == k.val && bit v (i.val % 32))))) ∧
    (∀ e : Fin 24, clsOf e = .sc ∨ hregWrites s e a.toNat = false → exec (.registerWrite (.engine e) a v) s = .next s) ∧
    (dmaWriter a.toNat s = none ∨ (∃ e, dmaWriter a.toNat s = some e ∧ hregWrites s e a.toNat = false) →
      exec (.registerWrite .dma a v) s = .next s) ∧
    (ctrlServed s = false → exec (.registerWrite .host a v) s = .next s ∧ exec (.mbxWrite n v) s = .next s ∧
      exec (.evtPendClear k v) s = .next s)

/-- R298, R445, R446, R448, R452: the network. A datagram or frame goes to the first that takes it, an integrator queue of eight among them, and
raises EV13 there; a remote frame and one that nobody takes are ignored; a SEND whose identifier or port is reserved is discarded and
counted, whatever the controller does, and any other takes the staged frame in a form that ISO 11898-1 has; changes of the link and of the error state are kept.

The model's own choices that it rests on: log entries 52, 59, 77, 114 and 139. -/
def Obligations.Network : Prop :=
  ∀ (n : Fin 2) (d : Datagram) (f : CanFrame) (agree up : Bool) (e : CanErr) (q : NetQuery) (s : State),
    let same := fun (u : State) => u.sys = s.sys ∧ u.mem = s.mem ∧ u.sin = s.sin ∧ u.sout = s.sout ∧ u.hld = s.hld ∧ u.otp = s.otp ∧
      u.csc = s.csc ∧ u.upd = s.upd
    (ethOn s n = false → exec (.ethDatagramRx n d agree) s = .next s) ∧
    (ethOn s n = true → d.own ≠ s.csl.udpPort → svcPort s ≠ some d.own →
      (s.link.udpPort[n] = some d.own → (s.link.ethRx[n]).length < 8 → d.data.length ≤ 240 → ∃ u, exec (.ethDatagramRx n d agree) s = .next u ∧
        u.link = { s.link with ethRx := s.link.ethRx.upd n fun q => q ++ [d] } ∧ bit u.evt.pend 13 = true ∧ same u ∧ u.csl = s.csl) ∧
      (s.link.udpPort[n] ≠ some d.own ∨ 8 ≤ (s.link.ethRx[n]).length ∨ 240 < d.data.length → exec (.ethDatagramRx n d agree) s = .next s)) ∧
    (d.own = s.csl.udpPort → d.frag = true → exec (.ethDatagramRx n d agree) s = .next s) ∧
    (ethOn s n = true → d.own = s.csl.udpPort → d.frag = false → cslAwake s = true →
      (∀ m : Fin 256, ¬ ((s.csl.s[m]).present = true ∧ (s.csl.s[m]).transport = 0)) →
      ∃ u, exec (.ethDatagramRx n d true) s = .next u ∧ u.csl = { s.csl with unknown := s.csl.unknown.upd 0 satInc } ∧ same u) ∧
    ((canOn s n = false ∨ f.rtr = true ∨ s.link.canErr[n] = .busOff) → exec (.canFrameRx n f agree) s = .next s) ∧
    (canOn s n = true → f.rtr = false → s.link.canErr[n] ≠ .busOff → canSession s n f = false → canService s n f = false →
      ((s.link.accept[n]).contains (idWord f.ext f.id) = true → (s.link.canRx[n]).length < 8 → ∃ u, exec (.canFrameRx n f agree) s = .next u ∧
        u.link = { s.link with canRx := s.link.canRx.upd n fun q => q ++ [f] } ∧ bit u.evt.pend 13 = true ∧ same u ∧ u.csl = s.csl) ∧
      ((s.link.accept[n]).contains (idWord f.ext f.id) = false → exec (.canFrameRx n f agree) s = .next s)) ∧
    ((netOn s = false ∨ s.link.ethUp[n] = up) → exec (.ethLinkChange n up) s = .next s) ∧
    (netOn s = true → s.link.ethUp[n] ≠ up → ∃ u, exec (.ethLinkChange n up) s = .next u ∧
      u.link = { s.link with ethUp := s.link.ethUp.upd n fun _ => up } ∧ bit u.evt.pend 9 = true ∧ same u) ∧
    (canOn s n = true → s.link.canErr[n] ≠ e → ∃ u, exec (.canErrorState n e) s = .next u ∧
      u.link = { s.link with canErr := s.link.canErr.upd n fun _ => e } ∧ bit u.evt.pend 10 = true ∧ same u) ∧
    (s.link.canErr[n] ≠ .busOff → exec (.canBusOffRecovery n) s = .next s) ∧
    (canOn s n = true → s.link.canErr[n] = .busOff → ∃ u, exec (.canBusOffRecovery n) s = .next u ∧
      u.link = { s.link with canErr := s.link.canErr.upd n fun _ => .active } ∧ same u) ∧
    (let g := { s.link.canTx[n] with data := fitBytes s.link.canLen[n] (s.link.canTx[n]).data }
     let off := s.link.txBusy[(Fin.ofNat 4 n.val)] = true ∨ canOn s n = false ∨ s.link.canErr[n] = .busOff
     let out := canForm s n g
     (reservedId s (idWord g.ext g.id) = true → exec (.frameSend false n) s = .next { s with link := { s.link with errSlot := satInc s.link.errSlot } }) ∧
     (reservedId s (idWord g.ext g.id) = false → off → exec (.frameSend false n) s = .next s) ∧
     (reservedId s (idWord g.ext g.id) = false → ¬ off → ∃ u, exec (.frameSend false n) s = .next u ∧ u.link.canOut.head? = some (n, out) ∧
       (u.link.txBusy[(Fin.ofNat 4 n.val)]) = true ∧ same u ∧ u.link.ethOut = s.link.ethOut) ∧
     out.ext = g.ext ∧ out.id = g.id ∧ out.fd = g.fd ∧
     (g.fd = false → out.brs = false ∧ out.data = g.data.take 8) ∧
     (g.fd = true → g.data.length ≤ 64 → g.data.length ≤ out.data.length ∧ out.data.take g.data.length = g.data ∧
       (out.data.length ≤ 8 ∨ out.data.length ∈ canLengths)) ∧
     (fld s.link.act.can[n] 15 8 = 0 → out.brs = false)) ∧
    (reservedPort s (s.link.ethTx[n]).port = true → exec (.frameSend true n) s = .next { s with link := { s.link with errSlot := satInc s.link.errSlot } }) ∧
    (reservedPort s (s.link.ethTx[n]).port = false → (s.link.txBusy[(Fin.ofNat 4 (2 + n.val))]) = true ∨ ethOn s n = false →
      exec (.frameSend true n) s = .next s) ∧
    ((s.link.txBusy[(Fin.ofNat 4 (2 + n.val))]) = true →
      ∃ u, exec (.frameSent true n) s = .next u ∧ (u.link.txBusy[(Fin.ofNat 4 (2 + n.val))]) = false ∧ bit u.evt.pend 14 = true ∧ same u) ∧
    exec (.framePop true n) s = .next { s with link := { s.link with ethRx := s.link.ethRx.upd n fun q => q.drop 1 } } ∧
    exec (.framePop false n) s = .next { s with link := { s.link with canRx := s.link.canRx.upd n fun q => q.drop 1 } } ∧
    ((ethOn s n = false ∨ (match q with | .arp t => t | .echo t _ => t) ≠ s.link.act.ip[n]) → exec (.arpIcmpFrameRx n q) s = .next s) ∧
    (ethOn s n = true → (match q with | .arp t => t | .echo t _ => t) = s.link.act.ip[n] → ∃ u, exec (.arpIcmpFrameRx n q) s = .next u ∧
      u.link.netOut.head? = some (n, macOf s n, q) ∧ u = { s with link := { s.link with netOut := u.link.netOut } })

/-! ## The machine -/

/-- R85 to R87, R95, R132, R133, R514 and Tables 3-5 and 3-6: traps. A value of lane 1 that a disturbance
changes in one pass, a fetch outside the code window, a word that is no instruction, a field that must be 0 and is not, a failed check bit, a divisor of 0 and a step
limit each stop the instruction without any of its effects. A twin-pass safety core stops, drops
what it staged, and the device enters LOCKOUT; a stitch or carrier engine or a split hart goes on at its handler, and a trap inside the
handler is a device fault. An engine that executes nothing does nothing, and an instruction executes only where its word stands.

The model's own choices that it rests on: log entries 11, 75 and 126. -/
def Obligations.Traps : Prop :=
  ∀ (i : Issue) (d a b : WReg) (s : State),
    let e := i.eng
    let c := coreOf e
    let t := taskOf s e
    let word : Half := BitVec.ofNat 16 ((pcOf s e).toNat / 4)
    let stopped := fun (code : Byte) (u : State) => lockedOut 0x41 u ∧ (u.eng.e[e]).on = false ∧ (u.eng.c[c]).trapped = true ∧
      (u.eng.c[c]).cause = code ∧ (u.eng.c[c]).word = word ∧ (u.eng.c[c]).staged = [] ∧ (u.eng.e[e]).bankS = (s.eng.e[e]).bankS ∧
      (u.eng.e[e]).bankT = (s.eng.e[e]).bankT ∧ u.mem = s.mem
    let handled := fun (cause : Cause) (u : State) => (u.eng.e[e]).inTrap = true ∧ (u.eng.e[e]).pc[t] = (s.eng.e[e]).handler ∧
      (u.eng.e[e]).trapc = trapWord cause t (pcOf s e) ∧ (u.eng.e[e]).bankS = (s.eng.e[e]).bankS ∧ u.mem = s.mem ∧ u.sys = s.sys ∧
      u.sout = s.sout ∧ u.hld = s.hld
    let add := encAlu d a b 0x000
    let divu := encMul d a b 0x005
    let sound := tslReady s e = true ∧ i.dis = [] ∧ (twin e = true → purlPcOf s e = ~~~(pcOf s e)) ∧ testFull s e (stepsOf i 18 18) = false
    (tslReady s e = false → exec (.add i d a b) s = .next s) ∧
    (fetchCause i s = none → wordIs add (codeWord s e) = .other → exec (.add i d a b) s = .next s) ∧
    (twin e = true → s.live →
      (∀ m : Word, tslClear { i with dis := [] } add 1 1 [a, b] [] s → i.dis = [⟨1, 1, m⟩] → m ≠ 0 →
        ∃ u, exec (.add i d a b) s = .next u ∧ stopped 0x01 u ∧
          (fld (s.eng.c[c]).mmLane 2 0 = 0 → fld (u.eng.c[c]).mmLane 2 0 = 1 ∧
            (u.eng.c[c]).mmKnit = (if i.inKnit then (wGet s e a + wGet s e b) ^^^ m else wGet s e a + wGet s e b) ∧
            (u.eng.c[c]).mmPurl = (if i.inKnit then wGet s e a + wGet s e b else (wGet s e a + wGet s e b) ^^^ m))) ∧
      (sound → inCode s.mem e (pcOf s e).toNat 4 = false → ∃ u, exec (.add i d a b) s = .next u ∧ stopped 0x07 u) ∧
      (sound → fetchCause i s = none →
        (usedBits (codeWord s e) = none → ∃ u, exec (.add i d a b) s = .next u ∧ stopped 0x04 u) ∧
        (codeWord s e ≠ add → (∃ m, usedBits (codeWord s e) = some m ∧ codeWord s e &&& m = add) → rfBad s e [a, b] [] = false →
          ∃ u, exec (.add i d a b) s = .next u ∧ stopped 0x04 u) ∧
        (codeWord s e = add → rfBad s e [a, b] [] = true → ∃ u, exec (.add i d a b) s = .next u ∧ stopped 0x02 u) ∧
        (codeWord s e = divu → rfBad s e [a, b] [] = false → wGet s e b = 0 →
          ∃ u, exec (.divu i d a b) s = .next u ∧ stopped 0x0A u) ∧
        (codeWord s e = add → rfBad s e [a, b] [] = false → passesLimit s e (stepsOf i 1 1) = true →
          ∃ u, exec (.add i d a b) s = .next u ∧ stopped 0x0C u))) ∧
    (sound → (clsOf e = .hart ∨ clsOf e = .se ∨ clsOf e = .ce) → fetchCause i s = none → codeWord s e = divu →
      rfBad s e [a, b] [] = false → wGet s e b = 0 →
      ((s.eng.e[e]).inTrap = false → ∃ u, exec (.divu i d a b) s = .next u ∧ handled .divzero u) ∧
      ((s.eng.e[e]).inTrap = true → s.live → ∃ u, exec (.divu i d a b) s = .next u ∧ lockedOut 0x42 u ∧
        (u.eng.e[e]).task = none ∧ u.mem = s.mem))

/-- A step takes the command at the front of the queue, with the rest left waiting; on an empty queue the block idles, and timebase A counts one
tick where it runs (the model's choice, log entry 2). -/
def Obligations.StepRunsFront : Prop :=
  (∀ (c : Instr) (rest : List Instr) (s : State), s.pending = c :: rest → step s = exec c { s with pending := rest }) ∧
  (∀ s : State, s.pending = [] → ∃ u, step s = .next u ∧ u = { s with t := { s.t with tbA := u.t.tbA } } ∧
    u.t.tbA = (if s.pwr.good = true ∧ s.t.runA = true then s.t.tbA + 1 else s.t.tbA))

/-- The state at reset, before the first power-good: no output is demanded or closed, no engine runs, the memories are empty, the tap bits are
restrictive, and the registers with a reset value other than 0 hold it (Tables of files 07 to 18).

The model's own choices that it rests on: log entries 1 and 7. -/
def Obligations.ResetValues : Prop :=
  State.reset.allOff ∧ (∀ e : Fin 24, (State.reset.eng.e[e]).on = false) ∧ (∀ k : Fin 16, (State.reset.hld.out[k]).closed = false) ∧
  State.reset.sys.runState = .castOn ∧ State.reset.sys.stage = .tap ∧ State.reset.sys.cause = 1 ∧ State.reset.pending = [] ∧
  State.reset.otp.tap = 0xF7 ∧ State.reset.upd.owner = 0 ∧ State.reset.link.mbx = Tab.fill 64 0 ∧ State.reset.diag.rct = Tab.fill 256 {} ∧
  (∀ d : Fin 16, (State.reset.cvu.d[d]).cfg = 0x1F000400) ∧ (∀ p : Fin 4, (State.reset.csc.p[p]).cfg = 0x00030A10) ∧
  State.reset.csl.udpPort = 0xC5C5

/-- At reset every memory is in its canonical form.

The model's own choices that it rests on: log entry 1. -/
def Obligations.ResetKeepsForm : Prop := State.reset.Inv

/-- From every state whose memories are in their canonical form, whatever command stands in front, a step leaves them in it: equal memories are
equal data.

The model's own choices that it rests on: log entry 7. -/
def Obligations.MemoryKept : Prop :=
  ∀ s t : State, s.Inv → step s = .next t → t.Inv

/-- Every command completes, whatever the state, and leaves the commands that wait as they are. -/
def Obligations.QueueKept : Prop :=
  ∀ (c : Instr) (s : State), ∃ t, exec c s = .next t ∧ t.pending = s.pending
end

