-- ==== Sys2Proof/Laws/State.lean ====
section
/-! SUPPORT. What each update of one block of the state leaves in each field. -/

namespace Sys2Proof.Machine

@[simp] theorem State.onT_t (f : TimeS → TimeS) (s : State) : (s.onT f).t = f s.t := rfl
@[simp] theorem State.onT_sys (f : TimeS → TimeS) (s : State) : (s.onT f).sys = s.sys := rfl
@[simp] theorem State.onT_pwr (f : TimeS → TimeS) (s : State) : (s.onT f).pwr = s.pwr := rfl
@[simp] theorem State.onT_link (f : TimeS → TimeS) (s : State) : (s.onT f).link = s.link := rfl
@[simp] theorem State.onT_evt (f : TimeS → TimeS) (s : State) : (s.onT f).evt = s.evt := rfl
@[simp] theorem State.onT_eng (f : TimeS → TimeS) (s : State) : (s.onT f).eng = s.eng := rfl
@[simp] theorem State.onT_mem (f : TimeS → TimeS) (s : State) : (s.onT f).mem = s.mem := rfl
@[simp] theorem State.onT_hld (f : TimeS → TimeS) (s : State) : (s.onT f).hld = s.hld := rfl
@[simp] theorem State.onT_sin (f : TimeS → TimeS) (s : State) : (s.onT f).sin = s.sin := rfl
@[simp] theorem State.onT_sout (f : TimeS → TimeS) (s : State) : (s.onT f).sout = s.sout := rfl
@[simp] theorem State.onT_diag (f : TimeS → TimeS) (s : State) : (s.onT f).diag = s.diag := rfl
@[simp] theorem State.onT_tmr (f : TimeS → TimeS) (s : State) : (s.onT f).tmr = s.tmr := rfl
@[simp] theorem State.onT_alp (f : TimeS → TimeS) (s : State) : (s.onT f).alp = s.alp := rfl
@[simp] theorem State.onT_csl (f : TimeS → TimeS) (s : State) : (s.onT f).csl = s.csl := rfl
@[simp] theorem State.onT_csc (f : TimeS → TimeS) (s : State) : (s.onT f).csc = s.csc := rfl
@[simp] theorem State.onT_cvu (f : TimeS → TimeS) (s : State) : (s.onT f).cvu = s.cvu := rfl
@[simp] theorem State.onT_otp (f : TimeS → TimeS) (s : State) : (s.onT f).otp = s.otp := rfl
@[simp] theorem State.onT_upd (f : TimeS → TimeS) (s : State) : (s.onT f).upd = s.upd := rfl
@[simp] theorem State.onT_pending (f : TimeS → TimeS) (s : State) : (s.onT f).pending = s.pending := rfl
@[simp] theorem State.onT_fresh (f : TimeS → TimeS) (s : State) : (s.onT f).fresh = s.fresh := rfl
@[simp] theorem State.onSys_t (f : SysS → SysS) (s : State) : (s.onSys f).t = s.t := rfl
@[simp] theorem State.onSys_sys (f : SysS → SysS) (s : State) : (s.onSys f).sys = f s.sys := rfl
@[simp] theorem State.onSys_pwr (f : SysS → SysS) (s : State) : (s.onSys f).pwr = s.pwr := rfl
@[simp] theorem State.onSys_link (f : SysS → SysS) (s : State) : (s.onSys f).link = s.link := rfl
@[simp] theorem State.onSys_evt (f : SysS → SysS) (s : State) : (s.onSys f).evt = s.evt := rfl
@[simp] theorem State.onSys_eng (f : SysS → SysS) (s : State) : (s.onSys f).eng = s.eng := rfl
@[simp] theorem State.onSys_mem (f : SysS → SysS) (s : State) : (s.onSys f).mem = s.mem := rfl
@[simp] theorem State.onSys_hld (f : SysS → SysS) (s : State) : (s.onSys f).hld = s.hld := rfl
@[simp] theorem State.onSys_sin (f : SysS → SysS) (s : State) : (s.onSys f).sin = s.sin := rfl
@[simp] theorem State.onSys_sout (f : SysS → SysS) (s : State) : (s.onSys f).sout = s.sout := rfl
@[simp] theorem State.onSys_diag (f : SysS → SysS) (s : State) : (s.onSys f).diag = s.diag := rfl
@[simp] theorem State.onSys_tmr (f : SysS → SysS) (s : State) : (s.onSys f).tmr = s.tmr := rfl
@[simp] theorem State.onSys_alp (f : SysS → SysS) (s : State) : (s.onSys f).alp = s.alp := rfl
@[simp] theorem State.onSys_csl (f : SysS → SysS) (s : State) : (s.onSys f).csl = s.csl := rfl
@[simp] theorem State.onSys_csc (f : SysS → SysS) (s : State) : (s.onSys f).csc = s.csc := rfl
@[simp] theorem State.onSys_cvu (f : SysS → SysS) (s : State) : (s.onSys f).cvu = s.cvu := rfl
@[simp] theorem State.onSys_otp (f : SysS → SysS) (s : State) : (s.onSys f).otp = s.otp := rfl
@[simp] theorem State.onSys_upd (f : SysS → SysS) (s : State) : (s.onSys f).upd = s.upd := rfl
@[simp] theorem State.onSys_pending (f : SysS → SysS) (s : State) : (s.onSys f).pending = s.pending := rfl
@[simp] theorem State.onSys_fresh (f : SysS → SysS) (s : State) : (s.onSys f).fresh = s.fresh := rfl
@[simp] theorem State.onPwr_t (f : PwrS → PwrS) (s : State) : (s.onPwr f).t = s.t := rfl
@[simp] theorem State.onPwr_sys (f : PwrS → PwrS) (s : State) : (s.onPwr f).sys = s.sys := rfl
@[simp] theorem State.onPwr_pwr (f : PwrS → PwrS) (s : State) : (s.onPwr f).pwr = f s.pwr := rfl
@[simp] theorem State.onPwr_link (f : PwrS → PwrS) (s : State) : (s.onPwr f).link = s.link := rfl
@[simp] theorem State.onPwr_evt (f : PwrS → PwrS) (s : State) : (s.onPwr f).evt = s.evt := rfl
@[simp] theorem State.onPwr_eng (f : PwrS → PwrS) (s : State) : (s.onPwr f).eng = s.eng := rfl
@[simp] theorem State.onPwr_mem (f : PwrS → PwrS) (s : State) : (s.onPwr f).mem = s.mem := rfl
@[simp] theorem State.onPwr_hld (f : PwrS → PwrS) (s : State) : (s.onPwr f).hld = s.hld := rfl
@[simp] theorem State.onPwr_sin (f : PwrS → PwrS) (s : State) : (s.onPwr f).sin = s.sin := rfl
@[simp] theorem State.onPwr_sout (f : PwrS → PwrS) (s : State) : (s.onPwr f).sout = s.sout := rfl
@[simp] theorem State.onPwr_diag (f : PwrS → PwrS) (s : State) : (s.onPwr f).diag = s.diag := rfl
@[simp] theorem State.onPwr_tmr (f : PwrS → PwrS) (s : State) : (s.onPwr f).tmr = s.tmr := rfl
@[simp] theorem State.onPwr_alp (f : PwrS → PwrS) (s : State) : (s.onPwr f).alp = s.alp := rfl
@[simp] theorem State.onPwr_csl (f : PwrS → PwrS) (s : State) : (s.onPwr f).csl = s.csl := rfl
@[simp] theorem State.onPwr_csc (f : PwrS → PwrS) (s : State) : (s.onPwr f).csc = s.csc := rfl
@[simp] theorem State.onPwr_cvu (f : PwrS → PwrS) (s : State) : (s.onPwr f).cvu = s.cvu := rfl
@[simp] theorem State.onPwr_otp (f : PwrS → PwrS) (s : State) : (s.onPwr f).otp = s.otp := rfl
@[simp] theorem State.onPwr_upd (f : PwrS → PwrS) (s : State) : (s.onPwr f).upd = s.upd := rfl
@[simp] theorem State.onPwr_pending (f : PwrS → PwrS) (s : State) : (s.onPwr f).pending = s.pending := rfl
@[simp] theorem State.onPwr_fresh (f : PwrS → PwrS) (s : State) : (s.onPwr f).fresh = s.fresh := rfl
@[simp] theorem State.onLink_t (f : LinkS → LinkS) (s : State) : (s.onLink f).t = s.t := rfl
@[simp] theorem State.onLink_sys (f : LinkS → LinkS) (s : State) : (s.onLink f).sys = s.sys := rfl
@[simp] theorem State.onLink_pwr (f : LinkS → LinkS) (s : State) : (s.onLink f).pwr = s.pwr := rfl
@[simp] theorem State.onLink_link (f : LinkS → LinkS) (s : State) : (s.onLink f).link = f s.link := rfl
@[simp] theorem State.onLink_evt (f : LinkS → LinkS) (s : State) : (s.onLink f).evt = s.evt := rfl
@[simp] theorem State.onLink_eng (f : LinkS → LinkS) (s : State) : (s.onLink f).eng = s.eng := rfl
@[simp] theorem State.onLink_mem (f : LinkS → LinkS) (s : State) : (s.onLink f).mem = s.mem := rfl
@[simp] theorem State.onLink_hld (f : LinkS → LinkS) (s : State) : (s.onLink f).hld = s.hld := rfl
@[simp] theorem State.onLink_sin (f : LinkS → LinkS) (s : State) : (s.onLink f).sin = s.sin := rfl
@[simp] theorem State.onLink_sout (f : LinkS → LinkS) (s : State) : (s.onLink f).sout = s.sout := rfl
@[simp] theorem State.onLink_diag (f : LinkS → LinkS) (s : State) : (s.onLink f).diag = s.diag := rfl
@[simp] theorem State.onLink_tmr (f : LinkS → LinkS) (s : State) : (s.onLink f).tmr = s.tmr := rfl
@[simp] theorem State.onLink_alp (f : LinkS → LinkS) (s : State) : (s.onLink f).alp = s.alp := rfl
@[simp] theorem State.onLink_csl (f : LinkS → LinkS) (s : State) : (s.onLink f).csl = s.csl := rfl
@[simp] theorem State.onLink_csc (f : LinkS → LinkS) (s : State) : (s.onLink f).csc = s.csc := rfl
@[simp] theorem State.onLink_cvu (f : LinkS → LinkS) (s : State) : (s.onLink f).cvu = s.cvu := rfl
@[simp] theorem State.onLink_otp (f : LinkS → LinkS) (s : State) : (s.onLink f).otp = s.otp := rfl
@[simp] theorem State.onLink_upd (f : LinkS → LinkS) (s : State) : (s.onLink f).upd = s.upd := rfl
@[simp] theorem State.onLink_pending (f : LinkS → LinkS) (s : State) : (s.onLink f).pending = s.pending := rfl
@[simp] theorem State.onLink_fresh (f : LinkS → LinkS) (s : State) : (s.onLink f).fresh = s.fresh := rfl
@[simp] theorem State.onEvt_t (f : EvtS → EvtS) (s : State) : (s.onEvt f).t = s.t := rfl
@[simp] theorem State.onEvt_sys (f : EvtS → EvtS) (s : State) : (s.onEvt f).sys = s.sys := rfl
@[simp] theorem State.onEvt_pwr (f : EvtS → EvtS) (s : State) : (s.onEvt f).pwr = s.pwr := rfl
@[simp] theorem State.onEvt_link (f : EvtS → EvtS) (s : State) : (s.onEvt f).link = s.link := rfl
@[simp] theorem State.onEvt_evt (f : EvtS → EvtS) (s : State) : (s.onEvt f).evt = f s.evt := rfl
@[simp] theorem State.onEvt_eng (f : EvtS → EvtS) (s : State) : (s.onEvt f).eng = s.eng := rfl
@[simp] theorem State.onEvt_mem (f : EvtS → EvtS) (s : State) : (s.onEvt f).mem = s.mem := rfl
@[simp] theorem State.onEvt_hld (f : EvtS → EvtS) (s : State) : (s.onEvt f).hld = s.hld := rfl
@[simp] theorem State.onEvt_sin (f : EvtS → EvtS) (s : State) : (s.onEvt f).sin = s.sin := rfl
@[simp] theorem State.onEvt_sout (f : EvtS → EvtS) (s : State) : (s.onEvt f).sout = s.sout := rfl
@[simp] theorem State.onEvt_diag (f : EvtS → EvtS) (s : State) : (s.onEvt f).diag = s.diag := rfl
@[simp] theorem State.onEvt_tmr (f : EvtS → EvtS) (s : State) : (s.onEvt f).tmr = s.tmr := rfl
@[simp] theorem State.onEvt_alp (f : EvtS → EvtS) (s : State) : (s.onEvt f).alp = s.alp := rfl
@[simp] theorem State.onEvt_csl (f : EvtS → EvtS) (s : State) : (s.onEvt f).csl = s.csl := rfl
@[simp] theorem State.onEvt_csc (f : EvtS → EvtS) (s : State) : (s.onEvt f).csc = s.csc := rfl
@[simp] theorem State.onEvt_cvu (f : EvtS → EvtS) (s : State) : (s.onEvt f).cvu = s.cvu := rfl
@[simp] theorem State.onEvt_otp (f : EvtS → EvtS) (s : State) : (s.onEvt f).otp = s.otp := rfl
@[simp] theorem State.onEvt_upd (f : EvtS → EvtS) (s : State) : (s.onEvt f).upd = s.upd := rfl
@[simp] theorem State.onEvt_pending (f : EvtS → EvtS) (s : State) : (s.onEvt f).pending = s.pending := rfl
@[simp] theorem State.onEvt_fresh (f : EvtS → EvtS) (s : State) : (s.onEvt f).fresh = s.fresh := rfl
@[simp] theorem State.onEng_t (f : EngS → EngS) (s : State) : (s.onEng f).t = s.t := rfl
@[simp] theorem State.onEng_sys (f : EngS → EngS) (s : State) : (s.onEng f).sys = s.sys := rfl
@[simp] theorem State.onEng_pwr (f : EngS → EngS) (s : State) : (s.onEng f).pwr = s.pwr := rfl
@[simp] theorem State.onEng_link (f : EngS → EngS) (s : State) : (s.onEng f).link = s.link := rfl
@[simp] theorem State.onEng_evt (f : EngS → EngS) (s : State) : (s.onEng f).evt = s.evt := rfl
@[simp] theorem State.onEng_eng (f : EngS → EngS) (s : State) : (s.onEng f).eng = f s.eng := rfl
@[simp] theorem State.onEng_mem (f : EngS → EngS) (s : State) : (s.onEng f).mem = s.mem := rfl
@[simp] theorem State.onEng_hld (f : EngS → EngS) (s : State) : (s.onEng f).hld = s.hld := rfl
@[simp] theorem State.onEng_sin (f : EngS → EngS) (s : State) : (s.onEng f).sin = s.sin := rfl
@[simp] theorem State.onEng_sout (f : EngS → EngS) (s : State) : (s.onEng f).sout = s.sout := rfl
@[simp] theorem State.onEng_diag (f : EngS → EngS) (s : State) : (s.onEng f).diag = s.diag := rfl
@[simp] theorem State.onEng_tmr (f : EngS → EngS) (s : State) : (s.onEng f).tmr = s.tmr := rfl
@[simp] theorem State.onEng_alp (f : EngS → EngS) (s : State) : (s.onEng f).alp = s.alp := rfl
@[simp] theorem State.onEng_csl (f : EngS → EngS) (s : State) : (s.onEng f).csl = s.csl := rfl
@[simp] theorem State.onEng_csc (f : EngS → EngS) (s : State) : (s.onEng f).csc = s.csc := rfl
@[simp] theorem State.onEng_cvu (f : EngS → EngS) (s : State) : (s.onEng f).cvu = s.cvu := rfl
@[simp] theorem State.onEng_otp (f : EngS → EngS) (s : State) : (s.onEng f).otp = s.otp := rfl
@[simp] theorem State.onEng_upd (f : EngS → EngS) (s : State) : (s.onEng f).upd = s.upd := rfl
@[simp] theorem State.onEng_pending (f : EngS → EngS) (s : State) : (s.onEng f).pending = s.pending := rfl
@[simp] theorem State.onEng_fresh (f : EngS → EngS) (s : State) : (s.onEng f).fresh = s.fresh := rfl
@[simp] theorem State.onMem_t (f : MemS → MemS) (s : State) : (s.onMem f).t = s.t := rfl
@[simp] theorem State.onMem_sys (f : MemS → MemS) (s : State) : (s.onMem f).sys = s.sys := rfl
@[simp] theorem State.onMem_pwr (f : MemS → MemS) (s : State) : (s.onMem f).pwr = s.pwr := rfl
@[simp] theorem State.onMem_link (f : MemS → MemS) (s : State) : (s.onMem f).link = s.link := rfl
@[simp] theorem State.onMem_evt (f : MemS → MemS) (s : State) : (s.onMem f).evt = s.evt := rfl
@[simp] theorem State.onMem_eng (f : MemS → MemS) (s : State) : (s.onMem f).eng = s.eng := rfl
@[simp] theorem State.onMem_mem (f : MemS → MemS) (s : State) : (s.onMem f).mem = f s.mem := rfl
@[simp] theorem State.onMem_hld (f : MemS → MemS) (s : State) : (s.onMem f).hld = s.hld := rfl
@[simp] theorem State.onMem_sin (f : MemS → MemS) (s : State) : (s.onMem f).sin = s.sin := rfl
@[simp] theorem State.onMem_sout (f : MemS → MemS) (s : State) : (s.onMem f).sout = s.sout := rfl
@[simp] theorem State.onMem_diag (f : MemS → MemS) (s : State) : (s.onMem f).diag = s.diag := rfl
@[simp] theorem State.onMem_tmr (f : MemS → MemS) (s : State) : (s.onMem f).tmr = s.tmr := rfl
@[simp] theorem State.onMem_alp (f : MemS → MemS) (s : State) : (s.onMem f).alp = s.alp := rfl
@[simp] theorem State.onMem_csl (f : MemS → MemS) (s : State) : (s.onMem f).csl = s.csl := rfl
@[simp] theorem State.onMem_csc (f : MemS → MemS) (s : State) : (s.onMem f).csc = s.csc := rfl
@[simp] theorem State.onMem_cvu (f : MemS → MemS) (s : State) : (s.onMem f).cvu = s.cvu := rfl
@[simp] theorem State.onMem_otp (f : MemS → MemS) (s : State) : (s.onMem f).otp = s.otp := rfl
@[simp] theorem State.onMem_upd (f : MemS → MemS) (s : State) : (s.onMem f).upd = s.upd := rfl
@[simp] theorem State.onMem_pending (f : MemS → MemS) (s : State) : (s.onMem f).pending = s.pending := rfl
@[simp] theorem State.onMem_fresh (f : MemS → MemS) (s : State) : (s.onMem f).fresh = s.fresh := rfl
@[simp] theorem State.onHld_t (f : HldS → HldS) (s : State) : (s.onHld f).t = s.t := rfl
@[simp] theorem State.onHld_sys (f : HldS → HldS) (s : State) : (s.onHld f).sys = s.sys := rfl
@[simp] theorem State.onHld_pwr (f : HldS → HldS) (s : State) : (s.onHld f).pwr = s.pwr := rfl
@[simp] theorem State.onHld_link (f : HldS → HldS) (s : State) : (s.onHld f).link = s.link := rfl
@[simp] theorem State.onHld_evt (f : HldS → HldS) (s : State) : (s.onHld f).evt = s.evt := rfl
@[simp] theorem State.onHld_eng (f : HldS → HldS) (s : State) : (s.onHld f).eng = s.eng := rfl
@[simp] theorem State.onHld_mem (f : HldS → HldS) (s : State) : (s.onHld f).mem = s.mem := rfl
@[simp] theorem State.onHld_hld (f : HldS → HldS) (s : State) : (s.onHld f).hld = f s.hld := rfl
@[simp] theorem State.onHld_sin (f : HldS → HldS) (s : State) : (s.onHld f).sin = s.sin := rfl
@[simp] theorem State.onHld_sout (f : HldS → HldS) (s : State) : (s.onHld f).sout = s.sout := rfl
@[simp] theorem State.onHld_diag (f : HldS → HldS) (s : State) : (s.onHld f).diag = s.diag := rfl
@[simp] theorem State.onHld_tmr (f : HldS → HldS) (s : State) : (s.onHld f).tmr = s.tmr := rfl
@[simp] theorem State.onHld_alp (f : HldS → HldS) (s : State) : (s.onHld f).alp = s.alp := rfl
@[simp] theorem State.onHld_csl (f : HldS → HldS) (s : State) : (s.onHld f).csl = s.csl := rfl
@[simp] theorem State.onHld_csc (f : HldS → HldS) (s : State) : (s.onHld f).csc = s.csc := rfl
@[simp] theorem State.onHld_cvu (f : HldS → HldS) (s : State) : (s.onHld f).cvu = s.cvu := rfl
@[simp] theorem State.onHld_otp (f : HldS → HldS) (s : State) : (s.onHld f).otp = s.otp := rfl
@[simp] theorem State.onHld_upd (f : HldS → HldS) (s : State) : (s.onHld f).upd = s.upd := rfl
@[simp] theorem State.onHld_pending (f : HldS → HldS) (s : State) : (s.onHld f).pending = s.pending := rfl
@[simp] theorem State.onHld_fresh (f : HldS → HldS) (s : State) : (s.onHld f).fresh = s.fresh := rfl
@[simp] theorem State.onSin_t (f : SinS → SinS) (s : State) : (s.onSin f).t = s.t := rfl
@[simp] theorem State.onSin_sys (f : SinS → SinS) (s : State) : (s.onSin f).sys = s.sys := rfl
@[simp] theorem State.onSin_pwr (f : SinS → SinS) (s : State) : (s.onSin f).pwr = s.pwr := rfl
@[simp] theorem State.onSin_link (f : SinS → SinS) (s : State) : (s.onSin f).link = s.link := rfl
@[simp] theorem State.onSin_evt (f : SinS → SinS) (s : State) : (s.onSin f).evt = s.evt := rfl
@[simp] theorem State.onSin_eng (f : SinS → SinS) (s : State) : (s.onSin f).eng = s.eng := rfl
@[simp] theorem State.onSin_mem (f : SinS → SinS) (s : State) : (s.onSin f).mem = s.mem := rfl
@[simp] theorem State.onSin_hld (f : SinS → SinS) (s : State) : (s.onSin f).hld = s.hld := rfl
@[simp] theorem State.onSin_sin (f : SinS → SinS) (s : State) : (s.onSin f).sin = f s.sin := rfl
@[simp] theorem State.onSin_sout (f : SinS → SinS) (s : State) : (s.onSin f).sout = s.sout := rfl
@[simp] theorem State.onSin_diag (f : SinS → SinS) (s : State) : (s.onSin f).diag = s.diag := rfl
@[simp] theorem State.onSin_tmr (f : SinS → SinS) (s : State) : (s.onSin f).tmr = s.tmr := rfl
@[simp] theorem State.onSin_alp (f : SinS → SinS) (s : State) : (s.onSin f).alp = s.alp := rfl
@[simp] theorem State.onSin_csl (f : SinS → SinS) (s : State) : (s.onSin f).csl = s.csl := rfl
@[simp] theorem State.onSin_csc (f : SinS → SinS) (s : State) : (s.onSin f).csc = s.csc := rfl
@[simp] theorem State.onSin_cvu (f : SinS → SinS) (s : State) : (s.onSin f).cvu = s.cvu := rfl
@[simp] theorem State.onSin_otp (f : SinS → SinS) (s : State) : (s.onSin f).otp = s.otp := rfl
@[simp] theorem State.onSin_upd (f : SinS → SinS) (s : State) : (s.onSin f).upd = s.upd := rfl
@[simp] theorem State.onSin_pending (f : SinS → SinS) (s : State) : (s.onSin f).pending = s.pending := rfl
@[simp] theorem State.onSin_fresh (f : SinS → SinS) (s : State) : (s.onSin f).fresh = s.fresh := rfl
@[simp] theorem State.onSout_t (f : SoutS → SoutS) (s : State) : (s.onSout f).t = s.t := rfl
@[simp] theorem State.onSout_sys (f : SoutS → SoutS) (s : State) : (s.onSout f).sys = s.sys := rfl
@[simp] theorem State.onSout_pwr (f : SoutS → SoutS) (s : State) : (s.onSout f).pwr = s.pwr := rfl
@[simp] theorem State.onSout_link (f : SoutS → SoutS) (s : State) : (s.onSout f).link = s.link := rfl
@[simp] theorem State.onSout_evt (f : SoutS → SoutS) (s : State) : (s.onSout f).evt = s.evt := rfl
@[simp] theorem State.onSout_eng (f : SoutS → SoutS) (s : State) : (s.onSout f).eng = s.eng := rfl
@[simp] theorem State.onSout_mem (f : SoutS → SoutS) (s : State) : (s.onSout f).mem = s.mem := rfl
@[simp] theorem State.onSout_hld (f : SoutS → SoutS) (s : State) : (s.onSout f).hld = s.hld := rfl
@[simp] theorem State.onSout_sin (f : SoutS → SoutS) (s : State) : (s.onSout f).sin = s.sin := rfl
@[simp] theorem State.onSout_sout (f : SoutS → SoutS) (s : State) : (s.onSout f).sout = f s.sout := rfl
@[simp] theorem State.onSout_diag (f : SoutS → SoutS) (s : State) : (s.onSout f).diag = s.diag := rfl
@[simp] theorem State.onSout_tmr (f : SoutS → SoutS) (s : State) : (s.onSout f).tmr = s.tmr := rfl
@[simp] theorem State.onSout_alp (f : SoutS → SoutS) (s : State) : (s.onSout f).alp = s.alp := rfl
@[simp] theorem State.onSout_csl (f : SoutS → SoutS) (s : State) : (s.onSout f).csl = s.csl := rfl
@[simp] theorem State.onSout_csc (f : SoutS → SoutS) (s : State) : (s.onSout f).csc = s.csc := rfl
@[simp] theorem State.onSout_cvu (f : SoutS → SoutS) (s : State) : (s.onSout f).cvu = s.cvu := rfl
@[simp] theorem State.onSout_otp (f : SoutS → SoutS) (s : State) : (s.onSout f).otp = s.otp := rfl
@[simp] theorem State.onSout_upd (f : SoutS → SoutS) (s : State) : (s.onSout f).upd = s.upd := rfl
@[simp] theorem State.onSout_pending (f : SoutS → SoutS) (s : State) : (s.onSout f).pending = s.pending := rfl
@[simp] theorem State.onSout_fresh (f : SoutS → SoutS) (s : State) : (s.onSout f).fresh = s.fresh := rfl
@[simp] theorem State.onDiag_t (f : DiagS → DiagS) (s : State) : (s.onDiag f).t = s.t := rfl
@[simp] theorem State.onDiag_sys (f : DiagS → DiagS) (s : State) : (s.onDiag f).sys = s.sys := rfl
@[simp] theorem State.onDiag_pwr (f : DiagS → DiagS) (s : State) : (s.onDiag f).pwr = s.pwr := rfl
@[simp] theorem State.onDiag_link (f : DiagS → DiagS) (s : State) : (s.onDiag f).link = s.link := rfl
@[simp] theorem State.onDiag_evt (f : DiagS → DiagS) (s : State) : (s.onDiag f).evt = s.evt := rfl
@[simp] theorem State.onDiag_eng (f : DiagS → DiagS) (s : State) : (s.onDiag f).eng = s.eng := rfl
@[simp] theorem State.onDiag_mem (f : DiagS → DiagS) (s : State) : (s.onDiag f).mem = s.mem := rfl
@[simp] theorem State.onDiag_hld (f : DiagS → DiagS) (s : State) : (s.onDiag f).hld = s.hld := rfl
@[simp] theorem State.onDiag_sin (f : DiagS → DiagS) (s : State) : (s.onDiag f).sin = s.sin := rfl
@[simp] theorem State.onDiag_sout (f : DiagS → DiagS) (s : State) : (s.onDiag f).sout = s.sout := rfl
@[simp] theorem State.onDiag_diag (f : DiagS → DiagS) (s : State) : (s.onDiag f).diag = f s.diag := rfl
@[simp] theorem State.onDiag_tmr (f : DiagS → DiagS) (s : State) : (s.onDiag f).tmr = s.tmr := rfl
@[simp] theorem State.onDiag_alp (f : DiagS → DiagS) (s : State) : (s.onDiag f).alp = s.alp := rfl
@[simp] theorem State.onDiag_csl (f : DiagS → DiagS) (s : State) : (s.onDiag f).csl = s.csl := rfl
@[simp] theorem State.onDiag_csc (f : DiagS → DiagS) (s : State) : (s.onDiag f).csc = s.csc := rfl
@[simp] theorem State.onDiag_cvu (f : DiagS → DiagS) (s : State) : (s.onDiag f).cvu = s.cvu := rfl
@[simp] theorem State.onDiag_otp (f : DiagS → DiagS) (s : State) : (s.onDiag f).otp = s.otp := rfl
@[simp] theorem State.onDiag_upd (f : DiagS → DiagS) (s : State) : (s.onDiag f).upd = s.upd := rfl
@[simp] theorem State.onDiag_pending (f : DiagS → DiagS) (s : State) : (s.onDiag f).pending = s.pending := rfl
@[simp] theorem State.onDiag_fresh (f : DiagS → DiagS) (s : State) : (s.onDiag f).fresh = s.fresh := rfl
@[simp] theorem State.onTmr_t (f : TmrS → TmrS) (s : State) : (s.onTmr f).t = s.t := rfl
@[simp] theorem State.onTmr_sys (f : TmrS → TmrS) (s : State) : (s.onTmr f).sys = s.sys := rfl
@[simp] theorem State.onTmr_pwr (f : TmrS → TmrS) (s : State) : (s.onTmr f).pwr = s.pwr := rfl
@[simp] theorem State.onTmr_link (f : TmrS → TmrS) (s : State) : (s.onTmr f).link = s.link := rfl
@[simp] theorem State.onTmr_evt (f : TmrS → TmrS) (s : State) : (s.onTmr f).evt = s.evt := rfl
@[simp] theorem State.onTmr_eng (f : TmrS → TmrS) (s : State) : (s.onTmr f).eng = s.eng := rfl
@[simp] theorem State.onTmr_mem (f : TmrS → TmrS) (s : State) : (s.onTmr f).mem = s.mem := rfl
@[simp] theorem State.onTmr_hld (f : TmrS → TmrS) (s : State) : (s.onTmr f).hld = s.hld := rfl
@[simp] theorem State.onTmr_sin (f : TmrS → TmrS) (s : State) : (s.onTmr f).sin = s.sin := rfl
@[simp] theorem State.onTmr_sout (f : TmrS → TmrS) (s : State) : (s.onTmr f).sout = s.sout := rfl
@[simp] theorem State.onTmr_diag (f : TmrS → TmrS) (s : State) : (s.onTmr f).diag = s.diag := rfl
@[simp] theorem State.onTmr_tmr (f : TmrS → TmrS) (s : State) : (s.onTmr f).tmr = f s.tmr := rfl
@[simp] theorem State.onTmr_alp (f : TmrS → TmrS) (s : State) : (s.onTmr f).alp = s.alp := rfl
@[simp] theorem State.onTmr_csl (f : TmrS → TmrS) (s : State) : (s.onTmr f).csl = s.csl := rfl
@[simp] theorem State.onTmr_csc (f : TmrS → TmrS) (s : State) : (s.onTmr f).csc = s.csc := rfl
@[simp] theorem State.onTmr_cvu (f : TmrS → TmrS) (s : State) : (s.onTmr f).cvu = s.cvu := rfl
@[simp] theorem State.onTmr_otp (f : TmrS → TmrS) (s : State) : (s.onTmr f).otp = s.otp := rfl
@[simp] theorem State.onTmr_upd (f : TmrS → TmrS) (s : State) : (s.onTmr f).upd = s.upd := rfl
@[simp] theorem State.onTmr_pending (f : TmrS → TmrS) (s : State) : (s.onTmr f).pending = s.pending := rfl
@[simp] theorem State.onTmr_fresh (f : TmrS → TmrS) (s : State) : (s.onTmr f).fresh = s.fresh := rfl
@[simp] theorem State.onAlp_t (f : AlpS → AlpS) (s : State) : (s.onAlp f).t = s.t := rfl
@[simp] theorem State.onAlp_sys (f : AlpS → AlpS) (s : State) : (s.onAlp f).sys = s.sys := rfl
@[simp] theorem State.onAlp_pwr (f : AlpS → AlpS) (s : State) : (s.onAlp f).pwr = s.pwr := rfl
@[simp] theorem State.onAlp_link (f : AlpS → AlpS) (s : State) : (s.onAlp f).link = s.link := rfl
@[simp] theorem State.onAlp_evt (f : AlpS → AlpS) (s : State) : (s.onAlp f).evt = s.evt := rfl
@[simp] theorem State.onAlp_eng (f : AlpS → AlpS) (s : State) : (s.onAlp f).eng = s.eng := rfl
@[simp] theorem State.onAlp_mem (f : AlpS → AlpS) (s : State) : (s.onAlp f).mem = s.mem := rfl
@[simp] theorem State.onAlp_hld (f : AlpS → AlpS) (s : State) : (s.onAlp f).hld = s.hld := rfl
@[simp] theorem State.onAlp_sin (f : AlpS → AlpS) (s : State) : (s.onAlp f).sin = s.sin := rfl
@[simp] theorem State.onAlp_sout (f : AlpS → AlpS) (s : State) : (s.onAlp f).sout = s.sout := rfl
@[simp] theorem State.onAlp_diag (f : AlpS → AlpS) (s : State) : (s.onAlp f).diag = s.diag := rfl
@[simp] theorem State.onAlp_tmr (f : AlpS → AlpS) (s : State) : (s.onAlp f).tmr = s.tmr := rfl
@[simp] theorem State.onAlp_alp (f : AlpS → AlpS) (s : State) : (s.onAlp f).alp = f s.alp := rfl
@[simp] theorem State.onAlp_csl (f : AlpS → AlpS) (s : State) : (s.onAlp f).csl = s.csl := rfl
@[simp] theorem State.onAlp_csc (f : AlpS → AlpS) (s : State) : (s.onAlp f).csc = s.csc := rfl
@[simp] theorem State.onAlp_cvu (f : AlpS → AlpS) (s : State) : (s.onAlp f).cvu = s.cvu := rfl
@[simp] theorem State.onAlp_otp (f : AlpS → AlpS) (s : State) : (s.onAlp f).otp = s.otp := rfl
@[simp] theorem State.onAlp_upd (f : AlpS → AlpS) (s : State) : (s.onAlp f).upd = s.upd := rfl
@[simp] theorem State.onAlp_pending (f : AlpS → AlpS) (s : State) : (s.onAlp f).pending = s.pending := rfl
@[simp] theorem State.onAlp_fresh (f : AlpS → AlpS) (s : State) : (s.onAlp f).fresh = s.fresh := rfl
@[simp] theorem State.onCsl_t (f : CslS → CslS) (s : State) : (s.onCsl f).t = s.t := rfl
@[simp] theorem State.onCsl_sys (f : CslS → CslS) (s : State) : (s.onCsl f).sys = s.sys := rfl
@[simp] theorem State.onCsl_pwr (f : CslS → CslS) (s : State) : (s.onCsl f).pwr = s.pwr := rfl
@[simp] theorem State.onCsl_link (f : CslS → CslS) (s : State) : (s.onCsl f).link = s.link := rfl
@[simp] theorem State.onCsl_evt (f : CslS → CslS) (s : State) : (s.onCsl f).evt = s.evt := rfl
@[simp] theorem State.onCsl_eng (f : CslS → CslS) (s : State) : (s.onCsl f).eng = s.eng := rfl
@[simp] theorem State.onCsl_mem (f : CslS → CslS) (s : State) : (s.onCsl f).mem = s.mem := rfl
@[simp] theorem State.onCsl_hld (f : CslS → CslS) (s : State) : (s.onCsl f).hld = s.hld := rfl
@[simp] theorem State.onCsl_sin (f : CslS → CslS) (s : State) : (s.onCsl f).sin = s.sin := rfl
@[simp] theorem State.onCsl_sout (f : CslS → CslS) (s : State) : (s.onCsl f).sout = s.sout := rfl
@[simp] theorem State.onCsl_diag (f : CslS → CslS) (s : State) : (s.onCsl f).diag = s.diag := rfl
@[simp] theorem State.onCsl_tmr (f : CslS → CslS) (s : State) : (s.onCsl f).tmr = s.tmr := rfl
@[simp] theorem State.onCsl_alp (f : CslS → CslS) (s : State) : (s.onCsl f).alp = s.alp := rfl
@[simp] theorem State.onCsl_csl (f : CslS → CslS) (s : State) : (s.onCsl f).csl = f s.csl := rfl
@[simp] theorem State.onCsl_csc (f : CslS → CslS) (s : State) : (s.onCsl f).csc = s.csc := rfl
@[simp] theorem State.onCsl_cvu (f : CslS → CslS) (s : State) : (s.onCsl f).cvu = s.cvu := rfl
@[simp] theorem State.onCsl_otp (f : CslS → CslS) (s : State) : (s.onCsl f).otp = s.otp := rfl
@[simp] theorem State.onCsl_upd (f : CslS → CslS) (s : State) : (s.onCsl f).upd = s.upd := rfl
@[simp] theorem State.onCsl_pending (f : CslS → CslS) (s : State) : (s.onCsl f).pending = s.pending := rfl
@[simp] theorem State.onCsl_fresh (f : CslS → CslS) (s : State) : (s.onCsl f).fresh = s.fresh := rfl
@[simp] theorem State.onCsc_t (f : CscS → CscS) (s : State) : (s.onCsc f).t = s.t := rfl
@[simp] theorem State.onCsc_sys (f : CscS → CscS) (s : State) : (s.onCsc f).sys = s.sys := rfl
@[simp] theorem State.onCsc_pwr (f : CscS → CscS) (s : State) : (s.onCsc f).pwr = s.pwr := rfl
@[simp] theorem State.onCsc_link (f : CscS → CscS) (s : State) : (s.onCsc f).link = s.link := rfl
@[simp] theorem State.onCsc_evt (f : CscS → CscS) (s : State) : (s.onCsc f).evt = s.evt := rfl
@[simp] theorem State.onCsc_eng (f : CscS → CscS) (s : State) : (s.onCsc f).eng = s.eng := rfl
@[simp] theorem State.onCsc_mem (f : CscS → CscS) (s : State) : (s.onCsc f).mem = s.mem := rfl
@[simp] theorem State.onCsc_hld (f : CscS → CscS) (s : State) : (s.onCsc f).hld = s.hld := rfl
@[simp] theorem State.onCsc_sin (f : CscS → CscS) (s : State) : (s.onCsc f).sin = s.sin := rfl
@[simp] theorem State.onCsc_sout (f : CscS → CscS) (s : State) : (s.onCsc f).sout = s.sout := rfl
@[simp] theorem State.onCsc_diag (f : CscS → CscS) (s : State) : (s.onCsc f).diag = s.diag := rfl
@[simp] theorem State.onCsc_tmr (f : CscS → CscS) (s : State) : (s.onCsc f).tmr = s.tmr := rfl
@[simp] theorem State.onCsc_alp (f : CscS → CscS) (s : State) : (s.onCsc f).alp = s.alp := rfl
@[simp] theorem State.onCsc_csl (f : CscS → CscS) (s : State) : (s.onCsc f).csl = s.csl := rfl
@[simp] theorem State.onCsc_csc (f : CscS → CscS) (s : State) : (s.onCsc f).csc = f s.csc := rfl
@[simp] theorem State.onCsc_cvu (f : CscS → CscS) (s : State) : (s.onCsc f).cvu = s.cvu := rfl
@[simp] theorem State.onCsc_otp (f : CscS → CscS) (s : State) : (s.onCsc f).otp = s.otp := rfl
@[simp] theorem State.onCsc_upd (f : CscS → CscS) (s : State) : (s.onCsc f).upd = s.upd := rfl
@[simp] theorem State.onCsc_pending (f : CscS → CscS) (s : State) : (s.onCsc f).pending = s.pending := rfl
@[simp] theorem State.onCsc_fresh (f : CscS → CscS) (s : State) : (s.onCsc f).fresh = s.fresh := rfl
@[simp] theorem State.onCvu_t (f : CvuS → CvuS) (s : State) : (s.onCvu f).t = s.t := rfl
@[simp] theorem State.onCvu_sys (f : CvuS → CvuS) (s : State) : (s.onCvu f).sys = s.sys := rfl
@[simp] theorem State.onCvu_pwr (f : CvuS → CvuS) (s : State) : (s.onCvu f).pwr = s.pwr := rfl
@[simp] theorem State.onCvu_link (f : CvuS → CvuS) (s : State) : (s.onCvu f).link = s.link := rfl
@[simp] theorem State.onCvu_evt (f : CvuS → CvuS) (s : State) : (s.onCvu f).evt = s.evt := rfl
@[simp] theorem State.onCvu_eng (f : CvuS → CvuS) (s : State) : (s.onCvu f).eng = s.eng := rfl
@[simp] theorem State.onCvu_mem (f : CvuS → CvuS) (s : State) : (s.onCvu f).mem = s.mem := rfl
@[simp] theorem State.onCvu_hld (f : CvuS → CvuS) (s : State) : (s.onCvu f).hld = s.hld := rfl
@[simp] theorem State.onCvu_sin (f : CvuS → CvuS) (s : State) : (s.onCvu f).sin = s.sin := rfl
@[simp] theorem State.onCvu_sout (f : CvuS → CvuS) (s : State) : (s.onCvu f).sout = s.sout := rfl
@[simp] theorem State.onCvu_diag (f : CvuS → CvuS) (s : State) : (s.onCvu f).diag = s.diag := rfl
@[simp] theorem State.onCvu_tmr (f : CvuS → CvuS) (s : State) : (s.onCvu f).tmr = s.tmr := rfl
@[simp] theorem State.onCvu_alp (f : CvuS → CvuS) (s : State) : (s.onCvu f).alp = s.alp := rfl
@[simp] theorem State.onCvu_csl (f : CvuS → CvuS) (s : State) : (s.onCvu f).csl = s.csl := rfl
@[simp] theorem State.onCvu_csc (f : CvuS → CvuS) (s : State) : (s.onCvu f).csc = s.csc := rfl
@[simp] theorem State.onCvu_cvu (f : CvuS → CvuS) (s : State) : (s.onCvu f).cvu = f s.cvu := rfl
@[simp] theorem State.onCvu_otp (f : CvuS → CvuS) (s : State) : (s.onCvu f).otp = s.otp := rfl
@[simp] theorem State.onCvu_upd (f : CvuS → CvuS) (s : State) : (s.onCvu f).upd = s.upd := rfl
@[simp] theorem State.onCvu_pending (f : CvuS → CvuS) (s : State) : (s.onCvu f).pending = s.pending := rfl
@[simp] theorem State.onCvu_fresh (f : CvuS → CvuS) (s : State) : (s.onCvu f).fresh = s.fresh := rfl
@[simp] theorem State.onOtp_t (f : OtpS → OtpS) (s : State) : (s.onOtp f).t = s.t := rfl
@[simp] theorem State.onOtp_sys (f : OtpS → OtpS) (s : State) : (s.onOtp f).sys = s.sys := rfl
@[simp] theorem State.onOtp_pwr (f : OtpS → OtpS) (s : State) : (s.onOtp f).pwr = s.pwr := rfl
@[simp] theorem State.onOtp_link (f : OtpS → OtpS) (s : State) : (s.onOtp f).link = s.link := rfl
@[simp] theorem State.onOtp_evt (f : OtpS → OtpS) (s : State) : (s.onOtp f).evt = s.evt := rfl
@[simp] theorem State.onOtp_eng (f : OtpS → OtpS) (s : State) : (s.onOtp f).eng = s.eng := rfl
@[simp] theorem State.onOtp_mem (f : OtpS → OtpS) (s : State) : (s.onOtp f).mem = s.mem := rfl
@[simp] theorem State.onOtp_hld (f : OtpS → OtpS) (s : State) : (s.onOtp f).hld = s.hld := rfl
@[simp] theorem State.onOtp_sin (f : OtpS → OtpS) (s : State) : (s.onOtp f).sin = s.sin := rfl
@[simp] theorem State.onOtp_sout (f : OtpS → OtpS) (s : State) : (s.onOtp f).sout = s.sout := rfl
@[simp] theorem State.onOtp_diag (f : OtpS → OtpS) (s : State) : (s.onOtp f).diag = s.diag := rfl
@[simp] theorem State.onOtp_tmr (f : OtpS → OtpS) (s : State) : (s.onOtp f).tmr = s.tmr := rfl
@[simp] theorem State.onOtp_alp (f : OtpS → OtpS) (s : State) : (s.onOtp f).alp = s.alp := rfl
@[simp] theorem State.onOtp_csl (f : OtpS → OtpS) (s : State) : (s.onOtp f).csl = s.csl := rfl
@[simp] theorem State.onOtp_csc (f : OtpS → OtpS) (s : State) : (s.onOtp f).csc = s.csc := rfl
@[simp] theorem State.onOtp_cvu (f : OtpS → OtpS) (s : State) : (s.onOtp f).cvu = s.cvu := rfl
@[simp] theorem State.onOtp_otp (f : OtpS → OtpS) (s : State) : (s.onOtp f).otp = f s.otp := rfl
@[simp] theorem State.onOtp_upd (f : OtpS → OtpS) (s : State) : (s.onOtp f).upd = s.upd := rfl
@[simp] theorem State.onOtp_pending (f : OtpS → OtpS) (s : State) : (s.onOtp f).pending = s.pending := rfl
@[simp] theorem State.onOtp_fresh (f : OtpS → OtpS) (s : State) : (s.onOtp f).fresh = s.fresh := rfl
@[simp] theorem State.onUpd_t (f : UpdS → UpdS) (s : State) : (s.onUpd f).t = s.t := rfl
@[simp] theorem State.onUpd_sys (f : UpdS → UpdS) (s : State) : (s.onUpd f).sys = s.sys := rfl
@[simp] theorem State.onUpd_pwr (f : UpdS → UpdS) (s : State) : (s.onUpd f).pwr = s.pwr := rfl
@[simp] theorem State.onUpd_link (f : UpdS → UpdS) (s : State) : (s.onUpd f).link = s.link := rfl
@[simp] theorem State.onUpd_evt (f : UpdS → UpdS) (s : State) : (s.onUpd f).evt = s.evt := rfl
@[simp] theorem State.onUpd_eng (f : UpdS → UpdS) (s : State) : (s.onUpd f).eng = s.eng := rfl
@[simp] theorem State.onUpd_mem (f : UpdS → UpdS) (s : State) : (s.onUpd f).mem = s.mem := rfl
@[simp] theorem State.onUpd_hld (f : UpdS → UpdS) (s : State) : (s.onUpd f).hld = s.hld := rfl
@[simp] theorem State.onUpd_sin (f : UpdS → UpdS) (s : State) : (s.onUpd f).sin = s.sin := rfl
@[simp] theorem State.onUpd_sout (f : UpdS → UpdS) (s : State) : (s.onUpd f).sout = s.sout := rfl
@[simp] theorem State.onUpd_diag (f : UpdS → UpdS) (s : State) : (s.onUpd f).diag = s.diag := rfl
@[simp] theorem State.onUpd_tmr (f : UpdS → UpdS) (s : State) : (s.onUpd f).tmr = s.tmr := rfl
@[simp] theorem State.onUpd_alp (f : UpdS → UpdS) (s : State) : (s.onUpd f).alp = s.alp := rfl
@[simp] theorem State.onUpd_csl (f : UpdS → UpdS) (s : State) : (s.onUpd f).csl = s.csl := rfl
@[simp] theorem State.onUpd_csc (f : UpdS → UpdS) (s : State) : (s.onUpd f).csc = s.csc := rfl
@[simp] theorem State.onUpd_cvu (f : UpdS → UpdS) (s : State) : (s.onUpd f).cvu = s.cvu := rfl
@[simp] theorem State.onUpd_otp (f : UpdS → UpdS) (s : State) : (s.onUpd f).otp = s.otp := rfl
@[simp] theorem State.onUpd_upd (f : UpdS → UpdS) (s : State) : (s.onUpd f).upd = f s.upd := rfl
@[simp] theorem State.onUpd_pending (f : UpdS → UpdS) (s : State) : (s.onUpd f).pending = s.pending := rfl
@[simp] theorem State.onUpd_fresh (f : UpdS → UpdS) (s : State) : (s.onUpd f).fresh = s.fresh := rfl
@[simp] theorem State.onE_t (e : Fin 24) (f : Engine → Engine) (s : State) : (s.onE e f).t = s.t := rfl
@[simp] theorem State.onE_sys (e : Fin 24) (f : Engine → Engine) (s : State) : (s.onE e f).sys = s.sys := rfl
@[simp] theorem State.onE_pwr (e : Fin 24) (f : Engine → Engine) (s : State) : (s.onE e f).pwr = s.pwr := rfl
@[simp] theorem State.onE_link (e : Fin 24) (f : Engine → Engine) (s : State) : (s.onE e f).link = s.link := rfl
@[simp] theorem State.onE_evt (e : Fin 24) (f : Engine → Engine) (s : State) : (s.onE e f).evt = s.evt := rfl
@[simp] theorem State.onE_eng (e : Fin 24) (f : Engine → Engine) (s : State) : (s.onE e f).eng = { s.eng with e := s.eng.e.upd e f } := rfl
@[simp] theorem State.onE_mem (e : Fin 24) (f : Engine → Engine) (s : State) : (s.onE e f).mem = s.mem := rfl
@[simp] theorem State.onE_hld (e : Fin 24) (f : Engine → Engine) (s : State) : (s.onE e f).hld = s.hld := rfl
@[simp] theorem State.onE_sin (e : Fin 24) (f : Engine → Engine) (s : State) : (s.onE e f).sin = s.sin := rfl
@[simp] theorem State.onE_sout (e : Fin 24) (f : Engine → Engine) (s : State) : (s.onE e f).sout = s.sout := rfl
@[simp] theorem State.onE_diag (e : Fin 24) (f : Engine → Engine) (s : State) : (s.onE e f).diag = s.diag := rfl
@[simp] theorem State.onE_tmr (e : Fin 24) (f : Engine → Engine) (s : State) : (s.onE e f).tmr = s.tmr := rfl
@[simp] theorem State.onE_alp (e : Fin 24) (f : Engine → Engine) (s : State) : (s.onE e f).alp = s.alp := rfl
@[simp] theorem State.onE_csl (e : Fin 24) (f : Engine → Engine) (s : State) : (s.onE e f).csl = s.csl := rfl
@[simp] theorem State.onE_csc (e : Fin 24) (f : Engine → Engine) (s : State) : (s.onE e f).csc = s.csc := rfl
@[simp] theorem State.onE_cvu (e : Fin 24) (f : Engine → Engine) (s : State) : (s.onE e f).cvu = s.cvu := rfl
@[simp] theorem State.onE_otp (e : Fin 24) (f : Engine → Engine) (s : State) : (s.onE e f).otp = s.otp := rfl
@[simp] theorem State.onE_upd (e : Fin 24) (f : Engine → Engine) (s : State) : (s.onE e f).upd = s.upd := rfl
@[simp] theorem State.onE_pending (e : Fin 24) (f : Engine → Engine) (s : State) : (s.onE e f).pending = s.pending := rfl
@[simp] theorem State.onE_fresh (e : Fin 24) (f : Engine → Engine) (s : State) : (s.onE e f).fresh = s.fresh := rfl
@[simp] theorem State.onC_t (c : Fin 4) (f : Core → Core) (s : State) : (s.onC c f).t = s.t := rfl
@[simp] theorem State.onC_sys (c : Fin 4) (f : Core → Core) (s : State) : (s.onC c f).sys = s.sys := rfl
@[simp] theorem State.onC_pwr (c : Fin 4) (f : Core → Core) (s : State) : (s.onC c f).pwr = s.pwr := rfl
@[simp] theorem State.onC_link (c : Fin 4) (f : Core → Core) (s : State) : (s.onC c f).link = s.link := rfl
@[simp] theorem State.onC_evt (c : Fin 4) (f : Core → Core) (s : State) : (s.onC c f).evt = s.evt := rfl
@[simp] theorem State.onC_eng (c : Fin 4) (f : Core → Core) (s : State) : (s.onC c f).eng = { s.eng with c := s.eng.c.upd c f } := rfl
@[simp] theorem State.onC_mem (c : Fin 4) (f : Core → Core) (s : State) : (s.onC c f).mem = s.mem := rfl
@[simp] theorem State.onC_hld (c : Fin 4) (f : Core → Core) (s : State) : (s.onC c f).hld = s.hld := rfl
@[simp] theorem State.onC_sin (c : Fin 4) (f : Core → Core) (s : State) : (s.onC c f).sin = s.sin := rfl
@[simp] theorem State.onC_sout (c : Fin 4) (f : Core → Core) (s : State) : (s.onC c f).sout = s.sout := rfl
@[simp] theorem State.onC_diag (c : Fin 4) (f : Core → Core) (s : State) : (s.onC c f).diag = s.diag := rfl
@[simp] theorem State.onC_tmr (c : Fin 4) (f : Core → Core) (s : State) : (s.onC c f).tmr = s.tmr := rfl
@[simp] theorem State.onC_alp (c : Fin 4) (f : Core → Core) (s : State) : (s.onC c f).alp = s.alp := rfl
@[simp] theorem State.onC_csl (c : Fin 4) (f : Core → Core) (s : State) : (s.onC c f).csl = s.csl := rfl
@[simp] theorem State.onC_csc (c : Fin 4) (f : Core → Core) (s : State) : (s.onC c f).csc = s.csc := rfl
@[simp] theorem State.onC_cvu (c : Fin 4) (f : Core → Core) (s : State) : (s.onC c f).cvu = s.cvu := rfl
@[simp] theorem State.onC_otp (c : Fin 4) (f : Core → Core) (s : State) : (s.onC c f).otp = s.otp := rfl
@[simp] theorem State.onC_upd (c : Fin 4) (f : Core → Core) (s : State) : (s.onC c f).upd = s.upd := rfl
@[simp] theorem State.onC_pending (c : Fin 4) (f : Core → Core) (s : State) : (s.onC c f).pending = s.pending := rfl
@[simp] theorem State.onC_fresh (c : Fin 4) (f : Core → Core) (s : State) : (s.onC c f).fresh = s.fresh := rfl
@[simp] theorem State.onO_t (k : Fin 16) (f : OutA → OutA) (s : State) : (s.onO k f).t = s.t := rfl
@[simp] theorem State.onO_sys (k : Fin 16) (f : OutA → OutA) (s : State) : (s.onO k f).sys = s.sys := rfl
@[simp] theorem State.onO_pwr (k : Fin 16) (f : OutA → OutA) (s : State) : (s.onO k f).pwr = s.pwr := rfl
@[simp] theorem State.onO_link (k : Fin 16) (f : OutA → OutA) (s : State) : (s.onO k f).link = s.link := rfl
@[simp] theorem State.onO_evt (k : Fin 16) (f : OutA → OutA) (s : State) : (s.onO k f).evt = s.evt := rfl
@[simp] theorem State.onO_eng (k : Fin 16) (f : OutA → OutA) (s : State) : (s.onO k f).eng = s.eng := rfl
@[simp] theorem State.onO_mem (k : Fin 16) (f : OutA → OutA) (s : State) : (s.onO k f).mem = s.mem := rfl
@[simp] theorem State.onO_hld (k : Fin 16) (f : OutA → OutA) (s : State) : (s.onO k f).hld = s.hld := rfl
@[simp] theorem State.onO_sin (k : Fin 16) (f : OutA → OutA) (s : State) : (s.onO k f).sin = s.sin := rfl
@[simp] theorem State.onO_sout (k : Fin 16) (f : OutA → OutA) (s : State) : (s.onO k f).sout = { s.sout with o := s.sout.o.upd k f } := rfl
@[simp] theorem State.onO_diag (k : Fin 16) (f : OutA → OutA) (s : State) : (s.onO k f).diag = s.diag := rfl
@[simp] theorem State.onO_tmr (k : Fin 16) (f : OutA → OutA) (s : State) : (s.onO k f).tmr = s.tmr := rfl
@[simp] theorem State.onO_alp (k : Fin 16) (f : OutA → OutA) (s : State) : (s.onO k f).alp = s.alp := rfl
@[simp] theorem State.onO_csl (k : Fin 16) (f : OutA → OutA) (s : State) : (s.onO k f).csl = s.csl := rfl
@[simp] theorem State.onO_csc (k : Fin 16) (f : OutA → OutA) (s : State) : (s.onO k f).csc = s.csc := rfl
@[simp] theorem State.onO_cvu (k : Fin 16) (f : OutA → OutA) (s : State) : (s.onO k f).cvu = s.cvu := rfl
@[simp] theorem State.onO_otp (k : Fin 16) (f : OutA → OutA) (s : State) : (s.onO k f).otp = s.otp := rfl
@[simp] theorem State.onO_upd (k : Fin 16) (f : OutA → OutA) (s : State) : (s.onO k f).upd = s.upd := rfl
@[simp] theorem State.onO_pending (k : Fin 16) (f : OutA → OutA) (s : State) : (s.onO k f).pending = s.pending := rfl
@[simp] theorem State.onO_fresh (k : Fin 16) (f : OutA → OutA) (s : State) : (s.onO k f).fresh = s.fresh := rfl
@[simp] theorem State.onI_t (n : Fin 32) (f : InA → InA) (s : State) : (s.onI n f).t = s.t := rfl
@[simp] theorem State.onI_sys (n : Fin 32) (f : InA → InA) (s : State) : (s.onI n f).sys = s.sys := rfl
@[simp] theorem State.onI_pwr (n : Fin 32) (f : InA → InA) (s : State) : (s.onI n f).pwr = s.pwr := rfl
@[simp] theorem State.onI_link (n : Fin 32) (f : InA → InA) (s : State) : (s.onI n f).link = s.link := rfl
@[simp] theorem State.onI_evt (n : Fin 32) (f : InA → InA) (s : State) : (s.onI n f).evt = s.evt := rfl
@[simp] theorem State.onI_eng (n : Fin 32) (f : InA → InA) (s : State) : (s.onI n f).eng = s.eng := rfl
@[simp] theorem State.onI_mem (n : Fin 32) (f : InA → InA) (s : State) : (s.onI n f).mem = s.mem := rfl
@[simp] theorem State.onI_hld (n : Fin 32) (f : InA → InA) (s : State) : (s.onI n f).hld = s.hld := rfl
@[simp] theorem State.onI_sin (n : Fin 32) (f : InA → InA) (s : State) : (s.onI n f).sin = { s.sin with i := s.sin.i.upd n f } := rfl
@[simp] theorem State.onI_sout (n : Fin 32) (f : InA → InA) (s : State) : (s.onI n f).sout = s.sout := rfl
@[simp] theorem State.onI_diag (n : Fin 32) (f : InA → InA) (s : State) : (s.onI n f).diag = s.diag := rfl
@[simp] theorem State.onI_tmr (n : Fin 32) (f : InA → InA) (s : State) : (s.onI n f).tmr = s.tmr := rfl
@[simp] theorem State.onI_alp (n : Fin 32) (f : InA → InA) (s : State) : (s.onI n f).alp = s.alp := rfl
@[simp] theorem State.onI_csl (n : Fin 32) (f : InA → InA) (s : State) : (s.onI n f).csl = s.csl := rfl
@[simp] theorem State.onI_csc (n : Fin 32) (f : InA → InA) (s : State) : (s.onI n f).csc = s.csc := rfl
@[simp] theorem State.onI_cvu (n : Fin 32) (f : InA → InA) (s : State) : (s.onI n f).cvu = s.cvu := rfl
@[simp] theorem State.onI_otp (n : Fin 32) (f : InA → InA) (s : State) : (s.onI n f).otp = s.otp := rfl
@[simp] theorem State.onI_upd (n : Fin 32) (f : InA → InA) (s : State) : (s.onI n f).upd = s.upd := rfl
@[simp] theorem State.onI_pending (n : Fin 32) (f : InA → InA) (s : State) : (s.onI n f).pending = s.pending := rfl
@[simp] theorem State.onI_fresh (n : Fin 32) (f : InA → InA) (s : State) : (s.onI n f).fresh = s.fresh := rfl
@[simp] theorem State.onPair_t (k : Fin 16) (f : PairA → PairA) (s : State) : (s.onPair k f).t = s.t := rfl
@[simp] theorem State.onPair_sys (k : Fin 16) (f : PairA → PairA) (s : State) : (s.onPair k f).sys = s.sys := rfl
@[simp] theorem State.onPair_pwr (k : Fin 16) (f : PairA → PairA) (s : State) : (s.onPair k f).pwr = s.pwr := rfl
@[simp] theorem State.onPair_link (k : Fin 16) (f : PairA → PairA) (s : State) : (s.onPair k f).link = s.link := rfl
@[simp] theorem State.onPair_evt (k : Fin 16) (f : PairA → PairA) (s : State) : (s.onPair k f).evt = s.evt := rfl
@[simp] theorem State.onPair_eng (k : Fin 16) (f : PairA → PairA) (s : State) : (s.onPair k f).eng = s.eng := rfl
@[simp] theorem State.onPair_mem (k : Fin 16) (f : PairA → PairA) (s : State) : (s.onPair k f).mem = s.mem := rfl
@[simp] theorem State.onPair_hld (k : Fin 16) (f : PairA → PairA) (s : State) : (s.onPair k f).hld = s.hld := rfl
@[simp] theorem State.onPair_sin (k : Fin 16) (f : PairA → PairA) (s : State) : (s.onPair k f).sin = { s.sin with pair := s.sin.pair.upd k f } := rfl
@[simp] theorem State.onPair_sout (k : Fin 16) (f : PairA → PairA) (s : State) : (s.onPair k f).sout = s.sout := rfl
@[simp] theorem State.onPair_diag (k : Fin 16) (f : PairA → PairA) (s : State) : (s.onPair k f).diag = s.diag := rfl
@[simp] theorem State.onPair_tmr (k : Fin 16) (f : PairA → PairA) (s : State) : (s.onPair k f).tmr = s.tmr := rfl
@[simp] theorem State.onPair_alp (k : Fin 16) (f : PairA → PairA) (s : State) : (s.onPair k f).alp = s.alp := rfl
@[simp] theorem State.onPair_csl (k : Fin 16) (f : PairA → PairA) (s : State) : (s.onPair k f).csl = s.csl := rfl
@[simp] theorem State.onPair_csc (k : Fin 16) (f : PairA → PairA) (s : State) : (s.onPair k f).csc = s.csc := rfl
@[simp] theorem State.onPair_cvu (k : Fin 16) (f : PairA → PairA) (s : State) : (s.onPair k f).cvu = s.cvu := rfl
@[simp] theorem State.onPair_otp (k : Fin 16) (f : PairA → PairA) (s : State) : (s.onPair k f).otp = s.otp := rfl
@[simp] theorem State.onPair_upd (k : Fin 16) (f : PairA → PairA) (s : State) : (s.onPair k f).upd = s.upd := rfl
@[simp] theorem State.onPair_pending (k : Fin 16) (f : PairA → PairA) (s : State) : (s.onPair k f).pending = s.pending := rfl
@[simp] theorem State.onPair_fresh (k : Fin 16) (f : PairA → PairA) (s : State) : (s.onPair k f).fresh = s.fresh := rfl
@[simp] theorem State.onTp_t (j : Fin 8) (f : TpSrc → TpSrc) (s : State) : (s.onTp j f).t = s.t := rfl
@[simp] theorem State.onTp_sys (j : Fin 8) (f : TpSrc → TpSrc) (s : State) : (s.onTp j f).sys = s.sys := rfl
@[simp] theorem State.onTp_pwr (j : Fin 8) (f : TpSrc → TpSrc) (s : State) : (s.onTp j f).pwr = s.pwr := rfl
@[simp] theorem State.onTp_link (j : Fin 8) (f : TpSrc → TpSrc) (s : State) : (s.onTp j f).link = s.link := rfl
@[simp] theorem State.onTp_evt (j : Fin 8) (f : TpSrc → TpSrc) (s : State) : (s.onTp j f).evt = s.evt := rfl
@[simp] theorem State.onTp_eng (j : Fin 8) (f : TpSrc → TpSrc) (s : State) : (s.onTp j f).eng = s.eng := rfl
@[simp] theorem State.onTp_mem (j : Fin 8) (f : TpSrc → TpSrc) (s : State) : (s.onTp j f).mem = s.mem := rfl
@[simp] theorem State.onTp_hld (j : Fin 8) (f : TpSrc → TpSrc) (s : State) : (s.onTp j f).hld = s.hld := rfl
@[simp] theorem State.onTp_sin (j : Fin 8) (f : TpSrc → TpSrc) (s : State) : (s.onTp j f).sin = { s.sin with tp := s.sin.tp.upd j f } := rfl
@[simp] theorem State.onTp_sout (j : Fin 8) (f : TpSrc → TpSrc) (s : State) : (s.onTp j f).sout = s.sout := rfl
@[simp] theorem State.onTp_diag (j : Fin 8) (f : TpSrc → TpSrc) (s : State) : (s.onTp j f).diag = s.diag := rfl
@[simp] theorem State.onTp_tmr (j : Fin 8) (f : TpSrc → TpSrc) (s : State) : (s.onTp j f).tmr = s.tmr := rfl
@[simp] theorem State.onTp_alp (j : Fin 8) (f : TpSrc → TpSrc) (s : State) : (s.onTp j f).alp = s.alp := rfl
@[simp] theorem State.onTp_csl (j : Fin 8) (f : TpSrc → TpSrc) (s : State) : (s.onTp j f).csl = s.csl := rfl
@[simp] theorem State.onTp_csc (j : Fin 8) (f : TpSrc → TpSrc) (s : State) : (s.onTp j f).csc = s.csc := rfl
@[simp] theorem State.onTp_cvu (j : Fin 8) (f : TpSrc → TpSrc) (s : State) : (s.onTp j f).cvu = s.cvu := rfl
@[simp] theorem State.onTp_otp (j : Fin 8) (f : TpSrc → TpSrc) (s : State) : (s.onTp j f).otp = s.otp := rfl
@[simp] theorem State.onTp_upd (j : Fin 8) (f : TpSrc → TpSrc) (s : State) : (s.onTp j f).upd = s.upd := rfl
@[simp] theorem State.onTp_pending (j : Fin 8) (f : TpSrc → TpSrc) (s : State) : (s.onTp j f).pending = s.pending := rfl
@[simp] theorem State.onTp_fresh (j : Fin 8) (f : TpSrc → TpSrc) (s : State) : (s.onTp j f).fresh = s.fresh := rfl

end Sys2Proof.Machine
end

