-- ==== Sys2Proof/Laws/Word.lean ====
section
/-! SUPPORT. The laws of tables, sparse tables and bits: a read after a write, and the canonical form. -/

namespace Sys2Proof

@[simp] theorem Tab.upd_get {α : Type} {n : Nat} (t : Tab α n) (i : Fin n) (j : Nat) (hj : j < n) (f : α → α) :
    (t.upd i f)[j] = if i.val = j then f t[i] else t[j] := by
  simp only [Tab.upd]
  exact Vector.getElem_set ..

@[simp] theorem Tab.map_get {α β : Type} {n : Nat} (f : α → β) (t : Tab α n) (i : Nat) (h : i < n) :
    (t.map f)[i] = f t[i] := by
  simp [Tab.map]

@[simp] theorem Tab.gen_get {α : Type} {n : Nat} (f : Fin n → α) (i : Nat) (h : i < n) : (Tab.gen n f)[i] = f ⟨i, h⟩ := by
  simp [Tab.gen]

@[simp] theorem Tab.fill_get {α : Type} {n : Nat} (x : α) (i : Nat) (h : i < n) : (Tab.fill n x)[i] = x := by
  simp [Tab.fill]

theorem Tab.upd_same {α : Type} {n : Nat} (t : Tab α n) (i : Fin n) : t.upd i (fun x => x) = t := by
  ext j hj
  simp only [Tab.upd_get]
  split
  · rename_i h; subst h; rfl
  · rfl

theorem Tab.upd_upd {α : Type} {n : Nat} (t : Tab α n) (i : Fin n) (f g : α → α) :
    (t.upd i f).upd i g = t.upd i fun x => g (f x) := by
  ext j hj
  by_cases h : i.val = j <;> simp [h]

theorem Tab.upd_eq_self {α : Type} {n : Nat} {t : Tab α n} {i : Fin n} {f : α → α} (h : f t[i] = t[i]) : t.upd i f = t := by
  ext j hj
  by_cases hj : i.val = j
  · subst hj; simpa using h
  · simp [hj]

theorem Tab.getN_lt {α : Type} {n : Nat} (t : Tab α n) (i : Fin n) (d : α) : t.getN i.val d = t[i] := by
  simp [Tab.getN]

namespace Sparse

variable {α : Type} [DecidableEq α] {d : α}

theorem wfFrom_mono {m : Sparse α} {lo lo' : Nat} (h : wfFrom d lo m = true) (hl : lo' ≤ lo) : wfFrom d lo' m = true := by
  cases m with
  | nil => rfl
  | cons p m => obtain ⟨j, x⟩ := p; simp only [wfFrom, Bool.and_eq_true, decide_eq_true_eq] at h ⊢; exact ⟨⟨by omega, h.1.2⟩, h.2⟩

theorem wfFrom_put {m : Sparse α} {lo k : Nat} {x : α} (h : wfFrom d lo m = true) (hk : lo ≤ k) :
    wfFrom d lo (put d m k x) = true := by
  induction m generalizing lo with
  | nil => by_cases hx : x = d <;> simp [put, hx, wfFrom, hk]
  | cons p m ih =>
    obtain ⟨j, y⟩ := p
    simp only [wfFrom, Bool.and_eq_true, decide_eq_true_eq] at h
    unfold put
    split
    · rename_i hj; subst hj
      split
      · exact wfFrom_mono h.2 (by omega)
      · rename_i hx; simp [wfFrom, hx, h.1.1, h.2]
    · split
      · split
        · simp [wfFrom, h.1.1, h.1.2, h.2]
        · rename_i hlt hx
          simp [wfFrom, hx, hk, h.1.2, h.2]; omega
      · simp only [wfFrom, Bool.and_eq_true, decide_eq_true_eq]
        exact ⟨h.1, ih h.2 (by omega)⟩

/-- A write keeps the canonical form. -/
theorem wf_put {m : Sparse α} {k : Nat} {x : α} (h : wf d m = true) : wf d (put d m k x) = true :=
  wfFrom_put h (Nat.zero_le k)

@[simp] theorem wf_nil : wf d ([] : Sparse α) = true := rfl

theorem get_below {m : Sparse α} {lo k : Nat} (h : wfFrom d lo m = true) (hk : k < lo) : get d m k = d := by
  cases m with
  | nil => rfl
  | cons p m =>
    obtain ⟨j, x⟩ := p
    simp only [wfFrom, Bool.and_eq_true, decide_eq_true_eq] at h
    have := h.1.1
    unfold get
    rw [if_neg (by omega), if_pos (by omega)]

theorem get_put_from {m : Sparse α} {lo k j : Nat} {x : α} (h : wfFrom d lo m = true) :
    get d (put d m k x) j = if j = k then x else get d m j := by
  induction m generalizing lo with
  | nil =>
    by_cases hx : x = d
    · simp [put, hx, get]
    · simp only [put, hx, if_false, get]
      by_cases hj : j = k
      · simp [hj]
      · simp [hj, Ne.symm hj]
  | cons p m ih =>
    obtain ⟨i, y⟩ := p
    simp only [wfFrom, Bool.and_eq_true, decide_eq_true_eq] at h
    have hb : ∀ {n}, n ≤ i → get d m n = d := fun hn => get_below h.2 (by omega)
    unfold put
    by_cases hik : i = k
    · subst hik
      rw [if_pos rfl]
      by_cases hx : x = d
      · subst hx
        rw [if_pos rfl]
        by_cases hj : j = i
        · subst hj; rw [if_pos rfl]; exact hb (Nat.le_refl _)
        · simp only [hj, if_false]
          show get x m j = if i = j then y else if j < i then x else get x m j
          rw [if_neg (Ne.symm hj)]
          by_cases hji : j < i
          · rw [if_pos hji]; exact hb (Nat.le_of_lt hji)
          · rw [if_neg hji]
      · simp only [hx, if_false]
        by_cases hj : j = i
        · subst hj; simp [get]
        · simp [get, hj, Ne.symm hj]
    · rw [if_neg hik]
      by_cases hki : k < i
      · rw [if_pos hki]
        by_cases hx : x = d
        · subst hx
          simp only [if_true]
          by_cases hj : j = k
          · subst hj; simp [get, hik, hki]
          · simp [hj]
        · simp only [hx, if_false]
          by_cases hj : j = k
          · subst hj; simp [get]
          · simp only [hj, if_false]
            rw [get]
            rw [if_neg (Ne.symm hj)]
            split
            · rename_i hjk
              unfold get
              rw [if_neg (by omega), if_pos (by omega)]
            · rfl
      · rw [if_neg hki]
        unfold get
        by_cases hij : i = j
        · subst hij; simp [hik]
        · rw [if_neg hij, if_neg hij]
          by_cases hji : j < i
          · rw [if_pos hji, if_pos hji, if_neg (by omega)]
          · rw [if_neg hji, if_neg hji, ih h.2]

/-- A read after a write gives the value written, and every other key keeps its value. -/
theorem get_put {m : Sparse α} {k j : Nat} {x : α} (h : wf d m = true) :
    get d (put d m k x) j = if j = k then x else get d m j := get_put_from h

end Sparse

/-- A bit of a word with one bit rewritten. -/
theorem bit_setBit {n : Nat} (w : BitVec n) (i j : Nat) (b : Bool) (hi : i < n) :
    bit (setBit w i b) j = if j = i then b else bit w j := by
  unfold setBit bit
  by_cases hj : j < n
  · cases b <;> by_cases h : j = i <;> simp [h, hi, hj] <;> omega
  · have : w.getLsbD j = false := BitVec.getLsbD_of_ge _ _ (by omega)
    have hne : j ≠ i := by omega
    rw [if_neg hne, this]
    exact BitVec.getLsbD_of_ge _ _ (by omega)

end Sys2Proof
end

