-- ==== Sys2Proof/Laws/Fabric.lean ====
section
/-! SUPPORT. Everything that raising events and entering reports can do: the event fabric changes the host's flags, the flags
and pending tasks of engines, timers that an event starts, DMA requests, and the report table with its log; nothing else. -/

namespace Sys2Proof.Machine

theorem SameRegs.refl (x : Engine) : SameRegs x x := rfl

theorem SameRegs.trans {x y z : Engine} (h : SameRegs x y) (g : SameRegs y z) : SameRegs x z := by
  unfold SameRegs at *; rw [g, h]

theorem Fab.refl (s : State) : Fab s s :=
  ⟨rfl, rfl, rfl, rfl, rfl, rfl, rfl, rfl, rfl, rfl, rfl, rfl, rfl, rfl, rfl, rfl, rfl, ⟨rfl, rfl⟩, fun _ _ => rfl⟩

theorem Fab.trans {s t u : State} (h : Fab s t) (g : Fab t u) : Fab s u :=
  ⟨g.t.trans h.t, g.sys.trans h.sys, g.pwr.trans h.pwr, g.link.trans h.link, g.mem.trans h.mem, g.hld.trans h.hld,
    g.sin.trans h.sin, g.sout.trans h.sout, g.alp.trans h.alp, g.csl.trans h.csl, g.csc.trans h.csc, g.otp.trans h.otp,
    g.upd.trans h.upd, g.pending.trans h.pending, g.fresh.trans h.fresh, g.units.trans h.units, g.core.trans h.core,
    ⟨g.swatch.1.trans h.swatch.1, g.swatch.2.trans h.swatch.2⟩, fun i hi => (h.regs i hi).trans (g.regs i hi)⟩

theorem Fab.onDiag (f : DiagS → DiagS) (s : State) : Fab s (s.onDiag f) := by constructor <;> simp [SameRegs]
theorem Fab.onEvt (f : EvtS → EvtS) (s : State) : Fab s (s.onEvt f) := by constructor <;> simp [SameRegs]
theorem Fab.onTmr (f : TmrS → TmrS) (s : State) : Fab s (s.onTmr f) := by constructor <;> simp [SameRegs]

theorem Fab.engines (f : Engine → Engine) (hf : ∀ x, SameRegs x (f x)) (s : State) :
    Fab s (s.onEng fun x => { x with e := x.e.map f }) := by
  constructor <;> simp
  exact fun i hi => hf _

theorem Fab.dma (f : CvuS → CvuS) (hf : ∀ x, (f x).u = x.u) (s : State) : Fab s (s.onCvu f) := by
  constructor <;> simp [SameRegs, hf]

/-- A fold of steps each of which stays within the fabric stays within it. -/
theorem Fab.fold {α β : Type} (l : List α) (f : State × β → α → State × β) (hf : ∀ p a, Fab p.1 (f p a).1) (p : State × β) :
    Fab p.1 (l.foldl f p).1 := by
  induction l generalizing p with
  | nil => exact Fab.refl _
  | cons a l ih => exact (hf p a).trans (ih _)

theorem trig_sameRegs (trg : Byte) (x : Engine) : SameRegs x (Engine.trig trg x) := by
  unfold Engine.trig; split <;> rfl

theorem flagEv_sameRegs (ev : BitVec 7) (x : Engine) : SameRegs x (Engine.flagEv ev x) := by
  unfold Engine.flagEv; dsimp only; split <;> rfl

theorem logPut_fab (k : Nat) (c : FaultClass) (sc : BitVec 4) (code : Half) (w : Word) (s : State) :
    Fab s (logPut k c sc code w s) := Fab.onDiag _ _

theorem rctOpen_fab (i : Fin 256) (r : Rep) (s : State) : Fab s (rctOpen i r s) :=
  (Fab.onDiag _ s).trans (logPut_fab ..)

theorem reportCore_fab (r : Rep) (s : State) : Fab s (reportCore r s).1 := by
  unfold reportCore
  split
  · exact Fab.refl s
  · split
    · split
      · dsimp only; exact Fab.onDiag _ s
      · exact rctOpen_fab ..
    · split
      · exact rctOpen_fab ..
      · split
        · dsimp only; exact Fab.onDiag _ s
        · exact ((Fab.onDiag _ s).trans (logPut_fab ..)).trans (rctOpen_fab ..)

theorem trigAll_fab (trg : Byte) (s : State) : Fab s (trigAll trg s).1 :=
  (Fab.engines _ (trig_sameRegs trg) s).trans <|
    Fab.fold (overrunList trg s)
      (fun (p : State × List Nat) e =>
        let q := reportCore ⟨0xA6, 10, .counted, BitVec.ofNat 24 e.val⟩ p.1
        (q.1, p.2 ++ q.2))
      (fun p _ => reportCore_fab _ p.1) (s.onEng fun x => { x with e := x.e.map (Engine.trig trg) }, [])

theorem dmaAsk_fab (l : List (Fin 16)) (s : State) : Fab s (dmaAsk l s).1 :=
  Fab.fold l
    (fun (p : State × List Nat) d =>
      let q := p.1.cvu.d[d].request
      (p.1.onCvu fun x => { x with d := x.d.upd d fun _ => q.1 }, if q.2 then p.2 ++ [116 + d.val / 4] else p.2))
    (fun p d => Fab.dma (fun x => { x with d := x.d.upd d fun _ => (p.1.cvu.d[d].request).1 }) (fun _ => rfl) p.1) (s, [])

theorem raiseOne_fab (ev : Nat) (s : State) : Fab s (raiseOne ev s).1 := by
  unfold raiseOne
  dsimp only
  split
  · exact Fab.onEvt _ s
  refine Fab.trans ?_ (trigAll_fab _ _)
  refine Fab.trans ?_ (dmaAsk_fab _ _)
  refine Fab.trans ?_ (Fab.onTmr _ _)
  exact (Fab.onEvt _ s).trans (Fab.engines _ (flagEv_sameRegs _) _)

theorem raiseList_fab (n : Nat) (evs : List Nat) (s : State) : Fab s (raiseList n evs s) := by
  induction n generalizing evs s with
  | zero => exact Fab.refl s
  | succ n ih =>
    exact (Fab.fold evs
      (fun (p : State × List Nat) ev => let r := raiseOne ev p.1; (r.1, p.2 ++ r.2))
      (fun p ev => raiseOne_fab ev p.1) (s, [])).trans (ih _ _)

/-- Raising an event stays within the fabric. -/
theorem raise_fab (ev : Nat) (s : State) : Fab s (raise ev s) := raiseList_fab ..

/-- Entering a report stays within the fabric. -/
theorem report_fab (r : Rep) (s : State) : Fab s (report r s) := (reportCore_fab r s).trans (raiseList_fab ..)

/-- A task trigger stays within the fabric. -/
theorem trigger_fab (t : Byte) (s : State) : Fab s (trigger t s) := (trigAll_fab t s).trans (raiseList_fab ..)

/-- A list of steps each of which stays within the fabric stays within it. -/
theorem each_fab {α : Type} (l : List α) (f : α → State → State) (hf : ∀ a s, Fab s (f a s)) (s : State) : Fab s (each l f s) := by
  induction l generalizing s with
  | nil => exact Fab.refl s
  | cons a l ih => exact (hf a s).trans (ih _)

@[simp] theorem raise_t (ev : Nat) (s : State) : (raise ev s).t = s.t := (raise_fab ev s).t
@[simp] theorem raise_sys (ev : Nat) (s : State) : (raise ev s).sys = s.sys := (raise_fab ev s).sys
@[simp] theorem raise_pwr (ev : Nat) (s : State) : (raise ev s).pwr = s.pwr := (raise_fab ev s).pwr
@[simp] theorem raise_link (ev : Nat) (s : State) : (raise ev s).link = s.link := (raise_fab ev s).link
@[simp] theorem raise_mem (ev : Nat) (s : State) : (raise ev s).mem = s.mem := (raise_fab ev s).mem
@[simp] theorem raise_hld (ev : Nat) (s : State) : (raise ev s).hld = s.hld := (raise_fab ev s).hld
@[simp] theorem raise_sin (ev : Nat) (s : State) : (raise ev s).sin = s.sin := (raise_fab ev s).sin
@[simp] theorem raise_sout (ev : Nat) (s : State) : (raise ev s).sout = s.sout := (raise_fab ev s).sout
@[simp] theorem raise_alp (ev : Nat) (s : State) : (raise ev s).alp = s.alp := (raise_fab ev s).alp
@[simp] theorem raise_csl (ev : Nat) (s : State) : (raise ev s).csl = s.csl := (raise_fab ev s).csl
@[simp] theorem raise_csc (ev : Nat) (s : State) : (raise ev s).csc = s.csc := (raise_fab ev s).csc
@[simp] theorem raise_otp (ev : Nat) (s : State) : (raise ev s).otp = s.otp := (raise_fab ev s).otp
@[simp] theorem raise_upd (ev : Nat) (s : State) : (raise ev s).upd = s.upd := (raise_fab ev s).upd
@[simp] theorem raise_pending (ev : Nat) (s : State) : (raise ev s).pending = s.pending := (raise_fab ev s).pending
@[simp] theorem raise_fresh (ev : Nat) (s : State) : (raise ev s).fresh = s.fresh := (raise_fab ev s).fresh
@[simp] theorem raise_core (ev : Nat) (s : State) : (raise ev s).eng.c = s.eng.c := (raise_fab ev s).core
@[simp] theorem raise_units (ev : Nat) (s : State) : (raise ev s).cvu.u = s.cvu.u := (raise_fab ev s).units
@[simp] theorem report_t (r : Rep) (s : State) : (report r s).t = s.t := (report_fab r s).t
@[simp] theorem report_sys (r : Rep) (s : State) : (report r s).sys = s.sys := (report_fab r s).sys
@[simp] theorem report_pwr (r : Rep) (s : State) : (report r s).pwr = s.pwr := (report_fab r s).pwr
@[simp] theorem report_link (r : Rep) (s : State) : (report r s).link = s.link := (report_fab r s).link
@[simp] theorem report_mem (r : Rep) (s : State) : (report r s).mem = s.mem := (report_fab r s).mem
@[simp] theorem report_hld (r : Rep) (s : State) : (report r s).hld = s.hld := (report_fab r s).hld
@[simp] theorem report_sin (r : Rep) (s : State) : (report r s).sin = s.sin := (report_fab r s).sin
@[simp] theorem report_sout (r : Rep) (s : State) : (report r s).sout = s.sout := (report_fab r s).sout
@[simp] theorem report_alp (r : Rep) (s : State) : (report r s).alp = s.alp := (report_fab r s).alp
@[simp] theorem report_csl (r : Rep) (s : State) : (report r s).csl = s.csl := (report_fab r s).csl
@[simp] theorem report_csc (r : Rep) (s : State) : (report r s).csc = s.csc := (report_fab r s).csc
@[simp] theorem report_otp (r : Rep) (s : State) : (report r s).otp = s.otp := (report_fab r s).otp
@[simp] theorem report_upd (r : Rep) (s : State) : (report r s).upd = s.upd := (report_fab r s).upd
@[simp] theorem report_pending (r : Rep) (s : State) : (report r s).pending = s.pending := (report_fab r s).pending
@[simp] theorem report_fresh (r : Rep) (s : State) : (report r s).fresh = s.fresh := (report_fab r s).fresh
@[simp] theorem report_core (r : Rep) (s : State) : (report r s).eng.c = s.eng.c := (report_fab r s).core
@[simp] theorem report_units (r : Rep) (s : State) : (report r s).cvu.u = s.cvu.u := (report_fab r s).units
@[simp] theorem trigger_t (b : Byte) (s : State) : (trigger b s).t = s.t := (trigger_fab b s).t
@[simp] theorem trigger_sys (b : Byte) (s : State) : (trigger b s).sys = s.sys := (trigger_fab b s).sys
@[simp] theorem trigger_pwr (b : Byte) (s : State) : (trigger b s).pwr = s.pwr := (trigger_fab b s).pwr
@[simp] theorem trigger_link (b : Byte) (s : State) : (trigger b s).link = s.link := (trigger_fab b s).link
@[simp] theorem trigger_mem (b : Byte) (s : State) : (trigger b s).mem = s.mem := (trigger_fab b s).mem
@[simp] theorem trigger_hld (b : Byte) (s : State) : (trigger b s).hld = s.hld := (trigger_fab b s).hld
@[simp] theorem trigger_sin (b : Byte) (s : State) : (trigger b s).sin = s.sin := (trigger_fab b s).sin
@[simp] theorem trigger_sout (b : Byte) (s : State) : (trigger b s).sout = s.sout := (trigger_fab b s).sout
@[simp] theorem trigger_alp (b : Byte) (s : State) : (trigger b s).alp = s.alp := (trigger_fab b s).alp
@[simp] theorem trigger_csl (b : Byte) (s : State) : (trigger b s).csl = s.csl := (trigger_fab b s).csl
@[simp] theorem trigger_csc (b : Byte) (s : State) : (trigger b s).csc = s.csc := (trigger_fab b s).csc
@[simp] theorem trigger_otp (b : Byte) (s : State) : (trigger b s).otp = s.otp := (trigger_fab b s).otp
@[simp] theorem trigger_upd (b : Byte) (s : State) : (trigger b s).upd = s.upd := (trigger_fab b s).upd
@[simp] theorem trigger_pending (b : Byte) (s : State) : (trigger b s).pending = s.pending := (trigger_fab b s).pending
@[simp] theorem trigger_fresh (b : Byte) (s : State) : (trigger b s).fresh = s.fresh := (trigger_fab b s).fresh
@[simp] theorem trigger_core (b : Byte) (s : State) : (trigger b s).eng.c = s.eng.c := (trigger_fab b s).core
@[simp] theorem trigger_units (b : Byte) (s : State) : (trigger b s).cvu.u = s.cvu.u := (trigger_fab b s).units

end Sys2Proof.Machine
end

