-- ==== Sys2Proof/Laws/Engine.lean ====
section
/-! SUPPORT. What one TSL-32 instruction does when nothing stands in its way, and what a register write leaves. -/

namespace Sys2Proof.Machine

/-- A value and its complement agree in a lane. -/
@[simp] theorem Field.off_not (l k w : Nat) (v : Word) : Field.off ⟨l, k, w, v, ~~~v⟩ = false := by simp [Field.off]

/-- A value and the complement that a pass complements back agree. -/
theorem Field.off_eq {l k w : Nat} {v p : Word} (h : p = ~~~v) : Field.off ⟨l, k, w, v, p⟩ = false := by rw [h]; exact Field.off_not ..

/-- A bit and its inverse agree in a lane. -/
@[simp] theorem Field.off_bit (l k : Nat) (b : Bool) : Field.off ⟨l, k, 1, flag b 0, flag (!b) 0⟩ = false := by
  cases b <;> simp only [Field.off, Field.mask, flag] <;> decide

@[simp] theorem flips_nil {i : Issue} (h : i.dis = []) (l k : Nat) : flips i l k = 0 := by simp [flips, h]

theorem Field.hit_nil {i : Issue} (h : i.dis = []) (f : Field) : Field.hit i f = f := by
  cases f; simp [Field.hit, flips_nil h]

/-! ## The queues of a safety core -/

@[simp] theorem onC_onC (c : Fin 4) (f g : Core → Core) (s : State) : (s.onC c f).onC c g = s.onC c (fun x => g (f x)) := by
  simp [State.onC, State.onEng, Tab.upd_upd]

theorem onC_same (c : Fin 4) (f : Core → Core) (s : State) (h : f s.eng.c[c] = s.eng.c[c]) : s.onC c f = s := by
  simp [State.onC, State.onEng, Tab.upd_eq_self h]

/-- Committing does not see what else the queue holds. -/
theorem Pend.apply_onC (e : Fin 24) (p : Pend) (c : Fin 4) (f : Core → Core) (s : State) :
    p.apply e (s.onC c f) = (p.apply e s).onC c f := by
  cases p <;> rfl

/-- A result that has passed the queue stands in the files or in memory, and the queue is as before (R122). -/
@[simp] theorem commitPut_eq (e : Fin 24) (p : Pend) (s : State) : commitPut e p s = p.apply e s := by
  unfold commitPut commit pendPut
  split
  · have h : ((s.onC (coreOf e) fun x => { x with pend := x.pend ++ [p] }).eng.c[coreOf e]).pend.getLast? = some p := by
      simp [State.onC, State.onEng]
    rw [h]
    show ((p.apply e _).onC _ _) = _
    rw [Pend.apply_onC, onC_onC]
    exact onC_same _ _ _ (by simp)
  · rfl

theorem wPut_eq (e : Fin 24) (n : WReg) (v : Word) (s : State) : wPut e n v s = onBank e (Bank.put n v) s := commitPut_eq ..
theorem pPut_eq (e : Fin 24) (n : PReg) (v : Bool) (s : State) : pPut e n v s = onBank e (Bank.putP n v) s := commitPut_eq ..

/-- Nothing is forwarded to an instruction that begins: it reads the files (R118). -/
@[simp] theorem knitRegs_issue (s : State) (e : Fin 24) : knitRegs (issue e s) e = ⟨wGet s e, pGet s e⟩ := by
  have h : pendOf (issue e s) e = [] := by
    unfold pendOf issue
    split
    · simp [State.onC, State.onEng]
    · rfl
  have hw : ∀ r, wGet (issue e s) e r = wGet s e r := by
    intro r; unfold issue; split <;> rfl
  have hp : ∀ p, pGet (issue e s) e p = pGet s e p := by
    intro p; unfold issue; split <;> rfl
  unfold knitRegs
  congr 1 <;> funext x
  · by_cases hx : x = 0
    · simp [hx, wGet]
    · simp only [hx, if_false, h, forwardW, List.reverse_nil, List.findSome?_nil, Option.getD_none, hw]
  · by_cases hx : x = 0
    · simp [hx, pGet]
    · simp only [hx, if_false, h, forwardP, List.reverse_nil, List.findSome?_nil, Option.getD_none, hp]

/-- The purl pass reads the committed files, which an instruction that begins leaves. -/
@[simp] theorem purlRegs_issue (s : State) (e : Fin 24) : purlRegs (issue e s) e = purlRegs s e := by
  unfold issue; split <;> rfl

theorem issue_samples (s : State) (e : Fin 24) (h : twin e = true) : ((issue e s).eng.c[coreOf e]).samples = [] := by
  simp [issue, h, State.onC, State.onEng]

/-- R123: the purl pass reads, complemented, what the knit pass reads. -/
@[simp] theorem purlRegs_back (s : State) (e : Fin 24) : (purlRegs s e).back = ⟨wGet s e, pGet s e⟩ := by
  simp [purlRegs, Regs.back]

/-- Both passes fetch the same word from the same address (R124). -/
theorem purlWord_not {s : State} {e : Fin 24} (h : purlPcOf s e = ~~~(pcOf s e)) : purlWord s e = ~~~(codeWord s e) := by
  simp [purlWord, codeWord, h]

/-- What lane 3 needs of a transfer. -/
def Hop.agrees (h : Hop) : Prop := h.purlTaken = !h.taken ∧ h.purlNext = ~~~h.next

theorem laneHop_agrees {s : State} {e : Fin 24} {hop : Option Hop} (h : purlPcOf s e = ~~~(pcOf s e))
    (hh : ∀ x, hop = some x → x.agrees) : ∀ f ∈ laneHop s e hop, f.off = false := by
  have hn : purlNext (~~~(pcOf s e)) = ~~~(pcOf s e + 4) := by simp only [purlNext]; bv_omega
  cases hop with
  | none => simp [laneHop, h, hn, purlWord_not h]; exact Field.off_bit 3 0 false
  | some x =>
    have hx := hh x rfl
    simp [laneHop, hx.1, hx.2, purlWord_not h]

theorem laneTrap_agrees {s : State} {e : Fin 24} (h : purlPcOf s e = ~~~(pcOf s e)) (c : Option Cause) :
    ∀ f ∈ laneTrap s e c c, f.off = false := by
  simp [laneTrap, h]

/-- What an instruction with nothing in its way does comes down to its work. -/
theorem judge_clear {i : Issue} {word : Word} {lo hi : Nat} {rs : List WReg} {ps : List PReg} {work : Work} {s : State}
    (h : tslClear i word lo hi rs ps s) (k q : Regs) :
    judge word i (stepsOf i lo hi) rs ps work k q s = work k q (fetchReport i s) := by
  obtain ⟨-, h2, h3, h4, h5, -⟩ := h
  simp only [judge, h2, h3, h4, h5, wordIs]
  cases work k q (fetchReport i s) with
  | trap c => cases c <;> rfl
  | ok => rfl

/-- An instruction with nothing in its way does its work on the state after its fetch, and completes where both passes form the
same (R99, R130). -/
theorem tsl_clear {i : Issue} {word : Word} {lo hi : Nat} {rs : List WReg} {ps : List PReg} {work : Work}
    {s u : State} {hop : Option Hop} {cmp : List Field} (h : tslClear i word lo hi rs ps s)
    (hb : work ⟨wGet s i.eng, pGet s i.eng⟩ (purlRegs s i.eng) (fetchReport i s) = .ok u hop cmp)
    (hc : twin i.eng = true → ∀ f ∈ cmp, f.off = false) (hh : twin i.eng = true → ∀ x, hop = some x → x.agrees) :
    tsl word i lo hi rs ps work s = complete i.eng (taskOf s i.eng) (pcOf s i.eng) (stepsOf i lo hi) hop u := by
  have hj := fun k q => judge_clear (work := work) h k q
  obtain ⟨h1, h2, h3, -, -, h6, h7⟩ := h
  have ho : (if twin i.eng = true then
      ((compared s i.eng (.ok u hop cmp) none).map (Field.hit i)).filter Field.off else []) = [] := by
    split
    case isFalse => rfl
    case isTrue ht =>
      obtain ⟨hd, hp⟩ := h7 ht
      have hid : Field.hit i = id := funext fun f => Field.hit_nil hd f
      rw [hid, List.map_id, List.filter_eq_nil_iff]
      intro f hf
      rw [compared, List.mem_append, List.mem_append] at hf
      rcases hf with (hf | hf) | hf
      · simp [hc ht f hf]
      · simp [laneHop_agrees hp (hh ht) f hf]
      · simp [laneTrap_agrees hp none f hf]
  simp only [tsl, h1, h2, h3, hj, knitRegs_issue, hb, purlRegs_back, wordIs, stepsTaken, Res.cause]
  simp [ho, h6]

/-- An instruction with nothing in its way whose work raises a cause traps with it (R131). -/
theorem tsl_trap {i : Issue} {word : Word} {lo hi : Nat} {rs : List WReg} {ps : List PReg} {work : Work} {s : State} {c : Cause}
    (h : tslClear i word lo hi rs ps s) (hb : work ⟨wGet s i.eng, pGet s i.eng⟩ (purlRegs s i.eng) (fetchReport i s) = .trap c)
    (hf : testFull s i.eng (stepsOf i 1 1) = false) :
    tsl word i lo hi rs ps work s =
      trapNow i.eng c (if c = .illegal then stepsOf i 1 1 else stepsOf i lo hi) (fetchReport i s) := by
  have hj := fun k q => judge_clear (work := work) h k q
  obtain ⟨h1, h2, h3, -, -, h6, h7⟩ := h
  have ho : (if twin i.eng = true then
      ((compared s i.eng (.trap c) (some c)).map (Field.hit i)).filter Field.off else []) = [] := by
    split
    case isFalse => rfl
    case isTrue ht =>
      obtain ⟨hd, hp⟩ := h7 ht
      have hid : Field.hit i = id := funext fun f => Field.hit_nil hd f
      rw [hid, List.map_id, List.filter_eq_nil_iff]
      intro f hf
      rw [compared, List.mem_append] at hf
      rcases hf with hf | hf
      · simp [laneHop_agrees hp (hop := none) (by simp) f hf]
      · simp [laneTrap_agrees hp (some c) f hf]
  have hm : testFull s i.eng (stepsTaken i s (stepsOf i lo hi) (.trap c)) = false := by
    simp only [stepsTaken]; split <;> assumption
  have he : stepsTaken i s (stepsOf i lo hi) (.trap c) = if c = .illegal then stepsOf i 1 1 else stepsOf i lo hi := by
    simp [stepsTaken, h2, Res.cause]
  have hfe : fetched i s = fetchReport i s := by simp [fetched, h2]
  have hb' : ∀ q, q = (⟨wGet s i.eng, pGet s i.eng⟩ : Regs) → work q (purlRegs s i.eng) (fetchReport i s) = .trap c := by rintro q rfl; exact hb
  simp only [tsl, h1, h2, h3, hj, knitRegs_issue, purlRegs_back, wordIs, hb, Res.cause, hm]
  simp [ho, he, hfe]

/-! ## Lanes of the results -/

theorem laneReg_agrees {d : WReg} {v pv : Word} (h : pv = ~~~v) : ∀ f ∈ laneReg d v pv, f.off = false := by
  simp [laneReg, h]

theorem lanePred_agrees {d : PReg} {v pv : Bool} (h : pv = !v) : ∀ f ∈ lanePred d v pv, f.off = false := by
  simp [lanePred, h]

theorem lanePort_agrees {s : State} {e : Fin 24} (h : purlPcOf s e = ~~~(pcOf s e)) : ∀ f ∈ lanePort s e, f.off = false := by
  simp [lanePort, purlWord_not h]

/-- The purl pass takes back the sample that the knit pass of the same instruction placed (R128). -/
theorem laneSample_agrees {s : State} {e : Fin 24} {d : WReg} {tag v : Word}
    (hs : twin e = true → (s.eng.c[coreOf e]).samples = []) : ∀ f ∈ laneSample s e d tag v, f.off = false := by
  have h : (sampleOldest e (samplePut e ⟨tag, v⟩ s)).getD ⟨tag, v⟩ = ⟨tag, v⟩ := by
    unfold sampleOldest samplePut
    by_cases ht : twin e = true
    · have h0 := hs ht
      simp only [Fin.getElem_fin] at h0
      simp [ht, State.onC, State.onEng, h0]
    · simp [ht]
  simp [laneSample, h, laneReg]

theorem replay_ok (e : Fin 24) (d : WReg) (v : Word) (s0 s : State) (h : purlPcOf s0 e = ~~~(pcOf s0 e))
    (hs : twin e = true → (s0.eng.c[coreOf e]).samples = []) :
    ∃ cmp, replay e d v s0 s = .ok (wPut e d v s) none cmp ∧ ∀ f ∈ cmp, f.off = false := by
  refine ⟨_, rfl, ?_⟩
  intro f hf
  rcases List.mem_append.mp hf with hf | hf
  · exact laneSample_agrees hs f hf
  · exact lanePort_agrees h f hf

theorem portCmp_agrees {s : State} {e : Fin 24} {v pv : Word} (h : purlPcOf s e = ~~~(pcOf s e)) (hv : pv = ~~~v) :
    ∀ f ∈ portCmp s e v pv, f.off = false := by
  simp [portCmp, lanePort, laneVal, purlWord_not h, hv]

/-- The fetch stays within the event fabric: at most it reports a corrected word. -/
theorem fetchReport_fab (i : Issue) (s : State) : Fab (issue i.eng s) (fetchReport i s) := by
  unfold fetchReport eccCorrected
  dsimp only
  split
  · exact report_fab ..
  · exact Fab.refl _

theorem fetchReport_samples (i : Issue) (s : State) (h : twin i.eng = true) :
    ((fetchReport i s).eng.c[coreOf i.eng]).samples = [] := by
  rw [(fetchReport_fab i s).core]; exact issue_samples s i.eng h

/-- An instruction completes after a change of the running task's bank: what it leaves. -/
theorem ran_onBank (i : Issue) (n : Nat) (pc : Word) (hop : Option Hop) (f : Bank → Bank) (b : State) :
    Ran i n (nextAddr pc hop) (fun r => if r = 0 then 0 else (f (rbank b i.eng)).w[r])
      (fun p => p == 0 || bit (f (rbank b i.eng)).p p.val) b
      (complete i.eng (taskOf b i.eng) pc n hop (onBank i.eng f b)) := by
  by_cases h1 : twin i.eng = true <;> by_cases h2 : b.eng.e[i.eng.val].task.getD 0 = 2 <;>
    refine ⟨?_, ?_, ?_, ?_, ?_, ?_, ?_, ?_, ?_, ?_, ?_⟩ <;>
      simp [complete, spend, onBank, otherBank, wGet, pGet, rbank, bankIsT, taskOf, h1, h2, State.onC, State.onE, State.onEng]
  all_goals first
    | (intro g hg
       have hn : ¬ i.eng.val = g.val := fun h => hg (Fin.ext h.symm)
       simp [hn])
    | (intro c
       by_cases hc : coreOf i.eng = c
       · subst hc; simp
       · have hn : ¬ (coreOf i.eng).val = c.val := fun h => hc (Fin.ext h)
         simp [hn])
    | (intro k
       by_cases hk : k = 2
       · subst hk; simp
       · have hn : ¬ 2 = k.val := fun h => hk (Fin.ext h.symm)
         simp [hk, hn])
    | (intro k
       by_cases hk : k = b.eng.e[i.eng.val].task.getD 0
       · subst hk; simp
       · have hn : ¬ (b.eng.e[i.eng.val].task.getD 0).val = k.val := fun h => hk (Fin.ext h.symm)
         simp [hk, hn])

theorem Ran.congr {i : Issue} {n : Nat} {next : Word} {W W' : WReg → Word} {P P' : PReg → Bool} {b u : State}
    (h : Ran i n next W P b u) (hW : ∀ r, W r = W' r) (hP : ∀ p, P p = P' p) : Ran i n next W' P' b u := by
  rw [← funext hW, ← funext hP]; exact h

/-- An instruction that writes W[d] and completes. -/
theorem ran_wPut (i : Issue) (n : Nat) (pc : Word) (hop : Option Hop) (d : WReg) (v : Word) (b : State) :
    Ran i n (nextAddr pc hop) (setW b i.eng d v) (pGet b i.eng) b
      (complete i.eng (taskOf b i.eng) pc n hop (wPut i.eng d v b)) := by
  rw [wPut_eq]
  refine (ran_onBank i n pc hop (Bank.put d v) b).congr (fun r => ?_) (fun p => ?_)
  · by_cases hd : d = 0
    · simp [setW, wGet, Bank.put, hd]
    · by_cases hr : r = d
      · subst hr; simp [setW, Bank.put, hd]
      · have hn : ¬ d.val = r.val := fun h => hr (Fin.ext h.symm)
        simp [setW, wGet, Bank.put, hd, hr, hn]
  · by_cases hd : d = 0 <;> simp [pGet, Bank.put, hd]

/-- An instruction that writes P[d] and completes. -/
theorem ran_pPut (i : Issue) (n : Nat) (pc : Word) (hop : Option Hop) (d : PReg) (v : Bool) (b : State) :
    Ran i n (nextAddr pc hop) (wGet b i.eng) (setP b i.eng d v) b
      (complete i.eng (taskOf b i.eng) pc n hop (pPut i.eng d v b)) := by
  rw [pPut_eq]
  refine (ran_onBank i n pc hop (Bank.putP d v) b).congr (fun r => ?_) (fun p => ?_)
  · by_cases hd : d = 0 <;> simp [wGet, Bank.putP, hd]
  · by_cases hd : d = 0
    · simp [setP, pGet, Bank.putP, hd]
    · have hs := bit_setBit (rbank b i.eng).p d.val p.val v d.isLt
      by_cases hp : p = d
      · subst hp; simp [setP, Bank.putP, hd, hs]
      · have hn : ¬ p.val = d.val := fun h => hp (Fin.ext h)
        simp [setP, pGet, Bank.putP, hd, hp, hs, hn]

/-- An instruction that writes no register and completes. -/
theorem ran_none (i : Issue) (n : Nat) (pc : Word) (hop : Option Hop) (b : State) :
    Ran i n (nextAddr pc hop) (wGet b i.eng) (pGet b i.eng) b (complete i.eng (taskOf b i.eng) pc n hop b) := by
  have h := ran_onBank i n pc hop id b
  have e : onBank i.eng id b = b := by
    have hf : (fun x : Engine => if bankIsT b i.eng then { x with bankT := id x.bankT } else { x with bankS := id x.bankS })
        = fun x => x := by
      funext x; split <;> rfl
    unfold onBank
    rw [hf]
    simp only [State.onE, State.onEng, Tab.upd_same]
  rw [e] at h
  exact h

/-- A fetch leaves the running task, its address, its registers and its predicates. -/
theorem fetchReport_regs (i : Issue) (s : State) (e : Fin 24) : SameRegs s.eng.e[e] (fetchReport i s).eng.e[e] := by
  have h : (issue i.eng s).eng.e = s.eng.e := by unfold issue; split <;> rfl
  have hf := (fetchReport_fab i s).regs e.val e.isLt
  simp only [h] at hf
  exact hf

@[simp] theorem fetchReport_taskOf (i : Issue) (s : State) (e : Fin 24) : taskOf (fetchReport i s) e = taskOf s e := by
  unfold taskOf; rw [fetchReport_regs i s e]

@[simp] theorem fetchReport_pcOf (i : Issue) (s : State) (e : Fin 24) : pcOf (fetchReport i s) e = pcOf s e := by
  have h : (fetchReport i s).eng.e[e].pc = s.eng.e[e].pc := by rw [fetchReport_regs i s e]
  simp only [pcOf, fetchReport_taskOf, h]

@[simp] theorem fetchReport_rbank (i : Issue) (s : State) (e : Fin 24) : rbank (fetchReport i s) e = rbank s e := by
  unfold rbank bankIsT; rw [fetchReport_taskOf, fetchReport_regs i s e]

@[simp] theorem fetchReport_wGet (i : Issue) (s : State) (e : Fin 24) (r : WReg) : wGet (fetchReport i s) e r = wGet s e r := by
  simp [wGet]

@[simp] theorem fetchReport_pGet (i : Issue) (s : State) (e : Fin 24) (p : PReg) : pGet (fetchReport i s) e p = pGet s e p := by
  simp [pGet]

end Sys2Proof.Machine
end

