-- ==== Sys2Proof/Laws/Memory.lean ====
section
/-! SUPPORT. The laws of the memories: every write keeps the canonical form, and what a read gives after a write. -/

namespace Sys2Proof

/-! ## Tables of sparse memories -/

theorem Tab.all_iff {α : Type} {n : Nat} (t : Tab α n) (f : α → Bool) : t.all f = true ↔ ∀ i : Fin n, f t[i] = true := by
  unfold Tab.all
  rw [List.all_eq_true]
  constructor
  · intro h i; exact h _ (by simp)
  · intro h x hx
    obtain ⟨i, hi, rfl⟩ := List.mem_iff_getElem.mp hx
    have hn : i < n := by simpa using hi
    simpa using h ⟨i, hn⟩

theorem Tab.all_upd {α : Type} {n : Nat} {t : Tab α n} {f : α → Bool} {i : Fin n} {g : α → α}
    (h : t.all f = true) (hg : ∀ x, f x = true → f (g x) = true) : (t.upd i g).all f = true := by
  rw [Tab.all_iff] at h ⊢
  intro j
  have hj := Tab.upd_get t i j.val j.isLt g
  show f ((t.upd i g)[j.val]) = true
  rw [hj]
  split
  · exact hg _ (h i)
  · exact h j

end Sys2Proof

namespace Sys2Proof.Machine

/-! ## Writes keep the form -/

theorem Memory.wf_iff (m : MemS) : Memory.wf m = true ↔
    (∀ k : Fin 16, Sparse.wf 0 m.own[k] = true) ∧ Sparse.wf 0 m.shared = true ∧ Sparse.wf 0 m.keyStore = true := by
  simp only [Memory.wf, Bool.and_eq_true, Tab.all_iff, and_assoc]

theorem writeByte_wf {m : MemS} (e : Fin 24) (a : Nat) (b : Byte) (h : Memory.wf m = true) :
    Memory.wf (writeByte e a b m) = true := by
  simp only [Memory.wf, Bool.and_eq_true] at h ⊢
  unfold writeByte
  split
  · exact ⟨⟨h.1.1, Sparse.wf_put h.1.2⟩, h.2⟩
  · exact ⟨⟨Tab.all_upd h.1.1 fun _ hx => Sparse.wf_put hx, h.1.2⟩, h.2⟩

theorem writeBytes_wf {m : MemS} (e : Fin 24) (a : Nat) (l : List Byte) (h : Memory.wf m = true) :
    Memory.wf (writeBytes e a l m) = true := by
  induction l generalizing a m with
  | nil => exact h
  | cons b l ih => exact ih (a + 1) (writeByte_wf e a b h)

theorem eccSet_wf {m : MemS} (e : Fin 24) (a : Nat) (x : Option Bool) (h : Memory.wf m = true) :
    Memory.wf (eccSet e a x m) = true := by
  unfold eccSet
  split <;> exact h

/-- Erased, of every memory. -/
theorem empty_wf : Memory.wf {} = true := by
  rw [Memory.wf_iff]
  exact ⟨fun k => by simp, rfl, rfl⟩

/-- The carrier engines' memories are emptied where PD-CE goes off (R32, R33). -/
theorem ceOff_inv {s : State} (h : s.Inv) : (ceOff s).Inv := by
  have h' : Memory.wf s.mem = true := h
  simp only [Memory.wf, Bool.and_eq_true] at h'
  show Memory.wf (ceOff s).mem = true
  simp only [Memory.wf, Bool.and_eq_true]
  exact ⟨⟨Tab.all_upd (Tab.all_upd h'.1.1 fun _ _ => rfl) fun _ _ => rfl, h'.1.2⟩, h'.2⟩

/-- An equaliser record enters shared SRAM in the canonical form (R343). -/
theorem eqStore_inv {s : State} (p : Fin 4) (a : BitVec 10) (rec : List Byte) (h : s.Inv) : (eqStore p a rec s).Inv := by
  have fold : ∀ (l : List Nat) (f : Nat → Nat) (m : MemS), Memory.wf m = true →
      Memory.wf (l.foldl (fun m i => eccSet 12 (f i) none m) m) = true := by
    intro l f
    induction l with
    | nil => intro m hm; exact hm
    | cons x l ih => intro m hm; exact ih _ (eccSet_wf 12 (f x) none hm)
  unfold eqStore
  split
  · exact h
  · exact fold _ _ _ (writeBytes_wf 12 _ _ h)

/-- Writes to the flash keep its canonical form. -/
theorem flashWrite_wf {f : Sparse Byte} (a : Nat) (l : List Byte) (h : Sparse.wf 0xFF f = true) :
    Sparse.wf 0xFF (flashWrite a l f) = true := by
  induction l generalizing a f with
  | nil => exact h
  | cons b l ih => exact ih (a + 1) (Sparse.wf_put h)

theorem filter_wfFrom {f : Sparse Byte} (p : Nat × Byte → Bool) (lo : Nat) (h : Sparse.wfFrom 0xFF lo f = true) :
    Sparse.wfFrom 0xFF lo (f.filter p) = true := by
  induction f generalizing lo with
  | nil => rfl
  | cons x f ih =>
    obtain ⟨j, y⟩ := x
    simp only [Sparse.wfFrom, Bool.and_eq_true, decide_eq_true_eq] at h
    rw [List.filter_cons]
    split
    · simp only [Sparse.wfFrom, Bool.and_eq_true, decide_eq_true_eq]; exact ⟨h.1, ih _ h.2⟩
    · exact ih _ (Sparse.wfFrom_mono h.2 (by omega))

/-- Erasing keeps the form of the flash. -/
theorem flashErase_wf {f : Sparse Byte} (a n : Nat) (h : Sparse.wf 0xFF f = true) :
    Sparse.wf 0xFF (flashErase a n f) = true := filter_wfFrom _ 0 h

/-! ## Reads after writes -/

/-- A byte read after a byte written by the same engine: the byte written at its address, what was there elsewhere. The boot ROM is not
written. -/
theorem readByte_writeByte {m : MemS} (e : Fin 24) (a x : Nat) (b : Byte) (h : Memory.wf m = true)
    (hr : (clsOf e == .bc && decide (a < 0x10000)) = false) :
    readByte (writeByte e a b m) e x = if x = a then b else readByte m e x := by
  rw [Memory.wf_iff] at h
  by_cases ha : inShared a 1 = true <;> by_cases hx : inShared x 1 = true
  · simp only [readByte, writeByte, ha, hx, if_true, Sparse.get_put h.2.1]
  · have hne : x ≠ a := fun he => hx (he ▸ ha)
    simp only [readByte, writeByte, ha, hx, if_true, hne, if_false, Bool.false_eq_true]
  · have hne : x ≠ a := fun he => ha (he ▸ hx)
    simp only [readByte, writeByte, ha, hx, if_true, hne, if_false, Bool.false_eq_true]
  · simp only [readByte, writeByte, ha, hx, Bool.false_eq_true, if_false]
    by_cases hxa : x = a
    · subst hxa
      rw [hr]
      simp only [Bool.false_eq_true, if_false, if_true]
      have := Tab.upd_get m.own (memOf e) (memOf e).val (memOf e).isLt fun l => Sparse.put 0 l x b
      show Sparse.get 0 ((m.own.upd (memOf e) fun l => Sparse.put 0 l x b)[(memOf e).val]) x = b
      rw [this, if_pos rfl, Sparse.get_put (h.1 _), if_pos rfl]
    · simp only [hxa, if_false]
      split
      · rfl
      · have := Tab.upd_get m.own (memOf e) (memOf e).val (memOf e).isLt fun l => Sparse.put 0 l a b
        show Sparse.get 0 ((m.own.upd (memOf e) fun l => Sparse.put 0 l a b)[(memOf e).val]) x = _
        rw [this, if_pos rfl, Sparse.get_put (h.1 _), if_neg hxa]

end Sys2Proof.Machine
end

