-- ==== Sys2Proof/Laws/Twin.lean ====
section
/-! SUPPORT. Without a disturbance the purl pass gives the complement of the knit result (R126, R127), so that no lane disagrees. -/

namespace Sys2Proof.Machine

theorem not_eq_neg (x : Word) : ~~~x = -x - 1 := by
  have := BitVec.neg_eq_not_add x
  rw [this]; bv_omega

theorem purlAdd_not (a b : Word) : purlAdd (~~~a) (~~~b) = ~~~(a + b) := by
  simp only [purlAdd, not_eq_neg]; ring

theorem purlSub_not (a b : Word) : purlSub (~~~a) (~~~b) = ~~~(a - b) := by
  simp only [purlSub, not_eq_neg]; ring

theorem purlAddi_not (imm : Half) (a : Word) : purlAddi imm (~~~a) = ~~~(a + sext imm) := by
  simp only [purlAddi, not_eq_neg]; bv_omega

theorem purlAnd_not (a b : Word) : purlAnd (~~~a) (~~~b) = ~~~(a &&& b) := by
  simp [purlAnd, BitVec.not_and]

theorem purlAndi_not (imm : Half) (a : Word) : purlAndi imm (~~~a) = ~~~(a &&& imm.zeroExtend 32) := by
  simp [purlAndi, BitVec.not_and]

theorem purlOr_not (a b : Word) : purlOr (~~~a) (~~~b) = ~~~(a ||| b) := by
  simp [purlOr, BitVec.not_or]

theorem purlOri_not (imm : Half) (a : Word) : purlOri imm (~~~a) = ~~~(a ||| imm.zeroExtend 32) := by
  simp [purlOri, BitVec.not_or]

theorem purlXor_not (a b : Word) : purlXor (~~~a) (~~~b) = ~~~(a ^^^ b) := by
  ext i hi; simp [purlXor]

theorem purlXori_not (imm : Half) (a : Word) : purlXori imm (~~~a) = ~~~(a ^^^ imm.zeroExtend 32) := by
  ext i hi; simp [purlXori]

theorem purlAndn_not (a b : Word) : purlAndn (~~~a) (~~~b) = ~~~(a &&& ~~~b) := by
  ext i hi; simp [purlAndn]

theorem purlCount_not (b : Word) : purlCount (~~~b) = shCount b := by simp [purlCount]

theorem purlShl_not (a : Word) (n : Nat) : purlShl (~~~a) n = ~~~(shl a n) := by
  ext i hi
  by_cases h : i < n
  · simp [purlShl, shl, h, -BitVec.reduceAllOnes]
  · have : i - n < 32 := by omega
    simp [purlShl, shl, h, -BitVec.reduceAllOnes]

theorem purlShr_not (a : Word) (n : Nat) : purlShr (~~~a) n = ~~~(shr a n) := by
  ext i hi
  by_cases h : n + i < 32
  · simp [purlShr, shr, h, -BitVec.reduceAllOnes]
  · have : 32 ≤ n + i := by omega
    simp [purlShr, shr, this, BitVec.getLsbD_of_ge, -BitVec.reduceAllOnes]

theorem purlSar_not (a : Word) (n : Nat) : purlSar (~~~a) n = ~~~(sar a n) := by
  ext i hi
  simp only [purlSar, sar, BitVec.getElem_not, BitVec.getElem_sshiftRight, BitVec.msb_not]
  split <;> simp

theorem purlRol_not (a : Word) (n : Nat) : purlRol (~~~a) n = ~~~(rol a n) := by
  ext i hi
  simp only [purlRol, rol, BitVec.getElem_not, BitVec.getElem_rotateLeft]
  split <;> simp

theorem not_ult (a b : Word) : (~~~a).ult (~~~b) = b.ult a := by
  simp only [BitVec.ult, BitVec.toNat_not, decide_eq_decide]; have := a.isLt; have := b.isLt; omega

theorem not_slt (a b : Word) : (~~~a).slt (~~~b) = b.slt a := by
  simp only [BitVec.slt_eq_ult, BitVec.msb_not, not_ult]
  cases a.msb <;> cases b.msb <;> simp

theorem purlMin_not (a b : Word) : purlMin (~~~a) (~~~b) = ~~~(minS a b) := by
  simp only [purlMin, maxS, minS, not_slt]; split <;> rfl

theorem purlMax_not (a b : Word) : purlMax (~~~a) (~~~b) = ~~~(maxS a b) := by
  simp only [purlMax, maxS, minS, not_slt]; split <;> rfl

theorem purlMinu_not (a b : Word) : purlMinu (~~~a) (~~~b) = ~~~(minU a b) := by
  simp only [purlMinu, maxU, minU, not_ult]; split <;> rfl

theorem purlMaxu_not (a b : Word) : purlMaxu (~~~a) (~~~b) = ~~~(maxU a b) := by
  simp only [purlMaxu, maxU, minU, not_ult]; split <;> rfl

theorem purlSel_not (p : Bool) (a b : Word) : purlSel (!p) (~~~a) (~~~b) = ~~~(if p then a else b) := by
  cases p <;> rfl

theorem purlSextb_not (a : Word) : purlSextb (~~~a) = ~~~(sextB a) := by
  ext i hi
  simp only [purlSextb, sextB, BitVec.getElem_not, BitVec.getElem_signExtend, BitVec.msb_eq_getLsbD_last]
  split <;> simp

theorem purlSexth_not (a : Word) : purlSexth (~~~a) = ~~~(sextH a) := by
  ext i hi
  simp only [purlSexth, sextH, BitVec.getElem_not, BitVec.getElem_signExtend, BitVec.msb_eq_getLsbD_last]
  split <;> simp

theorem purlCond_not (c : Nat) (a b : Word) : purlCond c (~~~a) (~~~b) = (condition c a b).map (!·) := by
  have hne : ∀ x y : Word, (~~~x = ~~~y) ↔ x = y := fun x y => BitVec.not_inj
  have h1 : ((~~~a == ~~~b) : Bool) = (a == b) := by rw [Bool.eq_iff_iff, beq_iff_eq, beq_iff_eq, hne]
  have h2 : (~~~a ||| ~~~b) = ~~~(a &&& b) := BitVec.not_and.symm
  have h3 : ((~~~(a &&& b) == (0xFFFFFFFF : Word)) : Bool) = ((a &&& b) == 0) := by
    have : (0xFFFFFFFF : Word) = ~~~0 := by decide
    rw [Bool.eq_iff_iff, beq_iff_eq, beq_iff_eq, this, hne]
  match c with
  | 0 => simp only [purlCond, condition, Option.map_some, bne, h1]
  | 1 => simp only [purlCond, condition, Option.map_some, bne, h1, Bool.not_not]
  | 2 => simp [purlCond, condition, not_slt]
  | 3 => simp [purlCond, condition, not_slt]
  | 4 => simp [purlCond, condition, not_ult]
  | 5 => simp [purlCond, condition, not_ult]
  | 6 => simp only [purlCond, condition, Option.map_some, h2, h3, bne, Bool.not_not]
  | 7 => simp only [purlCond, condition, Option.map_some, h2, bne, h3]
  | n + 8 => rfl

theorem purlLogic_not (a b : Bool) :
    purlPand (!a) (!b) = !(a && b) ∧ purlPor (!a) (!b) = !(a || b) ∧ purlPxor (!a) (!b) = !(a ^^ b) ∧
    purlPandn (!a) (!b) = !(a && !b) := by
  cases a <;> cases b <;> decide

theorem purlUnary_not (a : Bool) : purlPnot (!a) = !(!a) ∧ purlPmov (!a) = !a ∧ purlPset = !true ∧ purlPclr = !false := by
  cases a <;> decide

theorem purlShift_not (k : BitVec 2) (n : Nat) (a : Word) : purlShift k n (~~~a) = ~~~(shiftKind k n a) := by
  simp only [purlShift, shiftKind, purlShl_not, purlShr_not, purlSar_not, purlRol_not]
  split <;> [rfl; (split <;> [rfl; (split <;> rfl)])]

/-- Zeros above a value. -/
theorem zeroExtend_append (m n : Nat) (x : BitVec n) : x.zeroExtend (m + n) = (0#m ++ x) := by
  apply BitVec.eq_of_toNat_eq
  rw [BitVec.toNat_append]
  have := x.isLt
  have h2 : 2 ^ n ≤ 2 ^ (m + n) := Nat.pow_le_pow_right (by omega) (by omega)
  simp [BitVec.toNat_setWidth, Nat.mod_eq_of_lt (Nat.lt_of_lt_of_le this h2)]
/-- Ones above a complemented value. -/
theorem ones_append (m n : Nat) (x : BitVec n) : BitVec.allOnes m ++ ~~~x = ~~~(x.zeroExtend (m + n)) := by
  rw [zeroExtend_append, BitVec.not_append, BitVec.not_zero]
/-- Zeros below a value. -/
theorem append_zero (m n : Nat) (x : BitVec m) : x ++ 0#n = x.zeroExtend (m + n) <<< n := by
  apply BitVec.eq_of_toNat_eq
  rw [BitVec.toNat_append, BitVec.toNat_shiftLeft, BitVec.toNat_setWidth]
  have hx := x.isLt
  have h2 : 2 ^ m ≤ 2 ^ (m + n) := Nat.pow_le_pow_right (by omega) (by omega)
  have h3 : x.toNat * 2 ^ n < 2 ^ (m + n) := by rw [Nat.pow_add]; exact Nat.mul_lt_mul_of_pos_right hx (Nat.two_pow_pos n)
  simp [Nat.mod_eq_of_lt (Nat.lt_of_lt_of_le hx h2), Nat.shiftLeft_eq, Nat.mod_eq_of_lt h3]

theorem purlLui_not (imm : Half) : purlLui imm = ~~~(imm.zeroExtend 32 <<< 16) :=
  congrArg (~~~ ·) (append_zero 16 16 imm)

theorem purlAddr_not (a : Word) (imm : Half) : purlAddr (~~~a) imm = ~~~(a + sext imm) := by
  simp only [purlAddr, not_eq_neg]; bv_omega

theorem purlNext_not (pc : Word) : purlNext (~~~pc) = ~~~(pc + 4) := by
  simp only [purlNext, not_eq_neg]; bv_omega

theorem purlTarget_not (pc off : Word) : purlTarget (~~~pc) off = ~~~(pc + off * 4) := by
  simp only [purlTarget, not_eq_neg]; ring

/-! ## Loads: the complemented bytes give the complemented value -/

theorem purlLdw_not (a b c d : Byte) : purlLdw [~~~a, ~~~b, ~~~c, ~~~d] = ~~~(bytesWord [a, b, c, d]) := by
  show ~~~d ++ ~~~c ++ ~~~b ++ ~~~a = ~~~(d ++ c ++ b ++ a)
  rw [BitVec.not_append, BitVec.not_append, BitVec.not_append]

theorem bytesHalf_not (a b : Byte) : bytesHalf [~~~a, ~~~b] = ~~~(bytesHalf [a, b]) := by
  show ~~~b ++ ~~~a = ~~~(b ++ a)
  rw [BitVec.not_append]

theorem signExtend_not {n : Nat} (h : 0 < n) (x : BitVec n) : (~~~x).signExtend 32 = ~~~(x.signExtend 32) := by
  ext i hi
  simp only [BitVec.getElem_signExtend, BitVec.getElem_not, BitVec.msb_not]
  split <;> simp [h]

theorem purlLdh_not (a b : Byte) : purlLdh [~~~a, ~~~b] = ~~~((bytesHalf [a, b]).signExtend 32) := by
  rw [purlLdh, bytesHalf_not, signExtend_not (by decide)]

theorem purlLdhu_not (a b : Byte) : purlLdhu [~~~a, ~~~b] = ~~~((bytesHalf [a, b]).zeroExtend 32) := by
  rw [purlLdhu, bytesHalf_not]; exact ones_append 16 16 _

theorem purlLdb_not (a : Byte) : purlLdb [~~~a] = ~~~(a.signExtend 32) := by
  rw [purlLdb, List.getD_cons_zero, signExtend_not (by decide)]

theorem purlLdbu_not (a : Byte) : purlLdbu [~~~a] = ~~~(a.zeroExtend 32) := ones_append 24 8 a

/-! ## Alternate algorithms -/

/-- Booth recoding is exact where `k` digits hold the factor. -/
theorem booth8_eq (y : Int) : ∀ (k : Nat) (x c : Int), -(4 * 8 ^ k) ≤ x → x < 4 * 8 ^ k → booth8 (k + 1) x c y = (x + c) * y := by
  intro k
  induction k with
  | zero =>
    intro x c h1 h2
    have e : x / 8 + (if 4 ≤ x % 8 then 1 else 0) = 0 := by simp at h1 h2; split <;> omega
    have h : x % 8 - 8 * (if 4 ≤ x % 8 then 1 else 0) = x := by simp at h1 h2; split <;> omega
    simp only [booth8]
    rw [Int.mul_zero, Int.add_zero]
    congr 1
    omega
  | succ k ih =>
    intro x c h1 h2
    have hp : (8 : Int) ^ (k + 1) = 8 * 8 ^ k := by ring
    rw [hp] at h1 h2
    rw [booth8, ih _ _ (by omega) (by omega)]
    have hx : x = 8 * (x / 8) + x % 8 := by omega
    generalize (if 4 ≤ x % 8 then (1 : Int) else 0) = u
    conv => rhs; rw [hx]
    ring

theorem toInt_le (x : Word) : -2147483648 ≤ x.toInt ∧ x.toInt ≤ 2147483647 := by
  rw [BitVec.toInt_eq_toNat_cond]; have := x.isLt; split <;> omega

theorem purlProdS_not (a b : Word) : purlProdS (~~~a) (~~~b) = a.toInt * b.toInt := by
  have hb := toInt_le b
  simp only [purlProdS, BitVec.not_not]
  rw [booth8_eq _ 10 _ _ (by omega) (by omega)]
  ring

theorem purlProdU_not (a b : Word) : purlProdU (~~~a) (~~~b) = a.toNat * b.toNat := by
  have hb := b.isLt
  simp only [purlProdU, BitVec.not_not]
  rw [booth8_eq _ 10 _ _ (by omega) (by omega)]
  ring

theorem purlMul_not (a b : Word) : purlMul (~~~a) (~~~b) = ~~~(mulLo a b) := by
  rw [purlMul, purlProdU_not, mulLo]
  congr 1

theorem purlMulh_not (a b : Word) : purlMulh (~~~a) (~~~b) = ~~~(mulHi a b) := by
  rw [purlMulh, purlProdS_not, mulHi]

theorem purlMulhu_not (a b : Word) : purlMulhu (~~~a) (~~~b) = ~~~(mulHiU a b) := by
  rw [purlMulhu, purlProdU_not, mulHiU]
  congr 1

theorem purlMulq_not (a b : Word) : purlMulq (~~~a) (~~~b) = ~~~(mulQ a b) := by
  rw [purlMulq, purlProdS_not, mulQ]

theorem purlDiv_not (a b : Word) : purlDiv (~~~a) (~~~b) = ~~~(divS a b) := by
  simp only [purlDiv, purlSpecial, BitVec.not_not, divS, Int.neg_tdiv, Int.tdiv_neg, Int.neg_neg]
  congr 1
  split
  case isTrue h =>
    simp only [Bool.and_eq_true, beq_iff_eq] at h
    rw [h.1, h.2]; decide
  case isFalse => rfl

theorem purlRem_not (a b : Word) : purlRem (~~~a) (~~~b) = ~~~(remS a b) := by
  simp only [purlRem, purlSpecial, BitVec.not_not, remS, Int.neg_tmod, Int.tmod_neg, Int.neg_neg]
  congr 1
  split
  case isTrue h =>
    simp only [Bool.and_eq_true, beq_iff_eq] at h
    rw [h.1, h.2]; decide
  case isFalse => rfl

/-- One bit keeps the quotient and the signed remainder of what has been taken. -/
theorem divBit_inv {y q r n x : Int} (h : n = q * y + r) (h1 : -y ≤ r) (h2 : r < y) (hx : 0 ≤ x) (hx1 : x ≤ 1) :
    2 * n + x = (divBit y (q, r) x).1 * y + (divBit y (q, r) x).2 ∧
      -y ≤ (divBit y (q, r) x).2 ∧ (divBit y (q, r) x).2 < y := by
  unfold divBit
  split
  case isTrue hr => simp only at hr ⊢; refine ⟨by rw [h]; ring, by omega, by omega⟩
  case isFalse hr => simp only at hr ⊢; refine ⟨by rw [h]; ring, by omega, by omega⟩

theorem divRun_inv {y : Int} (hy : 0 < y) : ∀ (k : Nat) (x : Int), 0 ≤ x → x < 4 ^ k →
    x = (divRun y k x).1 * y + (divRun y k x).2 ∧ -y ≤ (divRun y k x).2 ∧ (divRun y k x).2 < y := by
  intro k
  induction k with
  | zero => intro x h0 h1; simp only [divRun] at *; have : x = 0 := by simpa using by omega
            subst this; refine ⟨by simp, by omega, by omega⟩
  | succ k ih =>
    intro x h0 h1
    have hp : (4 : Int) ^ (k + 1) = 4 * 4 ^ k := by ring
    rw [hp] at h1
    obtain ⟨i1, i2, i3⟩ := ih (x / 4) (by omega) (by omega)
    have a1 := divBit_inv (x := x % 4 / 2) i1 i2 i3 (by omega) (by omega)
    have a2 := divBit_inv (x := x % 4 % 2) a1.1 a1.2.1 a1.2.2 (by omega) (by omega)
    have hx : x = 2 * (2 * (x / 4) + x % 4 / 2) + x % 4 % 2 := by omega
    simp only [divRun, divStep]
    rw [← hx] at a2
    exact a2

/-- Non-restoring division gives the quotient and remainder. -/
theorem divEnd_eq {x y : Nat} (hy : 0 < y) (hx : x < 4294967296) :
    divEnd y (divRun y 16 x) = (((x / y : Nat) : Int), ((x % y : Nat) : Int)) := by
  have hy' : (0 : Int) < y := by omega
  obtain ⟨h1, h2, h3⟩ := divRun_inv hy' 16 x (by omega) (by norm_num; omega)
  generalize divRun (↑y) 16 (↑x) = p at h1 h2 h3
  obtain ⟨q, r⟩ := p
  have hu : ∀ q r : Int, (x : Int) = q * y + r → 0 ≤ r → r < y → q = ((x / y : Nat) : Int) ∧ r = ((x % y : Nat) : Int) := by
    intro q r e a b
    have hq : (x : Int) / y = q := by
      rw [e, Int.add_comm, Int.add_mul_ediv_right _ _ (by omega), Int.ediv_eq_zero_of_lt a b]; simp
    have hr : (x : Int) % y = r := by
      rw [e, Int.add_comm, Int.add_mul_emod_self_right, Int.emod_eq_of_lt a b]
    refine ⟨by rw [← hq]; exact (Int.natCast_ediv x y).symm, by rw [← hr]; exact (Int.natCast_emod x y).symm⟩
  unfold divEnd
  simp only at h1 h2 h3 ⊢
  split
  case isTrue hr =>
    have := hu (q - 1) (r + y) (by rw [h1]; ring) (by omega) (by omega)
    rw [this.1, this.2]
  case isFalse hr =>
    have := hu q r h1 (by omega) (by omega)
    rw [this.1, this.2]

theorem purlDivRemU_not {a b : Word} (h : b ≠ 0) :
    purlDivRemU (~~~a) (~~~b) = (((a.toNat / b.toNat : Nat) : Int), ((a.toNat % b.toNat : Nat) : Int)) := by
  have hb : 0 < b.toNat := by
    rcases Nat.eq_zero_or_pos b.toNat with h0 | h0
    · exact absurd (BitVec.eq_of_toNat_eq (by simpa using h0)) h
    · exact h0
  simp only [purlDivRemU, BitVec.not_not]
  exact divEnd_eq hb a.isLt

theorem purlDivu_not {a b : Word} (h : b ≠ 0) : purlDivu (~~~a) (~~~b) = ~~~(divU a b) := by
  rw [purlDivu, purlDivRemU_not h, divU]
  congr 1
  apply BitVec.eq_of_toNat_eq
  have := Nat.div_le_self a.toNat b.toNat
  have := a.isLt
  rw [BitVec.ofInt_natCast, BitVec.toNat_ofNat, BitVec.toNat_udiv, Nat.mod_eq_of_lt (by omega)]

theorem purlRemu_not {a b : Word} (h : b ≠ 0) : purlRemu (~~~a) (~~~b) = ~~~(remU a b) := by
  rw [purlRemu, purlDivRemU_not h, remU]
  congr 1
  apply BitVec.eq_of_toNat_eq
  have := Nat.mod_le a.toNat b.toNat
  have := a.isLt
  rw [BitVec.ofInt_natCast, BitVec.toNat_ofNat, BitVec.toNat_umod, Nat.mod_eq_of_lt (by omega)]

/-! ## The pass sequence -/

/-- R118: every purl step runs two steps after its knit step. -/
theorem passes_lag {α : Type} (l : List α) (k : Nat) (x : α) (h : (passes l)[k]? = some (.purl x)) :
    2 ≤ k ∧ (passes l)[k - 2]? = some (.knit x) := by
  induction l using passes.induct generalizing k with
  | case1 a b l ih =>
    match k with
    | 0 => simp [passes] at h
    | 1 => simp [passes] at h
    | 2 => simp [passes] at h ⊢; exact h
    | 3 => simp [passes] at h ⊢; exact h
    | k + 4 =>
      simp only [passes, List.getElem?_cons_succ] at h
      obtain ⟨h1, h2⟩ := ih k h
      refine ⟨by omega, ?_⟩
      have e : k + 4 - 2 = (k - 2) + 4 := by omega
      simp only [e, passes, List.getElem?_cons_succ, h2]
  | case2 a =>
    match k with
    | 0 => simp [passes] at h
    | 1 => simp [passes] at h
    | 2 => simp [passes] at h ⊢; exact h
    | k + 3 => simp [passes] at h
  | case3 => simp [passes] at h

/-- R118, R119: a task of `n` knit steps takes 2n steps, and one more where n is odd. -/
theorem passes_length {α : Type} (l : List α) : (passes l).length = 2 * l.length + l.length % 2 := by
  induction l using passes.induct with
  | case1 a b l ih => simp only [passes, List.length_cons, ih]; omega
  | case2 a => rfl
  | case3 => rfl

/-! ## The signature: the update is linear -/

theorem crcBitR_xor (p s t : Word) : crcBitR p (s ^^^ t) = crcBitR p s ^^^ crcBitR p t := by
  have h : (s ^^^ t) >>> 1 = (s >>> 1) ^^^ (t >>> 1) := BitVec.ushiftRight_xor_distrib ..
  have e : ∀ a b q : Word, a ^^^ q ^^^ (b ^^^ q) = a ^^^ b := by
    intro a b q; ext i hi; simp only [BitVec.getElem_xor]; cases a[i] <;> cases b[i] <;> cases q[i] <;> rfl
  have e2 : ∀ a b c : Word, a ^^^ b ^^^ c = a ^^^ (b ^^^ c) := BitVec.xor_assoc
  have e3 : ∀ a b c : Word, a ^^^ c ^^^ b = a ^^^ b ^^^ c := by
    intro a b c; rw [e2, e2, BitVec.xor_comm c b]
  unfold crcBitR
  rw [BitVec.getLsbD_xor, h]
  cases s.getLsbD 0 <;> cases t.getLsbD 0 <;> simp only [Bool.false_xor, Bool.true_xor, Bool.not_true, Bool.not_false, if_true, if_false, Bool.false_eq_true]
  · rw [e2]
  · rw [e3]
  · rw [e]

theorem crcUpd_xor (s t : Word) (b c : Byte) : crcUpd (s ^^^ t) (b ^^^ c) = crcUpd s b ^^^ crcUpd t c := by
  have hz : (b ^^^ c).zeroExtend 32 = b.zeroExtend 32 ^^^ c.zeroExtend 32 := by
    ext i hi; simp
  have hx : s ^^^ t ^^^ (b.zeroExtend 32 ^^^ c.zeroExtend 32) = (s ^^^ b.zeroExtend 32) ^^^ (t ^^^ c.zeroExtend 32) := by
    ext i hi; simp only [BitVec.getElem_xor]
    cases s[i] <;> cases t[i] <;> cases (b.zeroExtend 32)[i] <;> cases (c.zeroExtend 32)[i] <;> rfl
  have hf : ∀ (l : List Nat) (x y : Word), l.foldl (fun x _ => crcBitR 0x82F63B78 x) (x ^^^ y) =
      l.foldl (fun x _ => crcBitR 0x82F63B78 x) x ^^^ l.foldl (fun x _ => crcBitR 0x82F63B78 x) y := by
    intro l
    induction l with
    | nil => intros; rfl
    | cons a l ih => intro x y; simp only [List.foldl_cons, crcBitR_xor, ih]
  unfold crcUpd
  rw [hz, hx, hf]

theorem sigFold_xor (s t : Word) (a b : Half) : sigFold (s ^^^ t) (a ^^^ b) = sigFold s a ^^^ sigFold t b := by
  have h : ∀ k, (a ^^^ b).extractLsb' k 8 = a.extractLsb' k 8 ^^^ b.extractLsb' k 8 := by
    intro k; ext i hi; simp
  unfold sigFold
  rw [h, h, crcUpd_xor, crcUpd_xor]

/-- R126: the purl accumulator stays the complement of the knit signature. -/
theorem purlSig_not (s : Word) (imm : Half) : purlSig (~~~s) imm = ~~~(sigFold s imm) := by
  have h1 : ~~~s = s ^^^ (0xFFFFFFFF : Word) := by
    ext i hi; have : (0xFFFFFFFF : Word) = BitVec.allOnes 32 := by decide
    simp [this, -BitVec.reduceAllOnes]
  have h2 : ~~~imm = imm ^^^ (0xFFFF : Half) := by
    ext i hi; have : (0xFFFF : Half) = BitVec.allOnes 16 := by decide
    simp [this, -BitVec.reduceAllOnes]
  have h3 : ∀ x y : Word, x ^^^ y ^^^ y = x := by intro x y; rw [BitVec.xor_assoc, BitVec.xor_self, BitVec.xor_zero]
  have h4 : ∀ x : Word, ~~~x = x ^^^ (0xFFFFFFFF : Word) := by
    intro x; ext i hi; have : (0xFFFFFFFF : Word) = BitVec.allOnes 32 := by decide
    simp [this, -BitVec.reduceAllOnes]
  unfold purlSig
  rw [h1, h2, sigFold_xor, h3, ← h4]

/-! ## Saturating sums -/

theorem satS_sum (x y : Word) :
    (if x.msb == y.msb && (x + y).msb != x.msb then (if x.msb then (0x80000000 : Word) else 0x7FFFFFFF) else x + y) =
      satS (x.toInt + y.toInt) := by
  have hx := x.isLt
  have hy := y.isLt
  have hs : (x + y).toNat = (x.toNat + y.toNat) % 4294967296 := BitVec.toNat_add ..
  have hm : ∀ z : Word, z.msb = decide (2147483648 ≤ z.toNat) := fun z => by rw [BitVec.msb_eq_decide]
  have hi : ∀ z : Word, z.toInt = if 2147483648 ≤ z.toNat then (z.toNat : Int) - 4294967296 else z.toNat := by
    intro z; rw [BitVec.toInt_eq_toNat_cond]; have := z.isLt; split <;> split <;> omega
  have ho : BitVec.ofInt 32 (x.toInt + y.toInt) = x + y := by
    rw [BitVec.ofInt_add]; simp
  unfold satS
  rw [ho, hm, hm, hm, hs, hi x, hi y]
  by_cases h1 : 2147483648 ≤ x.toNat <;> by_cases h2 : 2147483648 ≤ y.toNat <;>
    by_cases h3 : 2147483648 ≤ (x.toNat + y.toNat) % 4294967296 <;> simp only [h1, h2, h3, decide_true, decide_false, if_true, if_false] <;>
    (try simp) <;> (repeat (split <;> try omega)) <;> (try rfl)

theorem satS_diff (x y : Word) :
    (if x.msb != y.msb && (x - y).msb != x.msb then (if x.msb then (0x80000000 : Word) else 0x7FFFFFFF) else x - y) =
      satS (x.toInt - y.toInt) := by
  have hx := x.isLt
  have hy := y.isLt
  have hs : (x - y).toNat = (4294967296 - y.toNat + x.toNat) % 4294967296 := BitVec.toNat_sub ..
  have hm : ∀ z : Word, z.msb = decide (2147483648 ≤ z.toNat) := fun z => by rw [BitVec.msb_eq_decide]
  have hi : ∀ z : Word, z.toInt = if 2147483648 ≤ z.toNat then (z.toNat : Int) - 4294967296 else z.toNat := by
    intro z; rw [BitVec.toInt_eq_toNat_cond]; have := z.isLt; split <;> split <;> omega
  have ho : BitVec.ofInt 32 (x.toInt - y.toInt) = x - y := by
    rw [Int.sub_eq_add_neg, BitVec.ofInt_add, BitVec.ofInt_neg, BitVec.sub_eq_add_neg]; simp
  unfold satS
  rw [ho, hm, hm, hm, hs, hi x, hi y]
  by_cases h1 : 2147483648 ≤ x.toNat <;> by_cases h2 : 2147483648 ≤ y.toNat <;>
    by_cases h3 : 2147483648 ≤ (4294967296 - y.toNat + x.toNat) % 4294967296 <;>
    simp only [h1, h2, h3, decide_true, decide_false, if_true, if_false] <;>
    (try simp) <;> (repeat (split <;> try omega)) <;> (try rfl)

theorem purlSubs_not (a b : Word) : purlSubs (~~~a) (~~~b) = ~~~(subS a b) := by
  simp only [purlSubs, subS, BitVec.not_not, satS_diff]

theorem purlAdds_not (a b : Word) : purlAdds (~~~a) (~~~b) = ~~~(addS a b) := by
  simp only [purlAdds, addS, BitVec.not_not, satS_sum]

end Sys2Proof.Machine
end

