-- ==== Sys2Proof/Machine/Pins.lean ====
section
/-! DEFINITION. The pins of the module (file 19) as the state drives and reads them: FAULT_N, IRQ_N, the status LEDs and the states of
Tables 19-3 and 19-5. They are functions of the state; no register holds them. -/

namespace Sys2Proof.Machine

/-- State codes of Table 19-1. -/
inductive PinState where
  /-- Z. -/
  | z
  /-- PU or PD, and whether the device senses the pin. -/
  | pull (up sensed : Bool)
  /-- Lo or Hi. -/
  | driven (high : Bool)
  /-- In. -/
  | sensed
  /-- Act. -/
  | act
  /-- Rel. -/
  | released
  /-- Osc. -/
  | osc
  /-- Off. -/
  | off
  /-- A carrier pair held at common mode and silent. -/
  | silent
  /-- No state is given: a supply, a ground or a reserved pin. -/
  | none_
  deriving DecidableEq, Repr

/-- The pins, by the rows of Tables 19-3 and 19-5; of a power or ground row, `i` counts its pads. -/
inductive Pin where
  | vlogic (i : Fin 8) | gnd (i : Fin 35) | hlSck | hlCsN | hlMosi | hlMiso | irqN | wake | resetN | faultN | qspiClk | qspiCsN
  | qspiIo (i : Fin 4) | ethRefclk (n : Fin 2) | ethTx (n : Fin 2) (i : Fin 3) | ethRx (n : Fin 2) (i : Fin 3) | mdc | mdio
  | canTx (n : Fin 2) | canRx (n : Fin 2) | x25 (out : Bool) | x32 (out : Bool) | cscTx (n : Fin 4) (neg : Bool)
  | cscRx (n : Fin 4) (neg : Bool) | seal (n : Fin 12) | commit | zeroSpan (span : Bool) | led (n : Fin 3) | dbgClk | dbgDio
  | reserved (i : Fin 3)
  | vf1 (i : Fin 4) | vf2 (i : Fin 4) | van (i : Fin 2) | fgnd (i : Fin 4) | agnd (i : Fin 6) | out (n : Fin 16)
  | testPulse (n : Fin 8) | input (n : Fin 32) | count (n : Fin 4) | loop (n : Fin 8) (b : Bool)
  deriving DecidableEq, Repr

/-- Groups of Tables 19-3 and 19-5. -/
inductive PinGroup where
  | power | host | system | flash | ethernet | can | clock | carrier | commissioning | status | debug | none_ | fieldDigital | fieldAnalog
  deriving DecidableEq, Repr

/-- Directions of Tables 19-3 and 19-5. -/
inductive PinDir where
  | none_ | input | output | triState | both | diffOut | diffIn
  deriving DecidableEq, Repr

/-- Level classes of Table 19-2. -/
inductive PinLevel where
  | none_ | v3 | od | xt | csc | pwr | t3 | vf | loop
  deriving DecidableEq, Repr

/-- Pads of the grounds of the logic header. -/
def gndPads : List Nat :=
  [9, 10, 11, 12, 19, 22, 29, 30, 38, 46, 49, 50, 55, 56, 59, 62, 67, 72, 77, 82] ++
  [83, 84, 85, 86, 102, 106, 109, 113, 114, 115, 116, 117, 118, 119, 120]

/-- Connector (true: the field connector F1-F96, false: the logic header L1-L120) and number of a pin (R475). -/
def Pin.pad : Pin → Bool × Nat
  | .vlogic i => (false, 1 + i.val) | .gnd i => (false, gndPads.getD i.val 0)
  | .hlSck => (false, 13) | .hlCsN => (false, 14) | .hlMosi => (false, 15) | .hlMiso => (false, 16) | .irqN => (false, 17)
  | .wake => (false, 18) | .resetN => (false, 20) | .faultN => (false, 21) | .qspiClk => (false, 23) | .qspiCsN => (false, 24)
  | .qspiIo i => (false, 25 + i.val) | .ethRefclk n => (false, 31 + 8 * n.val) | .ethTx n i => (false, 32 + 8 * n.val + i.val)
  | .ethRx n i => (false, 35 + 8 * n.val + i.val) | .mdc => (false, 47) | .mdio => (false, 48)
  | .canTx n => (false, 51 + 2 * n.val) | .canRx n => (false, 52 + 2 * n.val)
  | .x25 o => (false, 57 + o.toNat) | .x32 o => (false, 60 + o.toNat)
  | .cscTx n m => (false, 63 + 5 * n.val + m.toNat) | .cscRx n m => (false, 65 + 5 * n.val + m.toNat)
  | .seal n => (false, 87 + n.val) | .commit => (false, 99) | .zeroSpan s => (false, 100 + s.toNat)
  | .led n => (false, 103 + n.val) | .dbgClk => (false, 107) | .dbgDio => (false, 108) | .reserved i => (false, 110 + i.val)
  | .vf1 i => (true, 1 + i.val) | .vf2 i => (true, 67 + i.val) | .van i => (true, 73 + i.val)
  | .fgnd i => (true, [33, 34, 71, 72].getD i.val 0) | .agnd i => (true, [75, 92, 93, 94, 95, 96].getD i.val 0)
  | .out n => (true, if n.val < 8 then 5 + n.val else 51 + n.val)
  | .testPulse n => (true, if n.val < 4 then 13 + n.val else 51 + n.val)
  | .input n => (true, if n.val < 16 then 17 + n.val else 23 + n.val)
  | .count n => (true, 35 + n.val) | .loop n b => (true, 76 + 2 * n.val + b.toNat)

/-- Group, direction and level class of a pin (R475). -/
def Pin.kind : Pin → PinGroup × PinDir × PinLevel
  | .vlogic _ | .gnd _ => (.power, .none_, .pwr)
  | .hlSck | .hlCsN | .hlMosi | .wake => (.host, .input, .v3)
  | .hlMiso => (.host, .triState, .v3)
  | .irqN => (.host, .output, .od)
  | .resetN => (.system, .input, .v3)
  | .faultN => (.system, .output, .od)
  | .qspiClk | .qspiCsN => (.flash, .output, .v3)
  | .qspiIo _ => (.flash, .both, .v3)
  | .ethRefclk _ | .ethTx .. | .mdc => (.ethernet, .output, .v3)
  | .ethRx .. => (.ethernet, .input, .v3)
  | .mdio => (.ethernet, .both, .v3)
  | .canTx _ => (.can, .output, .v3)
  | .canRx _ => (.can, .input, .v3)
  | .x25 o | .x32 o => (.clock, if o then .output else .input, .xt)
  | .cscTx .. => (.carrier, .diffOut, .csc)
  | .cscRx .. => (.carrier, .diffIn, .csc)
  | .seal _ | .commit | .zeroSpan _ => (.commissioning, .input, .v3)
  | .led _ => (.status, .output, .od)
  | .dbgClk => (.debug, .input, .v3)
  | .dbgDio => (.debug, .both, .v3)
  | .reserved _ => (.none_, .none_, .none_)
  | .vf1 _ | .vf2 _ | .fgnd _ => (.fieldDigital, .none_, .pwr)
  | .van _ | .agnd _ => (.fieldAnalog, .none_, .pwr)
  | .out _ | .testPulse _ => (.fieldDigital, .output, .vf)
  | .input _ | .count _ => (.fieldDigital, .input, .t3)
  | .loop _ b => (.fieldAnalog, if b then .input else .both, .loop)

/-- Power-good is absent, or RESET_N or the wait for the clocks holds the device as if it were (R459, R479). -/
def pinsDead (s : State) : Bool := !s.pwr.good || s.pwr.resetN || s.sys.clockWait

/-- A cast-on has not reached the end of SENSE. -/
def beforeSense (s : State) : Bool := s.sys.runState == .castOn && (s.sys.clockWait || s.sys.stage == .tap || s.sys.stage == .sense)

/-- A cast-on has not reached the start of LOAD; RETIRED ends before it. -/
def beforeLoad (s : State) : Bool :=
  beforeSense s || (s.sys.runState == .castOn && (s.sys.stage == .wipe || s.sys.stage == .swatch || s.sys.stage == .retired))

/-- A cast-on has not reached the end of LOAD. -/
def beforeCross (s : State) : Bool := beforeLoad s || (s.sys.runState == .castOn && s.sys.stage == .load)

/-- A fault line is asserted by its die (R28). -/
def faultLine (s : State) : Bool := s.sys.lineA || s.hld.devFault || s.hld.fatal

/-- FAULT_N is low (R478). -/
def faultN (s : State) : Bool :=
  !(s.sys.runState == .safeHold || s.sys.runState == .run || s.sys.runState == .service) || faultLine s || pinsDead s

/-- A local or group lockout holds in either channel: a connection, an output, an analog channel, a remote link or a skein (Table 0-5). -/
def anyLockout (s : State) : Bool :=
  (s.sin.pair.any fun p => p.lo.locked || p.hi.locked) || (s.sout.o.any fun o => !o.causes.isEmpty) ||
    (s.alp.ch.any fun c => !c.causes.isEmpty) || (s.csl.link.any fun l => l.locked) || (s.csc.p.any fun p => p.locked) ||
    (s.hld.ev.any fun c => c.valid && c.lock) || (s.hld.out.any fun c => c.valid && c.l)

/-- What an LED shows (Table 19-4). -/
inductive Led where
  | off
  | on
  /-- Blinking, in Hz. -/
  | blink (hz : Nat)
  /-- A flash of so many ms every 2 s. -/
  | flash (ms : Nat)
  deriving DecidableEq, Repr

/-- LED0. -/
def led0 (s : State) : Led :=
  if pinsDead s then .off
  else match s.sys.runState with
    | .run => .on
    | .service => .blink 4
    | .castOn => .blink 1
    | .safeHold => .flash 100
    | .dormant | .halt | .lockout => .off

/-- LED1. -/
def led1 (s : State) : Led :=
  if pinsDead s || s.sys.runState == .dormant then .off
  else if s.sys.runState == .castOn || s.sys.runState == .lockout || s.sys.runState == .halt then .on
  else if anyLockout s then .blink 1 else .off

/-- LED2. -/
def led2 (s : State) : Led :=
  if pinsDead s || s.sys.runState == .dormant then .off
  else if s.upd.armed then .blink 2 else if !s.sys.sealMatch then .on else if !imageCommissioned s then .flash 200 else .off

/-- The column of Table 19-3 or 19-5 that holds. -/
inductive Column where
  | dead | castOn | dormant | up
  deriving DecidableEq, Repr

/-- The column in force. -/
def column (s : State) : Column :=
  if pinsDead s then .dead else match s.sys.runState with | .castOn => .castOn | .dormant => .dormant | _ => .up

/-- The state of a pin (R475, R476, R478, R480, R481). `csLow` is the level that the host gives HL_CS_N, which alone decides whether
HL_MISO is driven. -/
def pinState (s : State) (csLow : Bool) (p : Pin) : PinState :=
  let c := column s
  let early := beforeSense s
  let unloaded := beforeLoad s
  match p with
  | .vlogic _ | .gnd _ | .reserved _ | .vf1 _ | .vf2 _ | .van _ | .fgnd _ | .agnd _ => .none_
  | .hlSck | .hlMosi => if c = .castOn then (if early then .z else .sensed) else if c = .up then .act else .z
  | .hlCsN => if c = .castOn then .pull true true else if c = .up then .act else .pull true false
  | .hlMiso => if csLow && (c = .up || (c = .castOn && !early)) then .act else .z
  | .irqN => if c = .up then .act else .released
  | .wake => if c = .up then .act else .pull false (c = .dormant)
  | .resetN => if c = .up then .act else .pull true true
  | .faultN => if s.pwr.aonLost then .z else if faultN s then .driven false else .released
  | .qspiClk => if c = .up || (c = .castOn && !unloaded) then .act else .driven false
  | .qspiCsN =>
    match c with
    | .dead => .pull true false
    | .castOn => if unloaded then .driven true else .act
    | .dormant => .driven true
    | .up => .act
  | .qspiIo _ => if c = .up || (c = .castOn && !unloaded) then .act else .pull true false
  | .ethRefclk _ | .ethTx .. | .mdc => if c = .up || (c = .castOn && !unloaded) then .act else .driven false
  | .ethRx .. => if c = .up then .act else if c = .castOn && !unloaded then .sensed else .pull false false
  | .mdio => if c = .up || (c = .castOn && !unloaded) then .act else .z
  | .canTx _ => match c with | .dead => .pull true false | .castOn | .dormant => .driven true | .up => .act
  | .canRx n =>
    match c with
    | .dead => .pull true false
    | .castOn => .pull true true
    | .dormant => if bit s.pwr.wakeCfg 2 && bit s.pwr.wakeCfg 3 == (n == 1) then .sensed else .pull true false
    | .up => .act
  | .x25 _ | .x32 _ => if s.pwr.aonLost then .z else .osc
  | .cscTx .. =>
    if cscAbsent s then .z else if c = .up then .act else if c = .castOn && !unloaded then .silent else .z
  | .cscRx .. =>
    if cscAbsent s then .z else if c = .up then .act else if c = .castOn && !unloaded then .sensed else .z
  | .seal _ | .zeroSpan _ =>
    match c with | .dead => .pull true false | .castOn => .pull true (!early) | .dormant => .z | .up => .act
  | .commit =>
    match c with
    | .dead => .pull true false
    | .castOn => .pull true (!early)
    | .dormant => .pull true (bit s.pwr.wakeCfg 1)
    | .up => .act
  | .led _ => if c = .castOn || c = .up then .act else .released
  | .dbgClk => if (c = .up || (c = .castOn && !early)) && s.otp.debugOpen then .act else .pull false false
  | .dbgDio => if (c = .up || (c = .castOn && !early)) && s.otp.debugOpen then .act else .pull true false
  | .out _ => if stopped s then .off else if c = .up || (c = .castOn && !unloaded) then .act else .off
  | .testPulse _ => if stopped s then .off else if c = .up || (c = .castOn && !beforeCross s) then .act else .off
  | .input _ | .count _ => if c = .up || (c = .castOn && !beforeCross s) then .act else .off
  | .loop n _ => if (c = .up || c = .castOn) && s.alp.ch[n].passed && !s.alp.ch[n].gaugeRun then .act else .z

/-- A sampling window is open: it lasts the settle delay with which it opened plus 5 µs, and at least 25 µs (R184). -/
def windowOpen (s : State) (w : Option (DWord × BitVec 6)) : Bool :=
  match w with
  | some (t, d) => come s t && !past s t (max 25 (d.toNat + 5))
  | none => false

/-- The sink of input `n` is on (R184, R200): in PULSED mode during a window, periodic or inside the test mask; in
CONTINUOUS mode always, since SETTLE_GAP takes the 10 µs gap of R187 whole; in OFF mode never. -/
def sinkOn (s : State) (n : Fin 32) : Bool :=
  let i := s.sin.i[n]
  bit s.pwr.domains 7 && match i.mode with
    | 1 => windowOpen s i.win || windowOpen s i.testWin
    | 2 => true
    | _ => false

/-- The output's bank has its supply (R17, R214). -/
def bankSupplied (s : State) (k : Fin 16) : Bool := if bankOf k = 0 then s.pwr.vf1 else s.pwr.vf2

/-- The device drives an output terminal: the bank has its supply and both switches are closed (R17, R29, R156, R214). -/
def terminal (s : State) (k : Fin 16) : Bool := bankSupplied s k && s.sout.o[k].swa && s.hld.out[k].closed

end Sys2Proof.Machine
end

