-- ==== Sys2Proof/WellFormed.lean ====
section
/-! DEFINITION. The static checks on a command: operands whose type admits more than the spec gives them. -/

namespace Sys2Proof

/-- A frame of a CAN controller (R446): an 11-bit identifier without the extended format, at most 8 data bytes in a classic frame
and 64 in an FD frame, a bit rate switch in an FD frame only, and no remote FD frame. -/
def CanFrame.wf (f : CanFrame) : Bool :=
  (f.ext || decide (f.id.toNat < 2048)) && decide (f.data.length ≤ if f.fd then 64 else 8) && (f.fd || !f.brs) && !(f.fd && f.rtr)

/-- An execution of an instruction (R97, R130): the costliest range ends 11 steps above its least, the compare unit has the
lanes 1 to 6, and what a disturbance changes, it changes in a bit at least. -/
def Issue.wf (i : Issue) : Bool :=
  decide (i.extra ≤ 11) && i.dis.all fun u => decide (1 ≤ u.lane) && decide (u.lane ≤ 6) && u.mask != 0

/-- The checks on one command. -/
def Instr.wf : Instr → Bool
  | .undefinedCmd _ c => decide (c = 0) || decide (8 ≤ c)
  | .windowWrite _ w => decide (1 ≤ w.length) && decide (w.length ≤ 64)
  | .unknownFrame c _ => !(c == 0xA1 || c == 0xA2 || c == 0xA4 || c == 0xA8)
  | .hlRxWrite _ w => decide (w.length ≤ 63)
  | .ethDatagramRx _ d _ => decide (d.data.length ≤ 65507)
  | .canFrameRx _ f _ => f.wf
  | .queryRoundEnd _ l => decide (l.length ≤ 16)
  | .report _ _ b _ _ => decide (b.length ≤ 255)
  | .pairAck _ _ b _ => decide (b.length ≤ 255)
  | .bCycle b => b.lineA.all fun c => decide (c < 16)
  | .offPulseRequest _ w => decide (1 ≤ w) && decide (w < 64)
  | .diagUndefinedCmd c => decide (c = 0) || decide (4 ≤ c)
  | .fuseReread d => d.all fun x => decide (x.1 < 2048)
  | .add i .. | .sub i .. | .and_ i .. | .or_ i .. | .xor_ i .. | .andn i .. | .shl i .. | .shr i .. | .sar i .. | .rol i ..
  | .min_ i .. | .max_ i .. | .minu i .. | .maxu i .. | .adds i .. | .subs i .. | .sel i .. | .clz i .. | .sextb i ..
  | .sexth i .. | .mul i .. | .mulh i .. | .mulhu i .. | .mulq i .. | .div i .. | .divu i .. | .rem i .. | .remu i ..
  | .cmp i .. | .cmpieq i .. | .cmpine i .. | .cmpilt i .. | .cmpige i .. | .cmpiltu i .. | .cmpigeu i .. | .pand i ..
  | .por i .. | .pxor i .. | .pandn i .. | .pnot i .. | .pmov i .. | .pset i .. | .pclr i .. | .addi i .. | .andi i ..
  | .ori i .. | .xori i .. | .lui i .. | .shi i .. | .ldw i .. | .ldh i .. | .ldhu i .. | .ldb i .. | .ldbu i .. | .stw i ..
  | .sth i .. | .stb i .. | .j_ i .. | .jal i .. | .bt i .. | .bf i .. | .jr i .. | .jalr i .. | .sigf i .. | .rds i ..
  | .wrs i .. | .yield i .. | .tret i .. | .trap i .. | .fence i .. | .inp i .. | .outp i .. | .demand i .. | .permit i ..
  | .seal i .. | .tblo i .. | .tbhi i .. | .tbrel i .. | .feed i .. | .cvuRead i .. | .cvuLoad i .. | .ctxs i ..
  | .ctxe i .. | .snap i .. | .rdsnap i .. | .wrcmp i .. | .rdcapr i .. | .rdcapf i .. | .rdstat i .. | .evwait i ..
  | .evpend i .. | .evclr i .. => i.wf
  | .powerGood .. | .powerGoodLoss .. | .aonLoss .. | .vlogicHigh .. | .xtalReady .. | .clockFail .. | .resetNAssert ..
  | .resetNRelease .. | .castonTimeout .. | .start .. | .hold .. | .serviceEnter .. | .serviceExit .. | .sleep ..
  | .devRelease .. | .reset .. | .crossLate .. | .dormantEntry .. | .wakePin .. | .wakeTimer .. | .canWake .. | .k32Lost ..
  | .commitEdge .. | .commitRetry .. | .sealRead .. | .commissionArm .. | .commissionCancel .. | .commissionArmExpiry ..
  | .leaseClaim .. | .leaseRelease .. | .leaseTimeout .. | .updBegin .. | .eraseDone .. | .verify .. | .activate ..
  | .abort .. | .confirmHealth .. | .lifecycle .. | .trialExpiry .. | .settingsCommit .. | .settingsCommitDone ..
  | .readFrame .. | .writeFrame .. | .statusFrame .. | .leaseFrame .. | .transactionAbort .. | .registerWrite ..
  | .mbxWrite .. | .evtPendClear .. | .hlTxRead .. | .ethLinkChange .. | .canErrorState .. | .canBusOffRecovery ..
  | .frameSend .. | .framePop .. | .openResend .. | .timeout .. | .quarantineEnd .. | .cslHourRoll .. | .openSess ..
  | .closeSess .. | .restart .. | .rowBuild .. | .rowSlot .. | .pollSlotEnd .. | .txEnableChange .. | .cscTxStuck ..
  | .cscStart .. | .cscStop .. | .pair .. | .unpair .. | .poll .. | .scanRecord .. | .timebaseExchange .. | .tbLost ..
  | .recordMissing .. | .lineB .. | .patternReadback .. | .reportQueueDrain .. | .inputEdge .. | .samplePoint ..
  | .settleGap .. | .filterElapsed .. | .discrepancyTimeout .. | .guardDelayEnd .. | .bandWaitEnd .. | .clearDecision ..
  | .releaseStuck .. | .recoverEnd .. | .testPulseEnd .. | .testMaskEnd .. | .tpReadbackEdge .. | .tpSource .. | .cntEdge ..
  | .windowFilterElapsed .. | .delayElapsed .. | .offPulseEnd .. | .readbackEdge .. | .readbackDelayElapsed ..
  | .locateWatchEnd .. | .feedIsolationStep .. | .outLow .. | .overload .. | .overtemp .. | .feedback .. | .bankSupply ..
  | .bankSupplyEnd .. | .supplyPresentChange .. | .hldRegulatorFault .. | .pdFdigReturn .. | .pdFanReturn ..
  | .timerCompare .. | .timerWrap .. | .timerTrigger .. | .capture .. | .timerSlip .. | .tmrCmdStart .. | .tmrCmdStop ..
  | .tmrCmdSnap .. | .tmrCmpWrite .. | .tmrCountWrite .. | .alpConversion .. | .alpStale .. | .gaugePoint ..
  | .comparatorChange .. | .setpointWrite .. | .setpointTimeout .. | .complianceLow .. | .complianceEnd .. | .openLoop ..
  | .openLoopEnd .. | .loopShort .. | .loopShortCycle .. | .vanLow .. | .vanLowEnd .. | .gaugeTest .. | .gaugeTestEnd ..
  | .trimArm .. | .trimZero .. | .trimSpan .. | .trimClear .. | .trimOutZero .. | .trimOutSpan .. | .zeroActivation ..
  | .spanActivation .. | .trimAverageEnd .. | .modemRxChar .. | .modemTxChar .. | .modemRxRead .. | .modemCarrier ..
  | .modemFlushRx .. | .modemFlushTx .. | .modemTxEmpty .. | .modemCarrierDetect .. | .cvuValueWrite ..
  | .cvuContextWrite .. | .cvuFeedWrite .. | .cvuFoldCtxs .. | .cvuFoldCtxe .. | .dmaStart .. | .dmaStop .. | .dmaRequest ..
  | .dmaElement .. | .dmaRegWrite .. | .clearEntry .. | .clearCounted .. | .switchTest .. | .switchTestEnd ..
  | .logArchive .. | .memoryPass .. | .knownAnswer .. | .codeRehash .. | .clockCheck .. | .selftestLate .. | .repulse ..
  | .tensionUpdate .. | .stepRateRaise .. | .otpRead .. | .program .. | .compute .. | .lock .. | .readLock .. | .armForce ..
  | .armForceExpiry .. | .forceLock .. | .sticky .. | .setMode .. | .setPolicy .. | .tapProgram .. | .otpCommandDone ..
  | .scanRelease .. | .testCap .. | .taskDispatch .. | .verifyEnd .. | .frameSent .. | .pdFdigCheckEnd ..
  | .retentionSupplyDip .. | .pllLockRegained .. | .commitStepDue .. | .arpIcmpFrameRx .. => true

end Sys2Proof
end

