-- ==== Sys2Proof/Tests/Slice0.lean ====
section
/-! SUPPORT. The model's own tests: an ill-formed command that each check refuses, values that the spec states, and for every
statement with hypotheses a state and operands that meet them. -/

set_option Elab.async false

namespace Sys2Proof.Tests

open Sys2Proof Sys2Proof.Machine

/-! ## States -/

/-- Powered, in run state `r`, no cast-on stage. -/
def up (r : RunState) : State :=
  { State.reset with sys := { State.reset.sys with runState := r, stage := .none }, pwr := { State.reset.pwr with good := true } }

/-- In RUN, engine `e` runs task `t` at address 0x100. -/
def at0 (e : Fin 24) (t : Fin 16) : State :=
  { (up .run).onE e fun x => { x with on := true, task := some t, pc := Tab.fill 16 0x100, purlPc := Tab.fill 16 (~~~0x100), budget := Tab.fill 16 0xFFFF } with
    mem := { State.reset.mem with codeSize := Tab.fill 11 1 } }

/-- `s` with `w` at the address of engine `e`'s task. -/
def code (e : Fin 24) (w : Word) (s : State) : State := { s with mem := writeBytes e 0x100 (wordBytes w) s.mem }

/-- The undisturbed execution on an engine. -/
def on (e : Fin 24) : Issue := { eng := e }

/-! ## Ill-formed commands are refused -/

theorem test_wf_extra : (Instr.add { eng := 0, extra := 12 } 1 2 3).wf = false ∧ (Instr.add { eng := 0, extra := 11 } 1 2 3).wf = true := by
  decide +kernel
theorem test_wf_lane : (Instr.add { eng := 0, dis := [⟨0, 1, 2⟩] } 1 2 3).wf = false ∧
    (Instr.add { eng := 0, dis := [⟨7, 1, 2⟩] } 1 2 3).wf = false ∧ (Instr.add { eng := 0, dis := [⟨6, 1, 0⟩] } 1 2 3).wf = false ∧
    (Instr.add { eng := 0, dis := [⟨6, 1, 2⟩] } 1 2 3).wf = true := by decide +kernel
theorem test_wf_canFrame : (Instr.canFrameRx 0 { id := 2048 } true).wf = false ∧
    (Instr.canFrameRx 0 { data := List.replicate 9 0 } true).wf = false ∧ (Instr.canFrameRx 0 { brs := true } true).wf = false ∧
    (Instr.canFrameRx 0 { fd := true, rtr := true } true).wf = false ∧ (Instr.canFrameRx 0 { id := 2047 } true).wf = true := by decide +kernel
theorem test_wf_words : (Instr.windowWrite .host []).wf = false ∧ (Instr.windowWrite .host (List.replicate 65 0)).wf = false ∧
    (Instr.hlRxWrite 0 (List.replicate 64 0)).wf = false ∧
    (Instr.windowWrite .host [0]).wf = true ∧ (Instr.hlRxWrite 0 []).wf = true := by decide +kernel
theorem test_wf_codes : (Instr.undefinedCmd 0x6A5C 7).wf = false ∧ (Instr.undefinedCmd 0x6A5C 8).wf = true ∧
    (Instr.diagUndefinedCmd 3).wf = false ∧ (Instr.diagUndefinedCmd 4).wf = true ∧
    (Instr.unknownFrame 0xA1 ⟨0, 0, 0, 0, [], 0⟩).wf = false ∧ (Instr.unknownFrame 0xA3 ⟨0, 0, 0, 0, [], 0⟩).wf = true := by decide +kernel
theorem test_wf_pulse : (Instr.offPulseRequest 0 0).wf = false ∧ (Instr.offPulseRequest 0 64).wf = false ∧
    (Instr.offPulseRequest 0 63).wf = true := by decide +kernel
theorem test_wf_sizes : (Instr.fuseReread [(2048, 0, 0)]).wf = false ∧ (Instr.queryRoundEnd 0 (List.replicate 17 {})).wf = false ∧
    (Instr.report 0 0 (List.replicate 256 0) 0 0).wf = false ∧ (Instr.pairAck 0 0 (List.replicate 256 0) 0).wf = false ∧
    (Instr.bCycle ⟨0, some 16, false, 0, 0, {}, true⟩).wf = false ∧ (Instr.bCycle ⟨0, some 15, false, 0, 0, {}, true⟩).wf = true := by decide +kernel
theorem test_wf_datagram (d : Datagram) (h : d.data.length = 65508) : (Instr.ethDatagramRx 0 d true).wf = false := by
  simp [Instr.wf, h]

/-! ## Values that the spec states -/

/-- R478: low at reset, released in RUN, low in RUN while a fault line is asserted. -/
theorem test_fault_n : faultN State.reset = true ∧ faultN (up .run) = false ∧
    faultN ((up .run).onSys fun x => { x with lineA := true }) = true := by decide +kernel

/-- Table 5-2: the purl pass of CLZ finds the leading ones of the complement. -/
theorem test_purl_clz : purlClz (~~~0x00018000) = ~~~(clz 0x00018000) ∧ purlClz (~~~0) = ~~~(clz 0) ∧
    purlClz (~~~0xFFFFFFFF) = ~~~(clz 0xFFFFFFFF) ∧ purlClz (~~~1) = ~~~(clz 1) := by decide +kernel

/-- R91: MULQ of 1.5 and 2.25 is 3.375. -/
theorem test_mulq : mulQ 0x00018000 0x00024000 = 0x00036000 := by decide +kernel
/-- R348: the check value of "123456789" under CRC-32C. -/
theorem test_crc32c : crc32c [0x31, 0x32, 0x33, 0x34, 0x35, 0x36, 0x37, 0x38, 0x39] = 0xE3069283 := by decide +kernel
/-- R403, R408: the SHA-256 value of the empty message (FIPS 180-4). -/
theorem test_sha256 : (sha256 []).take 4 = [0xE3, 0xB0, 0xC4, 0x42] := by decide +kernel

/-! ## Hypotheses that can be met: TSL-32 -/

/-- Safety core 0 in SCAN. -/
def sc : State := at0 0 1
/-- Hart 0 of core 0. -/
def hart : State := at0 16 0
/-- Stitch engine 1. -/
def se : State := at0 5 3

/-- The instruction that `w` encodes stands at the address of engine `e`'s task, and nothing is in its way. -/
def clear (e : Fin 24) (w : Word) (lo hi : Nat) (rs : List WReg) (ps : List PReg) (t : State) : Bool :=
  let s := code e w t
  tslReady s e && fetchCause (on e) s == none && codeWord s e == w && !rfBad s e rs ps && !passesLimit s e (stepsOf (on e) lo hi) &&
    !testFull s e (stepsOf (on e) lo hi) && (!twin e || purlPcOf s e == ~~~(pcOf s e))

/-- `clear` is the hypothesis of the statements. -/
theorem clear_iff (e : Fin 24) (w : Word) (lo hi : Nat) (rs : List WReg) (ps : List PReg) (s : State) :
    clear e w lo hi rs ps s = true ↔ tslClear (on e) w lo hi rs ps (code e w s) := by
  simp [clear, tslClear, on, and_assoc, imp_iff_not_or]

theorem test_witness_IntegerResults : clear 0 (encAlu 3 1 2 0x000) 1 1 [1, 2] [] sc ∧ clear 0 (encAlu 31 1 2 0x00F) 1 1 [1, 2] [] sc ∧
    clear 16 (encAlu 0 1 2 (predF 3 ++ (0x10 : BitVec 5))) 1 1 [1, 2] [3] hart ∧ clear 5 (encImm 0x08 1 0 0xFFFF) 1 1 [] [] se ∧
    clear 0 (encAlu 1 31 0 0x011) 1 1 [31] [] sc ∧ clear 5 (encAlu 1 31 0 0x013) 1 1 [31] [] se ∧ clear 0 (encImm 0x04 1 31 0x8000) 1 1 [31] [] sc ∧
    clear 0 (encImm 0x09 1 31 ((0 : BitVec 9) ++ (3 : BitVec 2) ++ (31 : BitVec 5))) 1 1 [31] [] sc := by
  decide +kernel
theorem test_witness_MulDivResults : clear 0 (encMul 3 1 2 0x002) 2 2 [1, 2] [] sc ∧ clear 0 (encMul 3 1 2 0x003) 3 3 [1, 2] [] sc ∧
    clear 0 (encMul 3 1 2 0x004) 18 18 [1, 2] [] sc ∧ wGet (code 0 (encMul 3 1 2 0x004) sc) 0 2 = 0 ∧
    clear 5 (encMul 3 1 2 0x007) 18 18 [1, 2] [] (wPut 5 2 7 se) ∧ wGet (code 5 (encMul 3 1 2 0x007) (wPut 5 2 7 se)) 5 2 ≠ 0 := by
  decide +kernel
theorem test_witness_ConditionResults :
    clear 0 (encA 0x02 7 (regF 1) (regF 2) (predF 63 ++ (0 : BitVec 5))) 1 1 [1, 2] [] sc ∧
    clear 0 (encA 0x02 8 (regF 1) (regF 2) (predF 63 ++ (0 : BitVec 5))) 1 1 [1, 2] [] sc ∧ 8 ≤ (8 : BitVec 5).toNat ∧
    clear 0 (encCmp 0x0F 31 1 0x8000) 1 1 [1] [] sc ∧ clear 0 (encLog 63 1 63 0x03) 1 1 [] [1, 63] sc ∧
    clear 5 (encLog 63 1 0 0x04) 1 1 [] [1] se ∧ clear 0 (encLog 1 0 0 0x07) 1 1 [] [] sc := by
  decide +kernel
theorem test_witness_JumpResults : clear 0 (encJ 0x18 0x3FFFFFF) 2 2 [] [] sc ∧ clear 5 (encJ 0x19 1) 2 2 [] [] se ∧
    clear 0 (encC 0x1A (predF 0) 0x80000) 2 2 [] [0] sc ∧ pGet sc 0 0 = true ∧ clear 0 (encC 0x1B (predF 0) 0x80000) 1 1 [] [0] sc ∧
    clear 0 (encC 0x1A (predF 1) 1) 1 1 [] [1] sc ∧ pGet sc 0 1 = false ∧ clear 0 (encC 0x1B (predF 1) 1) 2 2 [] [1] sc ∧
    clear 0 (encA 0x1C 0 (regF 1) 0 0x000) 2 2 [1] [] sc ∧ (wGet sc 0 1).toNat % 4 = 0 ∧
    clear 0 (encA 0x1C (regF 31) (regF 1) 0 0x001) 2 2 [1] [] sc ∧ (wGet (wPut 0 1 2 sc) 0 1).toNat % 4 ≠ 0 ∧
    clear 0 (encA 0x1C (regF 31) (regF 1) 0 0x001) 2 2 [1] [] (wPut 0 1 2 sc) := by
  decide +kernel

/-- Core 0 with 0x10000000 in W1, in its data window. -/
def scData : State := wPut 0 1 0x10000000 sc
/-- Core 0 with 0x20000000 in W1, in a shared block that it writes. -/
def scShared : State := { wPut 0 1 0x20000000 sc with mem := { (wPut 0 1 0x20000000 sc).mem with block := Tab.fill 64 0 } }
/-- Core 0 with 0x10000000 in W1, whose word there fails its check bits beyond correction. -/
def scBad : State := { scData with mem := eccSet 0 0x10000000 (some true) scData.mem }

theorem test_witness_MemoryResults :
    (clear 0 (encImm 0x10 2 1 0) 1 1 [1] [] scData ∧ mayLoad (code 0 0 scData).mem 0 0x10000000 4 = true ∧
      readCheck (on 0) scData 0x10000000 ≠ some true ∧ mayLoad scData.mem 0 0x10000002 2 = true ∧ mayLoad scData.mem 0 0x10000001 1 = true) ∧
    (clear 0 (encImm 0x10 2 1 0) 1 1 [1] [] scBad ∧ readCheck (on 0) scBad 0x10000000 = some true) ∧
    (clear 0 (encImm 0x14 2 1 0) 1 4 [1] [] scShared ∧ mayLoad scShared.mem 0 0x20000000 4 = true) ∧
    (clear 0 (encImm 0x11 2 1 0) 1 1 [1] [] sc ∧ mayLoad sc.mem 0 0x30000000 4 = false ∧ (3 : Nat) % 4 ≠ 0) ∧
    (code 0 (encImm 0x15 2 1 0) scData).Inv ∧ clear 0 (encImm 0x15 2 1 0) 1 1 [2, 1] [] scData ∧ mayStore scData.mem 0 0x10000000 4 = true ∧
    clear 0 (encImm 0x16 2 1 0xFFFF) 1 1 [2, 1] [] scData ∧ mayStore scData.mem 0 0x10000002 2 = true ∧ mayStore scData.mem 0 0x1001FFFF 1 = true ∧
    (code 0 (encImm 0x17 2 1 0) scShared).Inv ∧ clear 0 (encImm 0x17 2 1 0) 1 4 [2, 1] [] scShared ∧ mayStore scShared.mem 0 0x20000000 4 = true ∧
    mayStore scData.mem 0 0 4 = false := by
  unfold State.Inv; decide +kernel
theorem test_witness_TaskControl : clear 0 (encSys 0 0 0x03 0) 1 1 [] [] sc ∧ clear 0 (encSys 0 0 0x03 0) 1 1 [] [] (at0 0 0) ∧
    clear 5 (encSys 0 0 0x03 0) 1 1 [] [] se ∧ clear 0 (encSys 0 0 0x04 0) 2 2 [] [] sc ∧
    clear 5 (encSys 0 0 0x04 0) 2 2 [] [] (se.onE 5 fun x => { x with inTrap := true }) ∧ clear 5 (encSys 0 0 0x04 0) 2 2 [] [] se ∧
    clear 0 (encSys 0 0 0x06 0) 1 8 [] [] sc ∧ (se.eng.e[(5 : Fin 24)]).inTrap = false ∧
    clear 0 (encSys 0 0 0x05 0x3F) 1 1 [] [] sc ∧ clear 5 (encSys 0 0 0x05 0) 1 1 [] [] se ∧ clear 16 (encSys 0 0 0x05 1) 1 1 [] [] hart ∧
    clsOf 0 = .sc ∧ clsOf 5 = .se ∧ clsOf 12 = .ce ∧ clsOf 17 = .hart ∧ taskOf sc 0 = 1 ∧ taskOf se 5 ≠ 1 := by
  decide +kernel
theorem test_witness_SpecialResults : clear 0 (encImm 0x1D 0 0 0x1234) 1 1 [] [] sc ∧ clear 5 (encImm 0x1D 0 0 0) 1 1 [] [] se ∧
    clear 0 (encSys 3 0 0x01 4) 1 1 [] [] sc ∧ (code 0 (encSys 3 0 0x01 4) sc).eng.c[(0 : Fin 4)].purlSig = ~~~(sc.eng.c[(0 : Fin 4)]).sig ∧
    clear 5 (encSys 3 0 0x01 4) 1 1 [] [] se ∧ clear 0 (encSys 3 0 0x01 5) 1 1 [] [] sc ∧ 4 < (5 : Byte).toNat ∧
    clear 0 (encSys 0 1 0x02 3) 1 1 [1] [] sc ∧ clear 5 (encSys 0 1 0x02 3) 1 1 [1] [] se ∧ clear 5 (encSys 0 1 0x02 2) 1 1 [1] [] se ∧
    clear 0 (encX 0x24 1 0 1 0) 1 1 [] [] sc ∧ clear 5 (encX 0x24 1 0 2 0) 1 1 [] [] se ∧ clear 0 (encX 0x24 1 0 3 0) 1 1 [] [] sc ∧
    clear 5 (encX 0x24 1 0 3 0) 1 1 [] [] se ∧ twin 0 = true ∧ twin 5 = false := by
  decide +kernel

/-- Unit 0 owned by core 0. -/
def scUnit : State := sc.onCvu fun z => { z with u := z.u.upd 0 fun x => { x with cfg := 0x20000007 } }

theorem test_witness_CheckValueResults : fld (scUnit.cvu.u[(0 : Fin 4)]).cfg 20 16 = (0 : Fin 24).val ∧
    bit (scUnit.cvu.u[(0 : Fin 4)]).cfg 3 = false ∧ clear 0 (encX 0x25 0 1 1 0) 2 2 [1] [] scUnit ∧ clear 0 (encX 0x25 0 1 3 0) 1 1 [1] [] scUnit ∧
    clear 0 (encX 0x25 0 1 4 0) 2 2 [1] [] scUnit ∧ clear 0 (encX 0x25 0 1 5 0) 2 2 [1] [] scUnit ∧
    clear 0 (encX 0x25 3 0 2 0) 1 1 [] [] scUnit ∧ fld (sc.cvu.u[(3 : Fin 4)]).cfg 20 16 ≠ (0 : Fin 24).val ∧
    clear 0 (encX 0x25 0 1 1 3) 2 2 [1] [] sc ∧ clear 0 (encX 0x25 3 0 2 3) 1 1 [] [] sc := by
  decide +kernel

/-- Engine 5 owns timer channel 31 and snap group 15. -/
def seTimer : State := se.onTmr fun z => { z with
  ch := z.ch.upd 31 fun x => { x with cfg := 0x500 }, grp := z.grp.upd 15 fun g => { g with owner := 5 } }

theorem test_witness_TimerInstructions :
    tmrOwner (fetchReport (on 5) (code 5 (encX 0x26 1 0 4 31) seTimer)).tmr 31 = (5 : Fin 24).val ∧ clear 5 (encX 0x26 1 0 4 31) 1 1 [] [] seTimer ∧
    clear 5 (encX 0x26 1 0 2 31) 1 1 [] [] seTimer ∧ clear 5 (encX 0x26 1 0 5 31) 1 1 [] [] seTimer ∧ clear 5 (encX 0x26 1 0 6 31) 1 1 [] [] seTimer ∧
    tmrOwner (fetchReport (on 5) seTimer).tmr 0 ≠ (5 : Fin 24).val ∧ clear 5 (encX 0x26 1 0 4 0) 1 1 [] [] seTimer ∧
    clear 5 (encX 0x26 0 0 1 15) 1 1 [] [] seTimer ∧ ((fetchReport (on 5) seTimer).tmr.grp[(15 : Fin 16)]).owner.toNat = (5 : Fin 24).val ∧
    clear 5 (encX 0x26 0 0 1 0) 1 1 [] [] seTimer ∧ ((fetchReport (on 5) seTimer).tmr.grp[(0 : Fin 16)]).owner.toNat ≠ (5 : Fin 24).val ∧
    clear 5 (encX 0x26 0 1 3 31) 1 1 [1] [] seTimer ∧ clear 0 (encX 0x26 0 1 3 31) 1 1 [1] [] sc ∧
    ((seTimer.onTmr fun z => { z with ch := z.ch.upd 31 fun x => { x with lock := true } }).tmr.ch[(31 : Fin 32)]).lock = true ∧
    clear 0 (encX 0x27 1 0 2 3) 1 1 [] [] sc ∧ clear 5 (encX 0x27 1 0 2 0) 1 1 [] [] se ∧
    clear 0 (encX 0x27 0 0 3 0x7F) 1 1 [] [] sc ∧ clear 5 (encX 0x27 0 0 3 0x7F) 1 1 [] [] se ∧
    clear 0 (encX 0x27 0 0 1 2) 1 1 [] [] sc ∧ clear 5 (encX 0x27 0 0 1 2) 1 1 [] [] (seTimer.onE 5 fun x => { x with flags := 4 }) ∧
    bit ((seTimer.onE 5 fun x => { x with flags := 4 }).eng.e[(5 : Fin 24)]).flags (2 : BitVec 7).toNat = true ∧
    bit (seTimer.eng.e[(5 : Fin 24)]).flags (127 : BitVec 7).toNat = false := by
  decide +kernel

/-- The boot core in its executable RAM. -/
def bcRam (w : Word) : State :=
  let s := (at0 14 0).onE 14 fun x => { x with pc := Tab.fill 16 0x10000100 }
  { s with mem := writeBytes 14 0x10000100 (wordBytes w) s.mem }

theorem test_witness_PortResults : clear 0 (encImm 0x21 1 0 0x5007) 1 1 [] [] sc ∧
    (liveWord (fetchReport (on 0) (code 0 (encImm 0x21 1 0 0x5007) sc)) 5 7).isSome = true ∧
    (tslReady (bcRam (encImm 0x21 1 0 0)) 14 = true ∧ fetchCause (on 14) (bcRam (encImm 0x21 1 0 0)) = none ∧
      codeWord (bcRam (encImm 0x21 1 0 0)) 14 = encImm 0x21 1 0 0 ∧ passesLimit (bcRam (encImm 0x21 1 0 0)) 14 1 = false) ∧
    (liveWord (fetchReport (on 14) (bcRam (encImm 0x21 1 0 0))) 0 0).isSome = true ∧ clsOf 14 = .bc ∧ inSlot (bcRam (encImm 0x21 1 0 0)) 14 = false ∧
    clear 0 (encImm 0x21 1 0 0x903F) 1 4 [] [] sc ∧ (0x903F : Half).toNat / 4096 = 9 ∧ (0x903F : Half).toNat % 4096 < 64 ∧
    clear 0 (encImm 0x21 1 0 0xB000) 1 4 [] [] sc ∧ clear 0 (encImm 0x21 1 0 0xC000) 1 4 [] [] sc ∧
    clear 0 (encImm 0x22 0 1 0x6FF0) 1 1 [1] [] sc ∧ clear 0 (encImm 0x22 0 1 0x70FF) 2 2 [1] [] sc ∧
    ownsSession (fetchReport (on 0) (sc.onCsl fun x => { x with s := x.s.upd 255 fun y => { y with cfg := 0x8000 } })) 0 255 = true ∧
    clear 0 (encImm 0x22 0 1 0x9000) 1 4 [1] [] sc ∧ mbxMay (fetchReport (on 0) sc) (.engine 0) 0 = false ∧
    clear 5 (encImm 0x22 0 1 0x903F) 1 4 [1] [] (se.onLink fun l => { l with mbxWriter := Tab.fill 32 5 }) ∧
    mbxMay (fetchReport (on 5) (se.onLink fun l => { l with mbxWriter := Tab.fill 32 5 })) (.engine 5) 63 = true ∧
    clear 0 (encImm 0x22 0 1 0) 1 1 [1] [] sc := by
  decide +kernel

/-- Core 0 owns output 15 and port 3, whose group 0 is defined. -/
def scOwner : State := { sc with
  sout := { sc.sout with used := 0x8000, ports := 8, owners := 0, portOwners := 0 }
  otp := { sc.otp with tap := 0 }
  csc := { sc.csc with p := sc.csc.p.upd 3 fun x => { x with grp := x.grp.upd 0 fun _ => 0x1FF00001 } } }

theorem test_witness_SafetyPorts : clear 0 (encX 0x23 0 1 1 0) 1 1 [1] [] (wPut 0 1 0x8000 scOwner) ∧
    (twin 0 = true ∧ taskOf scOwner 0 = 1) ∧
    (∀ k < 32, bit (wGet (wPut 0 1 0x8000 scOwner) 0 1) k = true → k = 15) ∧ bit (wGet (wPut 0 1 0x10000 scOwner) 0 1) 16 = true ∧
    clear 5 (encX 0x23 0 1 1 0) 1 1 [1] [] se ∧ twin 5 = false ∧
    clear 0 (encX 0x23 0 1 2 ((3 : BitVec 4) ++ (0 : BitVec 7) ++ BitVec.ofBool true)) 1 1 [1] [] scOwner ∧
    cscAbsent (fetchReport (on 0) scOwner) = false ∧ bit (ownedPort scOwner.sout.ports scOwner.sout.portOwners 0) 3 = true ∧
    (wGet scOwner 0 1) &&& ~~~(definedGroups (fetchReport (on 0) scOwner) 3 true) = 0 ∧
    clear 0 (encX 0x23 0 1 2 ((3 : BitVec 4) ++ (0 : BitVec 7) ++ BitVec.ofBool true)) 1 1 [1] [] (wPut 0 1 0x80000000 scOwner) ∧
    (wGet (wPut 0 1 0x80000000 scOwner) 0 1) &&& ~~~(definedGroups (fetchReport (on 0) scOwner) 3 true) ≠ 0 ∧
    clear 0 (encX 0x23 0 1 2 ((4 : BitVec 4) ++ (0 : BitVec 7) ++ BitVec.ofBool false)) 1 1 [1] [] scOwner ∧ 3 < (4 : BitVec 4).toNat ∧
    clear 5 (encX 0x23 0 1 2 ((3 : BitVec 4) ++ (0 : BitVec 7) ++ BitVec.ofBool true)) 1 1 [1] [] se ∧
    clear 0 (encX 0x23 0 0 3 0) 4 4 [] [] scOwner ∧ scOwner.eng.c[(0 : Fin 4)].purlSig = ~~~(scOwner.eng.c[(0 : Fin 4)]).sig ∧
    scOwner.sys.runState ≠ .lockout ∧ clear 5 (encX 0x23 0 0 3 0) 4 4 [] [] se := by
  decide +kernel
theorem test_witness_Scheduling :
    (let s := { sc.onC 0 fun c => { c with mode := 1, initDone := true, scanCfg := 0x802 } with
       t := { sc.t with runA := true, tbA := 50000 } }
     (s.eng.e[engOf 0]).on = true ∧ (s.eng.c[(0 : Fin 4)]).mode = 1 ∧ s.t.runA = true ∧ s.sys.runState ≠ .dormant ∧
      (s.eng.c[(0 : Fin 4)]).periodU ≠ 0 ∧
      s.t.tbA.toNat % ((s.eng.c[(0 : Fin 4)]).periodU * 10000) = fld (s.eng.c[(0 : Fin 4)]).scanCfg 21 11 * 10000 ∧
      (s.eng.c[(0 : Fin 4)]).inScan = false ∧ (s.eng.c[(0 : Fin 4)]).initDone = true ∧ s.sys.holding = false) ∧
    (((at0 3 2).eng.e[engOf 3]).task = some 2 ∧ ((at0 3 2).eng.c[(3 : Fin 4)]).testCap < ((at0 3 2).eng.c[(3 : Fin 4)]).testSteps + 2) ∧
    (let s := se.onE 5 fun x => { x with task := none, tasks := 0x8001, waiting := x.waiting.upd 0 fun _ => some 3 }
     let x := s.eng.e[(5 : Fin 24)]
     4 ≤ (5 : Fin 24).val ∧ x.on = true ∧ x.task = none ∧ bit x.resumes 15 = false ∧
      (bit x.tasks 15 = true ∧ x.waiting[(15 : Fin 16)] = none) ∧
      (∀ k : Fin 16, k < 15 → ¬ (bit x.resumes k.val = true ∨ bit x.tasks k.val = true ∧ x.waiting[k] = none))) ∧
    (let x := (se.onE 5 fun x => { x with task := none, resumes := 1 }).eng.e[(5 : Fin 24)]
     x.task = none ∧ bit x.resumes 0 = true) := by decide +kernel
theorem test_witness_Traps : tslReady State.reset 0 = false ∧ tslReady sc 0 = true ∧ twin 0 = true ∧ sc.live ∧
    (fetchCause (on 0) (code 0 (encMul 3 1 2 0x000) sc) = none ∧
      wordIs (encAlu 3 1 2 0x000) (codeWord (code 0 (encMul 3 1 2 0x000) sc) 0) = .other) ∧
    (clear 0 (encAlu 3 1 2 0x000) 1 1 [1, 2] [] sc ∧ ({ eng := 0, dis := [⟨1, 1, 4⟩] } : Issue).dis = [⟨1, 1, 4⟩] ∧ (4 : Word) ≠ 0) ∧
    ((on 0).dis = [] ∧ purlPcOf sc 0 = ~~~(pcOf sc 0) ∧ testFull sc 0 (stepsOf (on 0) 18 18) = false) ∧
    (let s := sc.onE 0 fun x => { x with pc := Tab.fill 16 0x40000, purlPc := Tab.fill 16 (~~~0x40000) }
     inCode s.mem 0 (pcOf s 0).toNat 4 = false ∧ purlPcOf s 0 = ~~~(pcOf s 0)) ∧
    usedBits (codeWord (code 0 0xFFFFFFFF sc) 0) = none ∧
    (let v := encAlu 3 1 2 0x000
     let w := codeWord (code 0 (encAlu 3 1 2 0x020) sc) 0
     w ≠ v ∧ usedBits w = some 0xFFFFF81F ∧ w &&& 0xFFFFF81F = v) ∧
    rfBad (sc.onE 0 fun x => { x with bankS := { x.bankS with w := Tab.fill 32 1 } }) 0 [1, 2] [] = true ∧
    (codeWord (code 0 (encMul 3 1 2 0x005) sc) 0 = encMul 3 1 2 0x005 ∧ rfBad sc 0 [1, 2] [] = false ∧ wGet sc 0 2 = 0) ∧
    passesLimit ((at0 0 0).onE 0 fun x => { x with steps := Tab.fill 16 50000 }) 0 (stepsOf (on 0) 1 1) = true ∧
    tslReady se 5 = true ∧ clsOf 5 = .se ∧ clsOf 17 = .hart ∧ clsOf 13 = .ce ∧ fetchCause (on 5) se = none ∧
    codeWord (code 5 (encMul 3 1 2 0x005) se) 5 = encMul 3 1 2 0x005 ∧ rfBad se 5 [1, 2] [] = false ∧ wGet se 5 2 = 0 ∧
    (se.eng.e[(5 : Fin 24)]).inTrap = false ∧ ((se.onE 5 fun x => { x with inTrap := true }).eng.e[(5 : Fin 24)]).inTrap = true ∧ se.live := by
  unfold State.live; decide +kernel

/-! ## Encodings (Tables 3-17 and 4-15) -/

/-- Tables 3-17 and 4-15: the words of the two compiled programs. -/
theorem test_encode_programs :
    encImm 0x21 1 0 0x1002 = 0x84201002 ∧ encImm 0x05 2 1 0x0001 = 0x14410001 ∧ encCmp 0x0B 1 2 0 = 0x2C220000 ∧
    encImm 0x06 3 0 0x0008 = 0x18600008 ∧ encAlu 4 3 0 (predF 1 ++ (0x10 : BitVec 5)) = 0x00830030 ∧ encImm 0x1D 0 0 0x1A2B = 0x74001A2B ∧
    encX 0x23 0 4 1 0 = 0x8C041000 ∧ encX 0x23 0 0 3 0 = 0x8C003000 ∧ encImm 0x08 10 0 0x1000 = 0x21401000 ∧
    encImm 0x15 0 10 0 = 0x540A0000 ∧ encSys 0 0 0x03 0 = 0x80000300 ∧ encImm 0x10 3 10 0 = 0x406A0000 ∧
    encLog 3 3 2 0x01 = 0x0C30C201 ∧ encLog 3 3 1 0x00 = 0x0C30C100 ∧
    encImm 0x09 8 7 ((0 : BitVec 9) ++ (0 : BitVec 2) ++ (3 : BitVec 5)) = 0x25070003 := by decide +kernel

/-- R89, R91: a word is its instruction, its instruction with a field that must be 0, another, or none. -/
theorem test_word_is : wordIs (encAlu 1 2 3 0) (encAlu 1 2 3 0) = .itself ∧ wordIs (encAlu 1 2 3 0) (encAlu 1 2 3 0x7E0) = .dirty ∧
    wordIs (encAlu 1 2 3 0) (encAlu 1 2 3 1) = .other ∧ wordIs (encAlu 1 2 3 0) 0xFFFFFFFF = .reserved ∧
    usedBits 0x00000014 = none ∧ usedBits 0x04000008 = none ∧ usedBits 0x7C000000 = none ∧ usedBits 0x80000700 = none := by decide +kernel

/-- The state after a row. -/
def after (o : Host.Outcome State Fault Refusal) : State := match o with | .next u => u | _ => State.reset

/-- R130, R95: the two passes of an addition agree, and a value changed in one pass alone stops the core with the lane recorded. -/
theorem test_twin_add :
    (let u := after (exec (.add (on 0) 3 1 2) (code 0 (encAlu 3 1 2 0) (wPut 0 1 5 (wPut 0 2 7 sc))))
     wGet u 0 3 = 12 ∧ (u.eng.e[(0 : Fin 24)]).on = true) ∧
    (let u := after (exec (.add { eng := 0, dis := [⟨1, 1, 8⟩] } 3 1 2) (code 0 (encAlu 3 1 2 0) (wPut 0 1 5 (wPut 0 2 7 sc))))
     (u.eng.e[(0 : Fin 24)]).on = false ∧ fld (u.eng.c[(0 : Fin 4)]).mmLane 2 0 = 1 ∧
      (u.eng.c[(0 : Fin 4)]).mmKnit = 12 ∧ (u.eng.c[(0 : Fin 4)]).mmPurl = 4) := by decide +kernel

/-! ## Hypotheses that can be met: the blocks -/

/-- `s` with timebase A running and at 5 s. -/
def late (s : State) : State := { s with t := { s.t with runA := true, tbA := 1000000000 } }

/-- The host owns timer channel 31 and group 15; the channel is FREE. -/
def tmrHost (run : Bool) : State := (up .run).onTmr fun z => { z with
  ch := z.ch.upd 31 fun x => { x with cfg := 0x1801, run := run, modv := 10 }, grp := z.grp.upd 15 fun g => { g with owner := 0x18 } }

theorem test_witness_TimerCommands : ctrlServed (tmrHost false) = true ∧ tmrOwner (tmrHost false).tmr 31 = 0x18 ∧
    ((tmrHost false).tmr.ch[(31 : Fin 32)]).mode = 1 ∧ ((tmrHost false).tmr.ch[(31 : Fin 32)]).run = false ∧
    ((tmrHost true).tmr.ch[(31 : Fin 32)]).run = true ∧ linked (tmrHost true).tmr 31 = false ∧
    linked ((up .run).onTmr fun z => { z with ch := z.ch.upd 30 fun x => { x with cfg := 0x10001 } }).tmr 30 = false ∧
    (9 : Word).toNat < ((tmrHost true).tmr.ch[(31 : Fin 32)]).modv.toNat ∧ ((tmrHost true).tmr.ch[(31 : Fin 32)]).modv ≠ 0 ∧
    ((tmrHost true).tmr.ch[(31 : Fin 32)]).modv.toNat ≤ (10 : Word).toNat ∧ tmrOwner (tmrHost true).tmr 0 ≠ 0x18 ∧
    ((tmrHost true).tmr.grp[(15 : Fin 16)]).owner = 0x18 ∧ ctrlServed (up .halt) = false := by decide +kernel
theorem test_witness_TimerEvents :
    (let s := late ((up .run).onTmr fun z => { z with ch := z.ch.upd 29 fun x => { x with cfg := 2, run := true, armed := true, modv := 7, cmp := 6 } })
     (s.tmr.ch[(29 : Fin 32)]).mode ≠ 0 ∧ (s.tmr.ch[(29 : Fin 32)]).run = true ∧ (s.tmr.ch[(29 : Fin 32)]).armed = true ∧
      linked s.tmr 29 = false ∧ advances s.tmr s.t.tbA 29 = true ∧ countAt s.tmr s.t.tbA 29 = 6 ∧
      (s.tmr.ch[(29 : Fin 32)]).cmpAt ≠ some s.t.tbA) ∧
    (let s := late ((up .run).onTmr fun z => { z with ch := z.ch.upd 29 fun x => { x with cfg := 2, run := true, modv := 10 } })
     linked s.tmr 29 = false ∧ advances s.tmr s.t.tbA 29 = true ∧ countAt s.tmr s.t.tbA 29 = 0) ∧
    (let s := late ((up .run).onTmr fun z => { z with trigQ := [(3, 31, 0)], ch := z.ch.upd 31 fun x => { x with cfg := 0x1F01 } })
     s.tmr.trigQ = (3, 31, 0) :: [] ∧ come s 0 = true ∧ (0 : DWord) ≠ s.t.tbA ∧ linked s.tmr 31 = false ∧
      (s.tmr.ch[(31 : Fin 32)]).mode = 1 ∧ (s.tmr.ch[(31 : Fin 32)]).run = false) ∧
    (let s := late ((up .run).onTmr fun z => { z with ch := z.ch.upd 31 fun x =>
        { x with cfg := 0x03200002, run := true, sync := [(true, 0, none)], lock := true, hold := some (true, 1) } })
     (s.tmr.ch[(31 : Fin 32)]).mode ≠ 0 ∧ (s.tmr.ch[(31 : Fin 32)]).sync = (true, 0, none) :: [] ∧ come s 0 = true ∧ 2 ≤ since s 0 ∧
      cntFalling s.tmr.ch[(31 : Fin 32)] true = false ∧ linked s.tmr 31 = false ∧ (s.tmr.ch[(31 : Fin 32)]).lock = true ∧
      (s.tmr.ch[(31 : Fin 32)]).hold ≠ none) ∧
    (let s := late ((up .run).onTmr fun z => { z with ch := z.ch.upd 30 fun x => { x with cfg := 2, run := true, armed := true, modv := 400000, cmp := 190000 } })
     (30 = 30 ∨ 30 = 31) ∧ (s.tmr.ch[(30 : Fin 32)]).mode = 2 ∧ (s.tmr.ch[(30 : Fin 32)]).run = true ∧ (s.tmr.ch[(30 : Fin 32)]).armed = true ∧
      (s.tmr.ch[(30 : Fin 32)]).cmpAt ≠ some s.t.tbA ∧ slotCome 30 s = true ∧ 2000 < slotLate 30 s ∧ s.live) := by
  unfold State.live; decide +kernel

/-- Output 15 configured, demanded and energised by both channels. -/
def outOn : State := { (up .run).onO 15 fun o => { o with cfg := 1, demand := true, hold := false, swa := true } with
  hld := { State.reset.hld with h := false, out := State.reset.hld.out.upd 15 fun c => { c with valid := true, d := true, closed := true } } }

theorem test_witness_OutputFaults :
    (let s := late (outOn.onO 15 fun o => { o with lowSince := some 0 })
     cmdEnergised s 15 = true ∧ (s.sout.o[(15 : Fin 16)]).pulse = none ∧ (s.sout.o[(15 : Fin 16)]).limit = false ∧
      (s.sout.o[(15 : Fin 16)]).rb = false ∧ (s.sout.o[(15 : Fin 16)]).lowSince = some 0 ∧ past s 0 2000 = true) ∧
    (let s := late (outOn.onO 15 fun o => { o with limit := true, limitSince := some 0 })
     bit (s.sout.o[(15 : Fin 16)]).cfg 0 = true ∧ (s.sout.o[(15 : Fin 16)]).limit = true ∧ (s.sout.o[(15 : Fin 16)]).limitSince = some 0 ∧
      past s 0 (1000 * fld (s.sout.o[(15 : Fin 16)]).cfg 22 16) = true) ∧
    (let s := late (outOn.onO 15 fun o => { o with fb := 0xA0, energised := true })
     bit (s.sout.o[(15 : Fin 16)]).fb 7 = true ∧ fbLevel s (s.sout.o[(15 : Fin 16)]) ≠ (cmdEnergised s 15 == bit (s.sout.o[(15 : Fin 16)]).fb 5) ∧
      (s.sout.o[(15 : Fin 16)]).energised = cmdEnergised s 15 ∧
      past s (s.sout.o[(15 : Fin 16)]).enAt (1000 * fld (s.sout.o[(15 : Fin 16)]).fb 18 8) = true) := by decide +kernel
theorem test_witness_OutputPulses :
    (outOn.sout.o[(15 : Fin 16)]).test = false ∧
    (let s := late (outOn.onO 15 fun o => { o with pulse := some { width := 6, fell := some 0 } })
     (s.sout.o[(15 : Fin 16)]).pulse = some { width := 6, fell := some 0 } ∧ parallelOf s.sout 15 = none ∧
      (∀ a : Fin 16, (s.sout.o[a]).watch = false) ∧ past s 0 (6 * 10) = true ∧ (s.sout.o[(15 : Fin 16)]).rb = false ∧
      (s.sout.o[(15 : Fin 16)]).suspect = false ∧ (((0 : DWord) - 0).toNat + 199) / 200 + 20 ≤ 6 * 10) ∧
    (let s := late (outOn.onO 15 fun o => { o with cfg := 0x3201, pulse := some { width := 6, fell := some 10000 }, rb := true })
     past s 0 (6 * 10) = true ∧ 6 * 10 < (((10000 : DWord) - 0).toNat + 199) / 200 + 20 ∧ 6 < (s.sout.o[(15 : Fin 16)]).wmax) ∧
    (let s := late (outOn.onO 15 fun o => { o with cfg := 0x3201, pulse := some { width := 50 }, rb := true })
     past s 0 (50 * 10) = true ∧ (s.sout.o[(15 : Fin 16)]).wmax ≤ 50) ∧
    (let s := late (outOn.onO 15 fun o => { o with swa := false, rb := true, openSince := some 0 })
     bit (s.sout.o[(15 : Fin 16)]).cfg 0 = true ∧ (s.sout.o[(15 : Fin 16)]).openSince = some 0 ∧
      past s 0 (10 * fld (s.sout.o[(15 : Fin 16)]).cfg2 26 16) = true ∧ (s.sout.o[(15 : Fin 16)]).watch = false ∧
      (s.sout.o[(15 : Fin 16)]).causes = [] ∧ (∀ b : Fin 16, b ≠ 15 → cmdEnergised s b = false)) ∧
    cmdEnergised (outOn.onO 0 fun o => { o with cfg := 1, rb := true }) 15 = true ∧
    (let s := late (outOn.onO 15 fun o => { o with watch := true, isol := some ⟨0, some 3, 0⟩, test := true })
     (s.sout.o[(15 : Fin 16)]).watch = true ∧ come s (s.sout.o[(15 : Fin 16)]).watchAt = true ∧
      pulsePeriod s.sout ≤ since s (s.sout.o[(15 : Fin 16)]).watchAt ∧ (s.sout.o[(15 : Fin 16)]).isol = some ⟨0, some 3, 0⟩ ∧
      past s 0 1000 = true ∧ (s.sout.o[(15 : Fin 16)]).test = true ∧ past s (s.sout.o[(15 : Fin 16)]).testAt 5000 = true) ∧
    (let s := late ((up .run).onO 15 fun o => { o with cfg := 1 })
     ctrlServed s = true ∧ s.live ∧ (∀ j : Fin 16, (s.sout.o[j]).test = false) ∧ (∀ j ∈ both s.sout 15, testable s j = true)) := by
  unfold State.live; decide +kernel

/-- Channel B evaluating in RUN. -/
def bRun : State := { up .run with hld := { State.reset.hld with loadMode := false, exchArmed := true, loadCrc := crcWords [] } }

/-- Inputs sampled, with input 31 in mode `m` of a configured pair. -/
def inUp (m : Word) : State := { up .run with
  pwr := { (up .run).pwr with vf1 := true, domains := 0x0B7 }
  sin := { State.reset.sin with i := State.reset.sin.i.upd 31 fun i => { i with cfg := 0x00011470 ||| m, running := true, overN := 2 }
                                pair := State.reset.sin.pair.upd 15 fun p => { p with cfg := 1 } } }

theorem test_witness_InputSampling : fdigRuns (inUp 2) = true ∧ ((inUp 2).sin.i[(31 : Fin 32)]).mode = 2 ∧
    ((inUp 2).sin.i[(31 : Fin 32)]).forced = false ∧ ((inUp 2).sin.i[(31 : Fin 32)]).masked = false ∧ inMask (inUp 2).sin 31 = false ∧
    (let s := late ((inUp 1).onI 31 fun i => { i with sampleAt := some 0 })
     (s.sin.i[(31 : Fin 32)]).mode = 1 ∧ 20 ≤ fld (s.sin.i[(31 : Fin 32)]).cfg 13 8 ∧ (s.sin.i[(31 : Fin 32)]).testAt = none ∧
      (s.sin.i[(31 : Fin 32)]).sampleAt = some 0 ∧ come s 0 = true ∧ inMask s.sin 31 = false) ∧
    inMask ((inUp 1).onTp 7 fun x => { x with mask := true }).sin 31 = true ∧
    ((inUp 2).sin.i[(31 : Fin 32)]).gapAt = none ∧ fld ((inUp 2).sin.i[(31 : Fin 32)]).cfg 13 8 < 21 ∧
    ((inUp 2).sin.i[(31 : Fin 32)]).overN = 2 ∧ ((inUp 2).sin.i[(31 : Fin 32)]).settleFault = false ∧
    ((inUp 2).sin.pair[pairOf 31]).conn ≠ 0 ∧ fdigRuns (up .run) = false ∧
    (let s := late (inUp 2)
     (s.sin.i[(31 : Fin 32)]).running = true ∧ past s (s.sin.i[(31 : Fin 32)]).edge (10 * fld (s.sin.i[(31 : Fin 32)]).cfg 27 16) = true ∧
      countsFirst s 31 = none) ∧
    (inUp 2).sys.runState ≠ .dormant ∧ (inUp 0).sin.i[(31 : Fin 32)].mode ≠ 2 ∧
    (bRun.hld.loadMode = false ∧ (bRun.hld.ev[(5 : Fin 64)]).inA ≠ 31 ∧ (bRun.hld.ev[(5 : Fin 64)]).inB ≠ 31) := by decide +kernel

/-- Pair 15 is a two-input connection in state `st`. -/
def conn (st : ConnSt) (f : ConnA → ConnA) : State := (up .run).onPair 15 fun p => { p with cfg := 2, lo := f { p.lo with st := st } }

theorem test_witness_Connections :
    (let s := late (conn .waitOn id)
     (s.sin.pair[(15 : Fin 16)]).two = true ∧ (s.sin.pair[(15 : Fin 16)]).lo.st = .waitOn ∧ (s.sin.pair[(15 : Fin 16)]).lo.locked = false ∧
      come s (s.sin.pair[(15 : Fin 16)]).lo.e1 = true ∧ (s.sin.pair[(15 : Fin 16)]).disc < since s (s.sin.pair[(15 : Fin 16)]).lo.e1 ∧
      (s.sin.i[(31 : Fin 32)]).running = false) ∧
    (let s := late (conn .safe fun c => { c with bandWait := true, guardPend := true })
     (s.sin.pair[(15 : Fin 16)]).lo.bandWait = true ∧ past s (s.sin.pair[(15 : Fin 16)]).lo.bandAt 100 = true ∧
      past s (s.sin.pair[(15 : Fin 16)]).lo.guardAt 100 = true ∧ past s (s.sin.pair[(15 : Fin 16)]).lo.relAt 50 = true) ∧
    (let s := conn .locked fun c => { c with clearRel := true, disc := true }
     (s.sin.pair[(15 : Fin 16)]).two = true ∧ (s.sin.pair[(15 : Fin 16)]).lo.locked = true ∧ (s.sin.pair[(15 : Fin 16)]).lo.clearRel = true ∧
      (s.hld.ev[mirrorOf s.sin (evenIn 15)]).lock = false ∧ (s.sin.pair[(15 : Fin 16)]).lo.band = false ∧
      (∀ n ∈ [evenIn 15, oddIn 15], enSide s.sin n (counted s.sin n) = false ∧ (s.sin.i[n]).settleFault = false ∧
        (s.sin.tp.getN (s.sin.i[n]).source {}).cond = false)) ∧
    (let s := { conn .locked fun c => { c with clearRel := true, disc := true } with
       hld := { State.reset.hld with ev := Tab.fill 64 { lock := true } } }
     (s.hld.ev[mirrorOf s.sin (evenIn 15)]).lock = true) ∧
    (let s := (conn .locked fun c => { c with clearRel := true, disc := true }).onI 30 fun i => { i with cfg := 2, level := true }
     enSide s.sin (evenIn 15) (counted s.sin (evenIn 15)) = true) ∧
    (let s := { up .run with
       sin := { State.reset.sin with slot := (Tab.fill 8 ({ cell := { st := .active, n := 300000 } } : SlotA)).set 7 { cell := { st := .recover, m := 50000 } } }
       hld := { State.reset.hld with rel := (Tab.fill 8 ({ st := .active, n := 300000 } : RelCell)).set 7 { st := .recover, m := 50000 } } }
     300000 ≤ (s.sin.slot[(0 : Fin 8)]).cell.n ∧ 50000 ≤ (s.hld.rel[(7 : Fin 8)]).m ∧
     (s.sin.slot[(0 : Fin 8)]).cell.st = .active ∧ (s.hld.rel[(0 : Fin 8)]).st = .active ∧ (s.sin.slot[(7 : Fin 8)]).cell.st = .recover ∧
      (s.hld.rel[(7 : Fin 8)]).st = .recover) := by decide +kernel
theorem test_witness_TestPulses :
    (let s := late { up .run with sin := { State.reset.sin with tpCfg := 0xFF000000 } }
     bit s.sin.tpCfg (24 + (7 : Fin 8).val) = true ∧ (s.sin.tp[(7 : Fin 8)]).drive = false ∧
      past s (s.sin.tp[(7 : Fin 8)]).pulseAt (10 * fld s.sin.tpCfg 22 16) = true ∧ (s.sin.tp[(7 : Fin 8)]).rb = false) ∧
    (let s := late ((up .run).onTp 7 fun x => { x with rb := true, diffAt := some 0 })
     (s.sin.tp[(7 : Fin 8)]).rb = true ∧ past s (s.sin.tp[(7 : Fin 8)]).rbAt 50 = true ∧ (s.sin.tp[(7 : Fin 8)]).diffAt = some 0 ∧
      come s 0 = true ∧ 6000 < since s 0 ∧ (s.sin.tp[(7 : Fin 8)]).cond = false) ∧
    (let s := (((up .run).onTp 7 fun x => { x with whole := 0x80000000 }).onI 31 fun i => { i with cfg := 0x72, present := true, tpFail := true }).onPair 15
       fun p => { p with cfg := 1 }
     (s.sin.i[(31 : Fin 32)]).mode ≠ 0 ∧ (s.sin.i[(31 : Fin 32)]).source = (7 : Fin 8).val ∧ bit (s.sin.tp[(7 : Fin 8)]).whole 31 = true ∧
      (s.sin.i[(31 : Fin 32)]).present = true ∧ (s.sin.i[(31 : Fin 32)]).tpFail = true ∧ (s.sin.pair[pairOf 31]).conn ≠ 0) := by decide +kernel

/-- Channel 7 of the loop block in mode `m`, its field analog domain on. -/
def loop (m : Word) : State := { up .run with
  pwr := { (up .run).pwr with van := true, domains := 0x137 }
  alp := { State.reset.alp with ch := State.reset.alp.ch.upd 7 fun c => { c with cfg := 0x8038 ||| m } } }

theorem test_witness_LoopChannels : ((loop 1).alp.ch[(7 : Fin 8)]).mode = 1 ∧ fanOn (loop 1) = true ∧ ((loop 1).alp.ch[(7 : Fin 8)]).gaugeRun = false ∧
    bit ((loop 1).alp.ch[(7 : Fin 8)]).cfg 3 = true ∧ ((loop 1).alp.ch[(7 : Fin 8)]).gain = 0 ∧ ((loop 3).alp.ch[(7 : Fin 8)]).mode = 3 ∧
    ctrlServed (loop 3) = true ∧ fld ((loop 3).alp.ch[(7 : Fin 8)]).cfg 15 12 = 8 ∧
    (let s := (loop 3).onAlp fun x => { x with ch := x.ch.upd 7 fun c => { c with cfg := 0x7003 } }
     fld (s.alp.ch[(7 : Fin 8)]).cfg 15 12 < 8 ∧ (11 : Fin 24).val = 4 + fld (s.alp.ch[(7 : Fin 8)]).cfg 15 12) ∧
    (let s := (loop 3).onAlp fun x => { x with ch := x.ch.upd 7 fun c => { c with set := 0xFFFF, timedOut := false } }
     (codeOf 1000000).toNat ≤ (setInForce s 7).toNat) ∧
    (let s := late ((loop 1).onAlp fun x => { x with ch := x.ch.upd 7 fun c => { c with short := true, supplyOff := true } })
     (s.alp.ch[(7 : Fin 8)]).short = true ∧ past s (s.alp.ch[(7 : Fin 8)]).supplyAt 1000000 = true ∧
      past s (s.alp.ch[(7 : Fin 8)]).convAt 15000 = true ∧ past s (s.alp.ch[(7 : Fin 8)]).setAt 100000 = true) ∧ bit ((loop 1).alp.ch[(7 : Fin 8)]).cfg 4 = true := by decide +kernel
theorem test_witness_GaugeAndTrims : ctrlServed (loop 1) = true ∧ ((loop 1).alp.ch[(7 : Fin 8)]).mode ≠ 0 ∧ affectedSafe (loop 1) 7 = true ∧
    affectedSafe (outOn.onAlp fun x => { x with ch := x.ch.upd 7 fun c => { c with cfg := 0x11, cfg2 := 0xFFFF } }) 7 = false ∧
    ((loop 1).alp.ch[(7 : Fin 8)]).gaugeRun = false ∧ fanOn (loop 1) = true ∧
    (loop 1).sys.runState ≠ .service ∧
    (let s := { loop 3 with sys := { (loop 3).sys with runState := .service }, alp := { (loop 3).alp with armed := some 7 } }
     s.sys.runState = .service ∧ s.alp.avg = none ∧ s.alp.armed = some 7 ∧ (s.alp.ch[(7 : Fin 8)]).mode = 3 ∧ ctrlServed s = true) ∧
    (let s := { loop 1 with sys := { (loop 1).sys with runState := .service }, alp := { (loop 1).alp with armed := some 7 } }
     (s.alp.ch[(7 : Fin 8)]).mode = 1) ∧
    (let s := late ((loop 1).onAlp fun x => { x with armed := some 7, avg := some false, sum := (10923, 1) })
     s.alp.armed = some 7 ∧ past s s.alp.avgAt 1000000 = true ∧ s.alp.avg = some false ∧ s.alp.sum.2 ≠ 0 ∧ 3800000 ≤ s.alp.sum.1 / s.alp.sum.2 * 24000000 / 65536 ∧
      s.alp.sum.1 / s.alp.sum.2 * 24000000 / 65536 ≤ 4200000) ∧
    (let s := (loop 1).onAlp fun x => { x with armed := some 7, avg := some true }
     s.alp.avg = some true ∧ s.alp.sum.2 = 0) ∧
    (let s := late ((loop 1).onAlp fun x => { x with ch := x.ch.upd 7 fun c => { c with gaugeRun := true, win := Tab.fill 2 0x80000000 } })
     let m : GaugeMeas := { d4 := -24000, d20 := 24000, lo := (some 100000, some (-100000)), hi := (some 0, none) }
     let near := fun (d : Option Int) => match d with | some x => decide (x.natAbs ≤ 100000) | none => false
     (s.alp.ch[(7 : Fin 8)]).gaugeRun = true ∧ past s (s.alp.ch[(7 : Fin 8)]).gaugeAt 20000 = true ∧ m.d4.natAbs ≤ 24000 ∧ m.d20.natAbs ≤ 24000 ∧
      bit ((s.alp.ch[(7 : Fin 8)]).win[(1 : Fin 2)]) 31 = true ∧ near m.lo.1 = true ∧ near m.lo.2 = true ∧ near m.hi.1 = true ∧ near m.hi.2 = false) ∧
    (loop 1).pwr.van = true ∧ (loop 1).pwr.good = true := by decide +kernel
theorem test_witness_Modems : bit ((loop 1).alp.ch[(7 : Fin 8)]).cfg 5 = true ∧ ((loop 1).alp.ch[(7 : Fin 8)]).mode ≠ 0 ∧ fanOn (loop 1) = true ∧
    ((loop 1).alp.ch[(7 : Fin 8)]).txOn = false ∧ ((loop 1).alp.ch[(7 : Fin 8)]).rx.length < 16 ∧ ((loop 1).alp.ch[(7 : Fin 8)]).cd ≠ true ∧
    16 ≤ (List.replicate 16 (0 : BitVec 10)).length ∧
    (((loop 1).onAlp fun x => { x with ch := x.ch.upd 7 fun c => { c with rx := [1, 2] } }).alp.ch[(7 : Fin 8)]).rx = 1 :: [2] ∧
    (let s := late ((loop 1).onAlp fun x => { x with ch := x.ch.upd 7 fun c => { c with txOn := true, tx := [1, 2] } })
     (s.alp.ch[(7 : Fin 8)]).tx ≠ [] ∧ (s.alp.ch[(7 : Fin 8)]).tx.length ≤ charsSent s (s.alp.ch[(7 : Fin 8)])) := by decide +kernel

/-- A record of core 1 with scan sequence `n`. -/
def recOf (n : Nat) : List Word :=
  let r : List Word := [BitVec.ofNat 32 (17 + 65536 * n), 0, 0, 0]
  r ++ [crcWords r]

theorem test_witness_BCycle : bRun.pwr.good = true ∧ bRun.pwr.hldBad = false ∧ bRun.hld.loadMode = false ∧ bRun.sys.runState = .run ∧
    bRun.sys.stage = .none ∧ bRun.hld.devFault = false ∧ bRun.hld.releaseSeen = false ∧ (up .dormant).sys.runState = .dormant := by decide +kernel
theorem test_witness_AgreementMonitor : bRun.hld.loadMode = false ∧ bRun.sys.stage ≠ .cross ∧ recOk [] = false ∧ recOk (recOf 7) = true ∧
    bRun.hld.pairs = [] ∧ (bRun.hld.waiting.filter fun r => r.core == (1 : Fin 4)).length < 8 ∧ bRun.sys.stage = .none ∧ bRun.live ∧ bRun.hld.devFault = false ∧ bRun.hld.fatal = false ∧
    (let s := { bRun with
       t := { bRun.t with runA := true, tbA := 200000, cyc := 1100 }
       hld := { bRun.hld with pairs := [(199000, 1099)], hdr := bRun.hld.hdr.set 3 0x00000200, mon := Tab.fill 4 { ref := true, seq := 5, armed := true } } }
     s.hld.pairs ≠ [] ∧ mapTime s.hld ((recOf 7).getD 1 0) ≠ none ∧ fld ((recOf 7).getD 2 0) 31 0 = 0 ∧
      hosts s.hld 1 = true ∧ (s.hld.mon[(1 : Fin 4)]).ref = true ∧ fld ((recOf 7).getD 0 0) 31 16 ≠ ((s.hld.mon[(1 : Fin 4)]).seq.toNat + 1) % 65536 ∧
      (s.hld.mon[(1 : Fin 4)]).armed = true ∧ missLimit s.hld 1 < s.t.cyc - (s.hld.mon[(1 : Fin 4)]).since ∧
      s.hld.exchArmed = true ∧ 200 < s.t.cyc - s.hld.lastExch ∧ s.t.runA = true ∧ s.pwr.good = true ∧ s.hld.skipNext = false ∧
      s.hld.waiting = [] ∧ (s.t.tbA - 199000).toNat = 1000 ∧ (199000 : DWord).toNat / 200000 < s.t.tbA.toNat / 200000 ∧
      (((s.t.cyc - 1099) * 2000 : Nat) : Int) = 2000 ∧ (1000 : Int) < (2000 - 1000 : Int).natAbs * 100) ∧
    (let s := { bRun with
       t := { bRun.t with runA := true, tbA := 200000, cyc := 1100 }, hld := { bRun.hld with pairs := [(198000, 1099)] } }
     (s.t.tbA - 198000).toNat = 2000 ∧ (((s.t.cyc - 1099) * 2000 : Nat) : Int) = 2000 ∧ ((2000 - 2000 : Int)).natAbs * 100 ≤ 2000) := by
  unfold State.live; decide +kernel
theorem test_witness_ChannelBPaths : bRun.pwr.good = true ∧ bRun.live ∧ bRun.hld.loadMode = false ∧
    bRun.hld.fatal = false ∧ crcWords bRun.hld.store.dropLast = bRun.hld.loadCrc ∧
    (let s := { up .lockout with sys := { (up .lockout).sys with reeval := true }, t := { (up .lockout).t with cyc := 200 } }
     s.sys.reeval = true ∧ s.sys.runState = .lockout ∧ s.sys.crossAt + crossMax s.hld ≤ s.t.cyc) ∧
    (let s := { up .castOn with hld := { State.reset.hld with superOn := true }, t := { (up .castOn).t with cyc := 32000 } }
     s.hld.superOn = true ∧ s.pwr.good = true ∧ s.sys.runState = .castOn ∧ s.hld.fatal = false ∧ 32000 ≤ s.t.cyc) ∧
    bRun.sys.runState ≠ .dormant ∧
    (let s := bRun.onHld fun h => { h with
       win := h.win.upd 15 fun w => { w with valid := true }
       lg := (h.lg.upd 127 fun c => { c with valid := true, w1 := 4 }) }
     (s.hld.win[(15 : Fin 16)]).valid = true ∧ fld (s.hld.win[(15 : Fin 16)]).w1 11 0 ≤ (s.hld.win[(15 : Fin 16)]).f.n ∧
      (s.hld.lg[(127 : Fin 128)]).valid = true ∧ fld (s.hld.lg[(127 : Fin 128)]).w4 23 0 ≤ (s.hld.lg[(127 : Fin 128)]).c + 1 ∧
      fld (s.hld.lg[(127 : Fin 128)]).w1 3 0 = 4 ∧ (s.hld.lg[(127 : Fin 128)]).input s.hld 0 = false) := by
  unfold State.live; decide +kernel

/-- Session 255 as given, present on the host link. -/
def sess (f : Sess → Sess) : State := (up .run).onS 255 fun x => f { x with cfg := 0x00068602, cfg2 := 0x00051234, cfg3 := 0x00020801 }

theorem test_witness_SessionCommands : cslAwake (sess id) = true ∧ ((sess id).csl.s[(255 : Fin 256)]).st = .closed ∧
    ((sess id).csl.s[(255 : Fin 256)]).quar = false ∧ ((sess fun x => { x with quar := true }).csl.s[(255 : Fin 256)]).quar = true ∧
    ((sess fun x => { x with st := .fault }).csl.s[(255 : Fin 256)]).st = .fault ∧
    ((sess fun x => { x with st := .run }).csl.s[(255 : Fin 256)]).st = .run ∧ (sess id).live ∧ cslAwake (up .dormant) = false := by unfold State.live; decide +kernel
theorem test_witness_SessionTimes :
    (let s := late (sess fun x => { x with st := .run, accAt := some 0 })
     cslAwake s = true ∧ (s.csl.s[(255 : Fin 256)]).st = .run ∧ (s.csl.s[(255 : Fin 256)]).valid s.t.tbA = false) ∧
    (let s := late (sess fun x => { x with st := .quarantine, quar := true })
     let x := s.csl.s[(255 : Fin 256)]
     x.quar = true ∧ x.st = .quarantine ∧ x.pend = false ∧ quarPassed s x = true) ∧
    (let s := late (sess fun x => { x with st := .fault, quar := true, cfg := 0x00068622 })
     let x := s.csl.s[(255 : Fin 256)]
     x.quar = true ∧ x.st = .fault ∧ bit x.cfg 5 = true ∧ quarPassed s x = true) ∧ bit (((sess id).csl.s[(255 : Fin 256)]).cfg) 5 = false ∧
    (let s := late (sess fun x => { x with st := .opening, times := [0] })
     let x := s.csl.s[(255 : Fin 256)]
     x.st = .opening ∧ x.responder = false ∧ x.transport = 2 ∧ x.times = 0 :: [] ∧ come s 0 = true ∧ max 1000000 (x.te / 2) ≤ since s 0 ∧
      s.csl.hlTx.length < 16) ∧ 16 ≤ (List.replicate 16 ([] : List Byte)).length ∧ cslAwake (up .halt) = false ∧
    (let s := late (up .run)
     s.t.tbA.toNat / 720000000000 = s.csl.hour ∧
      ({ s with t := { s.t with tbA := 720000000000 } } : State).t.tbA.toNat / 720000000000 = s.csl.hour + 1 ∧
      ({ s with t := { s.t with tbA := 1440000000000 } } : State).t.tbA.toNat / 720000000000 ≠ s.csl.hour + 1) := by decide +kernel

/-- Both Ethernet interfaces on. -/
def netUp (s : State) : State := { s with
  pwr := { s.pwr with domains := 0x3FF, pllLock := true }, link := { s.link with act := { s.link.act with ip := Tab.fill 2 0x0A000001 } } }

theorem test_witness_SessionQueues :
    (let s := netUp (sess fun x => { x with cfg := 0x00068600, addr := 0x0A000002, st := .run, tx := 20, eAcc := 10, times := List.replicate 12 0 })
     let x := s.csl.s[(255 : Fin 256)]
     cslAwake s = true ∧ ethOn s 0 = true ∧ ethOn s 1 = true ∧
      (∀ m : Fin 256, ((s.csl.s[m]).present = true ∧ (s.csl.s[m]).transport = 0 ∧ (s.csl.s[m]).iface = 0 ∧ (s.csl.s[m]).addr = x.addr ∧
        (s.csl.s[m]).addr2.extractLsb' 0 16 = x.addr2.extractLsb' 0 16 ∧ (s.csl.s[m]).conn = x.conn) ↔ m = 255) ∧
      x.st = .run ∧ 8 ≤ x.win ∧ ([1, 2, 3, 4, 5, 6] : List Byte).length = x.rxLen ∧ x.eAcc ≤ echoSeq x.tx 15 ∧
      x.times[(x.tx - echoSeq x.tx 15).toNat]? = some 0 ∧ since s 0 ≤ x.te ∧
      teleConn [0, 0x34, 0x12] = some x.conn ∧ wellFormedTele [0, 0x34, 0x12] = false) ∧
    (ctrlServed (up .run) = true ∧ (up .run).csl.hlRx.length < 16 ∧
      16 ≤ ((up .run).onCsl fun x => { x with hlRx := List.replicate 16 [1] }).csl.hlRx.length ∧ (List.replicate 76 (0 : Byte)).length ≤ 76) ∧
    ([0] : List Word).length ≠ (fld (0 : Word) 6 0 + 3) / 4 ∧
    (bRun.live ∧ bRun.pwr.good = true ∧ bRun.pwr.hldBad = false ∧ bRun.hld.loadMode = false ∧ bRun.hld.devFault = false ∧
      bRun.hld.fatal = false ∧ bRun.hld.releaseSeen = false ∧ bRun.sys.stage = .none) ∧
    (let s := (up .run).onCsl fun x => { x with hlTx := [[1], [2]] }
     ctrlServed s = true ∧ s.csl.hlTx = [1] :: [[2]]) ∧ (up .run).csl.hlTx = [] := by unfold State.live; decide +kernel

/-- Port 3 of the carrier, with its transmit enable. -/
def skein (tx : Bool) (f : CscPort → CscPort) : State :=
  { (up .run).onP 3 fun x => f { x with cfg := 0x00030A11, grp := Tab.fill 64 0x83FF0000 } with
    hld := { State.reset.hld with gate := Tab.fill 4 { tx := tx } }, otp := { State.reset.otp with tap := 0 } }

/-- The port's row tick in `ahead` ticks of timebase A: row period 25 ms, a quarter of a period per port. -/
def atRow (ahead : Nat) (s : State) : State :=
  { s with t := { s.t with runA := true, tbA := BitVec.ofNat 64 ((s.csc.p[(3 : Fin 4)]).period * 2000000 * 11 / 4 - ahead) } }

theorem test_witness_CarrierRows :
    (let s := atRow 200000 (skein true fun x => { x with st := .run })
     cslAwake s = true ∧ (s.csc.p[(3 : Fin 4)]).st = .run ∧ rowTick 3 200000 s = true ∧ rowTick 3 0 s = false) ∧
    (let s := atRow 0 (skein true fun x => { x with st := .start, built := some ([1], 2) })
     rowTick 3 0 s = true ∧ txEn s 3 = true ∧ cslAwake s = true ∧ (s.csc.p[(3 : Fin 4)]).st = .start ∧
      (s.csc.p[(3 : Fin 4)]).built = some ([1], 2)) ∧ rowTick 3 0 (atRow 0 (skein false id)) = true ∧
    txEn (skein false id) 3 = false ∧ ((skein true fun x => { x with st := .silent }).csc.p[(3 : Fin 4)]).st = .silent ∧ (skein false id).live := by
  unfold State.live; decide +kernel
/-- The operands of REPORT and PAIR_ACK carry the bytes `f`. -/
def carried (f : List Byte) : Bool :=
  rxBytes (bytesWord (f.take 4)) ((f.drop 4).take (f.length - 6)) (bytesHalf (f.drop (f.length - 2))) == f

theorem test_witness_CarrierAnswers : (4 : Nat) < 16 ∧ (List.replicate 16 (0 : Byte)).length < 256 ∧
    (let s := late (skein true fun x => { x with st := .run, wait := .poll [1023, 5] true false, tab := [(1023, { entry := 1, silent := 2 })] })
     let x := s.csc.p[(3 : Fin 4)]
     s.Inv ∧ Sparse.wf {} x.tab = true ∧ x.wait = .poll (1023 :: [5]) true false ∧ x.job = none ∧ (x.entry 1023).entry ≠ 0 ∧
      symbolsPassed 3 (7 * 1 + 1) s = true ∧ (List.replicate 16 (0 : Byte)).length = 16 ∧ eqBase s 3 = none ∧
      carried (onAir (cscFrame 4 1023 (List.replicate 16 0))) = true ∧ rxFrame (rxBytes 0 [] 1) = none) ∧
    (let s := { skein true id with mem := { State.reset.mem with block := Tab.fill 64 13 } }
     eqBase s 3 = some 0x20010000) ∧
    (let s := late (skein true fun x => { x with st := .run, wait := .query, rounds := 1, sets := [(3, 0)], tab := [(8, { entry := 1 }), (64, { entry := 1 })] })
     let x := s.csc.p[(3 : Fin 4)]
     let e : ToneEnergy := ⟨List.replicate 32 9, List.replicate 32 1⟩
     x.wait = .query ∧ txEn s 3 = true ∧ symbolsPassed 3 1 s = true ∧ x.rounds = 1 ∧
      allFlag x (flaggedHalves x.sets [(flagSeen .lo e, flagSeen .hi e)]) = true) ∧
    ((skein true fun x => { x with wait := .query, rounds := 2 }).csc.p[(3 : Fin 4)]).rounds ≠ 1 ∧
    ((skein true id).csc.p[(3 : Fin 4)]).commonRot ≠ 1 ∧
    ((skein true id).csc.p[(3 : Fin 4)]).wait ≠ .query := by unfold State.Inv; decide +kernel
theorem test_witness_CarrierCommands :
    (let s := late (skein true fun x => { x with st := .run, wait := .pair true, job := some (.pair 1023 7 2) })
     let x := s.csc.p[(3 : Fin 4)]
     x.wait = .pair true ∧ x.job = some (.pair 1023 7 2) ∧ symbolsPassed 3 1 s = true ∧ Sparse.wf {} x.tab = true ∧
      carried (onAir (cscFrame 6 1023 (snBytes 7 ++ wordBytes (crc32c (pairBody s 3 1023 7))))) = true ∧
      carried (onAir (cscFrame 6 1023 (snBytes 7 ++ wordBytes (~~~(crc32c (pairBody s 3 1023 7)))))) = true ∧
      carried (onAir (cscFrame 6 5 (snBytes 7 ++ wordBytes 0))) = true ∧ carried (onAir (cscFrame 6 1023 (snBytes 8 ++ wordBytes 0))) = true) ∧
    ctrlServed (skein true id) = true ∧ cscAbsent (up .run) = true ∧ cscAbsent (skein true id) = false ∧
    ((skein true id).csc.p[(3 : Fin 4)]).st = .off ∧ bit ((skein true id).csc.p[(3 : Fin 4)]).cfg 0 = true ∧
    (bit (skein true id).pwr.domains 3 = false ∧ ((ceLoad (skein true id)).eng.e[(12 : Fin 24)]).on = false ∧ (skein true id).live) ∧
    bit (netUp (skein true id)).pwr.domains 3 = true ∧ permitsAny (skein true id) 3 = false ∧
    permitsAny ((skein true id).onEng fun x => { x with c := x.c.map fun c => { c with sealedPermit := Tab.fill 4 1 } }) 3 = true ∧
    (let s := skein true fun x => { x with st := .run }
     s.sys.runState = .run ∧ (s.csc.p[(3 : Fin 4)]).st = .run ∧ cscBusy s = false ∧ ((s.csc.p[(3 : Fin 4)]).entry 1023).entry = 0 ∧
      groupOf (s.csc.p[(3 : Fin 4)]) 1023 ≠ none ∧ (∀ q : Fin 4, (s.csc.p[q]).pollJob = none)) ∧
    cscBusy (skein true fun x => { x with job := some (.pair 1 0 0) }) = true ∧
    ((skein true fun x => { x with pollJob := some 7 }).csc.p[(3 : Fin 4)]).pollJob ≠ none ∧
    (((skein true fun x => { x with tab := [(1023, { entry := 1 })] }).csc.p[(3 : Fin 4)]).entry 1023).entry ≠ 0 := by
  unfold State.live; decide +kernel

/-- Check-value unit 3 and DMA channel 15 owned by the host. -/
def cvuHost (f : Dma → Dma) : State := (up .run).onCvu fun x => { x with
  u := x.u.upd 3 fun y => { y with cfg := 0x20180007 }, d := x.d.upd 15 fun y => f { y with cfg := 0x18000402 } }

theorem test_witness_CheckUnitWrites : reaches .host (cvuHost id) ∧ srcCode .host = ((cvuHost id).cvu.u[(3 : Fin 4)]).owner ∧ fedBusy (cvuHost id) 3 = false ∧
    srcCode .host ≠ ((up .run).cvu.u[(3 : Fin 4)]).owner ∧ srcCode .host = 0x18 ∧ ((cvuHost id).cvu.u[(3 : Fin 4)]).owner = 0x18 ∧
    ((cvuHost id).cvu.u[(3 : Fin 4)]).dmaFed = false ∧ (cvuHost id).live ∧ srcCode (.engine 5) ≠ 0x18 := by
  unfold reaches State.live; decide +kernel
theorem test_witness_DmaCommands : reaches .host (cvuHost id) ∧ srcCode .host = ((cvuHost id).cvu.d[(15 : Fin 16)]).owner ∧
    (let s := cvuHost fun c => { c with count := 1 }
     (s.cvu.d[(15 : Fin 16)]).busy = false ∧ (s.cvu.d[(15 : Fin 16)]).count ≠ 0 ∧ fedBy s 15 = []) ∧
    (let s := (cvuHost fun c => { c with count := 1 }).onCvu fun x => { x with u := x.u.upd 3 fun y => { y with cfg := 0x201801FF } }
     (3 : Fin 4) ∈ fedBy s 15 ∧ bit (s.cvu.u[(3 : Fin 4)]).cfg 8 = true ∧ s.live) ∧
    (let s := cvuHost fun c => { c with busy := true, burst := 1, held := true }
     (s.cvu.d[(15 : Fin 16)]).busy = true ∧ (s.cvu.d[(15 : Fin 16)]).burst ≠ 0 ∧ (s.cvu.d[(15 : Fin 16)]).held = true) ∧
    ((cvuHost id).cvu.d[(15 : Fin 16)]).count = 0 ∧ srcCode (.engine 5) ≠ ((cvuHost id).cvu.d[(15 : Fin 16)]).owner := by
  unfold reaches State.live; decide +kernel
theorem test_witness_DmaElements :
    (let s := { (up .run).onCvu fun x => { x with d := x.d.upd 15 fun y => { y with
         cfg := 0x05000402, src := 0x20000000, dst := 0x201FFFFC, count := 2, busy := true, burst := 1 } } with
       mem := { State.reset.mem with block := Tab.fill 64 5 } }
     let c := s.cvu.d[(15 : Fin 16)]
     c.busy = true ∧ c.burst ≠ 0 ∧ c.owner = (5 : Fin 24).val ∧ Memory.wf s.mem = true ∧ inShared c.src.toNat c.size = true ∧
      inShared c.dst.toNat c.size = true ∧ mayLoad s.mem 5 c.src.toNat c.size = true ∧ mayStore s.mem 5 c.dst.toNat c.size = true ∧
      c.src.toNat % c.size = 0 ∧ c.dst.toNat % c.size = 0 ∧ eccAt s.mem 14 c.src.toNat = none ∧ eccAt s.mem 14 c.dst.toNat = none ∧
      c.count ≠ 1 ∧ c.count ≠ 0 ∧ (dmaSrcBad s 5 1 c.size).isSome = true ∧ dmaSrcBad s 5 c.src.toNat c.size = none ∧
      (dmaDstBad s 5 15 1 c.size).isSome = true) := by decide +kernel
theorem test_witness_Diagnostics : ctrlServed (up .run) = true ∧
    (let s := (up .run).onDiag fun d => { d with rct := (d.rct.set 0 { valid := true, cls := .group }).set 255 { valid := true, cls := .device } }
     (s.diag.rct[(0 : Fin 256)]).valid = true ∧ (s.diag.rct[(0 : Fin 256)]).cls = .group ∧ (s.diag.rct[(255 : Fin 256)]).cls = .device ∧
      (s.diag.rct[(7 : Fin 256)]).valid = false) ∧ 4 ≤ (4 : BitVec 4).toNat ∧ (up .run).diag.unarchived = 0 ∧
    bit (up .run).sout.hosting 3 = false ∧ codeIntact (up .run) = true ∧
    codeIntact ((up .run).onUpd fun u => { u with secs := [{ type := 1, target := 0, addr := 0, len := 4, hash := [] }] }) = false ∧ (up .run).live ∧
    ctrlServed (up .halt) = false ∧
    (let s := { at0 3 1 with sout := { State.reset.sout with hosting := 8 } }
     bit s.sout.hosting 3 = true ∧ (s.eng.e[(engOf 3)]).on = true ∧ s.live ∧ ctrlServed s = true) ∧ 4 ≤ (16 : Fin 17).val := by
  unfold State.live; decide +kernel
theorem test_witness_TensionAndClocks : tensionRuns (up .run) = true ∧ (up .run).pwr.raised = false ∧ (269 : BitVec 9).toNat < 270 ∧
    max 270 (fld (up .run).pwr.tensionCfg 8 0) = 300 ∧ (315 : BitVec 9).toNat ≤ 300 + 15 ∧ 300 + 15 < (316 : BitVec 9).toNat ∧
    ({ (up .run).pwr with above := 7 } : PwrS).above = 7 ∧ (259 : BitVec 9).toNat < 260 ∧ (up .run).pwr.setpoint = 28 ∧
    ({ (up .run).pwr with setpoint := 27 } : PwrS).setpoint ≠ 28 ∧ (up .run).live ∧ tensionRuns State.reset = false ∧
    (up .run).pwr.good = true ∧ (up .run).sys.clockWait = false ∧ (up .run).pwr.pllLock = true := by unfold State.live; decide +kernel

/-- The fuse controller at 25 °C in SERVICE, addressing word `w` of region `r`. -/
def fuses (r w : Nat) (f : OtpS → OtpS) : State := { up .service with
  pwr := { (up .service).pwr with tempProc := 89 }
  sys := { (up .service).sys with life := .provisioned }
  otp := f { State.reset.otp with addr := at_ r 8 ||| at_ w 0 ||| at_ 2 16, sensed := true, w := [(898, ⟨0x40010000, 0x40010000⟩), (902, ⟨0x40010000, 0x40010000⟩)] } }

theorem test_witness_OtpCommands : reaches .host (up .run) ∧ (up .run).sys.runState ≠ .safeHold ∧ (up .run).sys.runState ≠ .service ∧
    (fuses 8 0 id).sys.runState = .service ∧ tempOk (up .service) = false ∧ tempOk (fuses 8 0 id) = true ∧
    (fuses 8 0 fun o => { o with busy := true }).otp.busy = true ∧ reaches .host (fuses 8 0 id) ∧ (fuses 8 0 id).otp.busy = false ∧
    Sparse.wf {} (fuses 8 0 id).otp.w = true ∧ lockCheck (fuses 8 0 id) = none ∧ programCheck .host (fuses 8 0 id) = none ∧
    programCheck .host (fuses 7 0 id) ≠ none ∧ coreStep (.engine 14) = true ∧ coreStep .host = false ∧ reaches (.engine 14) (fuses 8 0 id) := by unfold reaches; decide +kernel
theorem test_witness_OtpLocks : reaches .host (fuses 15 0 id) ∧ tempOk (fuses 15 0 id) = true ∧ (fuses 15 0 id).otp.busy = false ∧
    Sparse.wf {} (fuses 15 0 id).otp.w = true ∧ (fuses 15 0 id).sys.runState = .service ∧ lockCheck (fuses 15 0 id) = none ∧
    (fuses 15 0 fun o => { o with armed := some 15 }).otp.armed = some (fuses 15 0 id).otp.region ∧
    (fuses 15 0 id).otp.armed ≠ some (fuses 15 0 id).otp.region ∧ lockRights (fuses 15 0 id) 15 = true ∧ bit (fuses 15 0 id).otp.sticky 15 = false ∧
    (fuses 15 0 id).sys.life ≠ .retired ∧ (fuses 15 0 id).otp.wlocked 15 = false ∧
    tapAllowed (fuses 15 0 id) (fld (fuses 15 0 id).otp.addr 21 16) = true ∧
    tapAllowed (fuses 15 0 fun o => { o with addr := at_ 63 16 }) 63 = false := by unfold reaches; decide +kernel
/-- Region 15 with a check word that is `d` past the right one. -/
def checked (d : Word) : State :=
  fuses 15 0 fun o => { o with w := o.w ++ [(2047, ⟨(fuses 15 0 id).otp.checkWord 15 + d, 0⟩)] }

set_option maxRecDepth 100000 in
theorem checked_word (d : Word) : (checked d).otp.checkWord 15 = (fuses 15 0 id).otp.checkWord 15 := rfl
set_option maxRecDepth 100000 in
theorem checked_val (d : Word) : (checked d).otp.val 15 127 = (fuses 15 0 id).otp.checkWord 15 + d := rfl
theorem test_witness_OtpLocks_check : lockCheck (checked 0) = none ∧ (checked 0).otp.checkWord 15 = (checked 0).otp.val 15 127 ∧
    lockCheck (checked 1) = none ∧ (checked 1).otp.checkWord 15 ≠ (checked 1).otp.val 15 127 := by
  refine ⟨rfl, ?_, rfl, ?_⟩
  · rw [checked_word, checked_val]; simp
  · rw [checked_word, checked_val]; simp
theorem test_witness_OtpServices : (fuses 0 0 fun o => { o with busy := true }).otp.busy = true ∧
    (let s := fuses 0 0 fun o => { o with w := [(2047, ⟨1, 0⟩)], weak := [65504] }
     s.otp.busy = false ∧ tempOk s = true ∧ s.live ∧ Sparse.wf {} s.otp.w = true ∧ 65504 < 65536 ∧ s.otp.weak = 65504 :: []) ∧
    alarmCause (applyDrift [] (fuses 1 0 fun o => { o with w := [(128, ⟨0, 1⟩)] }).otp) 1 = true ∧
    (fuses 0 0 id).otp.weak = [] ∧ (fuses 0 0 id).otp.tapTodo = [] ∧ (fuses 0 0 id).otp.copies = [] ∧ (fuses 0 0 id).otp.lockDebug = false := by
  unfold State.live; decide +kernel

/-! ## Hypotheses that can be met: run states, power and update -/

/-- COMMISSIONED with a commissioned image, in run state `r`. -/
def ready (r : RunState) : State := { up r with
  sys := { (up r).sys with life := .commissioned, sealMatch := true }
  upd := { State.reset.upd with commissioned := some 0, running := some 0 }
  sout := { State.reset.sout with hosting := 15 }
  hld := { State.reset.hld with loadCrc := crcWords [], hdr := State.reset.hld.hdr.set 3 8 } }

theorem test_witness_ControlRefusals : ctrlServed (up .halt) = false ∧ ctrlServed (up .run) = true ∧ (0 : Half) ≠ 0x6A5C ∧ (8 : Byte) ≤ 0xFF ∧
    (up .run).sys.runState ≠ .safeHold ∧ (up .run).sys.devPending = false ∧ (up .safeHold).sys.runState ≠ .run ∧
    ({ up .lockout with sys := { (up .lockout).sys with devPending := true } } : State).sys.devPending = true ∧
    (up .run).sys.runState ≠ .service ∧ (up .run).sys.runState ≠ .lockout ∧ (up .safeHold).sys.runState = .safeHold ∧
    ({ (up .safeHold).sys with recovery := true } : SysS).recovery = true ∧ ¬ (up .safeHold).mayStart ∧
    sleepBar ((up .safeHold).onUpd fun u => { u with armed := true }) = some 6 := by unfold State.mayStart; decide +kernel
theorem test_witness_ControlCommands : ctrlServed (ready .safeHold) = true ∧ (ready .safeHold).mayStart ∧
    (let s := ((ready .safeHold).onCsc fun c => { c with p := c.p.upd 2 fun x => { x with cfg := 3 } }).onOtp fun o => { o with tap := 0 }
     s.mayStart ∧ s.sys.ranOnce = false ∧ cscAbsent s = false ∧ (s.csc.p[(2 : Fin 4)]).st = .off ∧ bit (s.csc.p[(2 : Fin 4)]).cfg 0 = true ∧
       bit (s.csc.p[(2 : Fin 4)]).cfg 1 = true ∧ bit s.pwr.domains 3 = false ∧ ((ceLoad s).eng.e[(12 : Fin 24)]).on = false) ∧
    bit ((ready .safeHold).onPwr fun w => { w with domains := w.domains ||| 8 }).pwr.domains 3 = true ∧ (ready .safeHold).sys.runState = .safeHold ∧
    (ready .run).sys.runState = .run ∧ (ready .run).sys.devPending = false ∧ (ready .run).sys.holding = false ∧ (ready .run).sout.hosting ≠ 0 ∧
    ({ (ready .run).sys with holding := true } : SysS).holding = true ∧ (ready .safeHold).sys.life ≠ .serviceLocked ∧ (ready .safeHold).sys.life ≠ .retired ∧
    (ready .safeHold).sys.recovery = false ∧ sleepBar (ready .safeHold) = none ∧
    ({ (ready .run).upd with commit := some {} } : UpdS).commit ≠ none ∧ ({ (ready .run).sys with ranOnce := true } : SysS).ranOnce = true := by
  unfold State.mayStart; decide +kernel
theorem test_witness_Reevaluation : ctrlServed (ready .service) = true ∧ (ready .service).sys.reeval = false ∧ (ready .service).sys.runState = .service ∧
    codeIntact (ready .service) = true ∧ crcWords (ready .service).hld.store.dropLast = (ready .service).hld.loadCrc ∧
    swatchFails ({} : ReevalEnv).swatch = [] ∧ ({} : ReevalEnv).storeOk = true ∧ swatchFails ({ swatch := [(0, 1, 2)] } : ReevalEnv).swatch ≠ [] ∧ (ready .service).hld.fatal = false ∧
    codeIntact ((ready .service).onUpd fun u => { u with secs := [{ type := 1, target := 0, addr := 0, len := 4, hash := [] }] }) = false ∧
    bit ((ready .lockout).upd.hdr.getN 3 0) 1 = false ∧ ctrlServed (ready .lockout) = true ∧
    (let s := (ready .lockout).onUpd fun u => { u with hdr := u.hdr.set 3 2 }
     bit (s.upd.hdr.getN 3 0) 1 = true ∧ bit (s.hld.hdr.getN 3 0) 3 = true ∧ s.sys.devPending = false ∧ codeIntact s = true) := by decide +kernel

/-- A cast-on that stops in TAP. -/
def stuckTap : CastEnv :=
  { wipeOk := true, swatch := [], vectorOk := (true, true), storeOk := (true, true), jitter := 1, temp := 25, pulse := {}, drift := [], stuck := some 1 }

theorem test_witness_Resets : (up .run).pwr.good = true ∧ (up .run).pwr.resetN = false ∧ ({ (up .run).pwr with resetN := true } : PwrS).resetN = true ∧
    ({ (up .run).sys with clockWait := true } : SysS).clockWait = true ∧ stuckTap.stuck = some 1 ∧ ({ stuckTap with stuck := none } : CastEnv).stuck = none ∧
    tapResolves { State.reset.otp with tapN := Tab.fill 3 1, tapT := Tab.fill 3 0 } = false ∧ State.reset.pwr.good = false ∧
    ctrlServed (up .run) = true ∧ (up .run).upd.commit = none := by decide +kernel

/-- Both field supplies present. -/
def field (v1 v2 : Bool) : State := { up .run with
  pwr := { (up .run).pwr with vf1 := v1, vf2 := v2, domains := 0x0B7 }, sout := { State.reset.sout with bankCond := Tab.fill 2 false } }

theorem test_witness_SuppliesAndClocks : (up .run).pwr.vlogicHigh = false ∧ (field true true).sys.runState ≠ .dormant ∧
    ({ field true true with sys := { (field true true).sys with runState := .dormant } } : State).sys.runState = .dormant ∧ (up .run).pwr.vlogicHigh ≠ true ∧ (field true true).pwr.good = true ∧
    (field true true).sys.clockWait = false ∧ (field true true).pwr.resetN = false ∧ (field true true).pwr.vf1 = true ∧ (field true true).pwr.vf2 = true ∧
    (field true true).sout.bankCond[(1 : Fin 2)] = false ∧ (field true false).pwr.vf2 = false ∧ bit (field true false).pwr.domains 7 = true ∧
    (let s := { field true true with pwr := { (field true true).pwr with domains := 0x037 } }
     pastLoad s = true ∧ bit s.pwr.domains 7 = false) ∧ (up .run).sin.checking = false ∧
    ({ (up .run).sin with checking := true } : SinS).checking = true ∧ (up .run).live ∧ (up .run).pwr.pllLock = true ∧
    ({ (up .run).pwr with pllLock := false } : PwrS).pllLock = false := by unfold State.live; decide +kernel

/-- A wake that finds everything right. -/
def goodWake : WakeEnv := { periods := 32768, clocksOk := true, storeOk := true }
/-- DORMANT, its bank checks kept and every wake enabled. -/
def asleep : State := { ready .dormant with pwr := { (ready .dormant).pwr with bankSums := bankSums (ready .dormant).mem, wakeCfg := 0xF, wakeTimer := 1 } }

theorem test_asleep_wakes : wakeOk goodWake { asleep with mem := upsetMem goodWake.upset asleep.mem } = true := by
  have h : (bankSums ({ asleep with mem := upsetMem goodWake.upset asleep.mem } : State).mem ==
      ({ asleep with mem := upsetMem goodWake.upset asleep.mem } : State).pwr.bankSums) = true := by
    show (bankSums (ready .dormant).mem == bankSums (ready .dormant).mem) = true
    exact beq_self_eq_true _
  unfold wakeOk
  rw [h]
  decide +kernel
theorem test_asleep_fails (s : State) : wakeOk { goodWake with clocksOk := false } s = false := rfl

theorem test_witness_Dormancy :
    (let s := { ready .safeHold with sys := { (ready .safeHold).sys with sleeping := true, sleepDone := 15 } }
     s.sys.sleeping = true ∧ scansEnded s = true ∧ s.sys.runState = .safeHold ∧ sleepBar s = none ∧ activeSource s = none ∧ closeFails false s = false ∧ s.pwr.good = true ∧ s.pwr.resetN = false ∧
      activeSource { s with pwr := { s.pwr with wakeOn := s.pwr.wakeOn.upd 1 fun _ => some goodWake } } = some (1, goodWake) ∧
      sleepBar (s.onUpd fun u => { u with owner := 1 }) = some 5) ∧ (ready .safeHold).sys.sleeping = false ∧
    asleep.sys.runState = .dormant ∧ asleep.sys.sleeping = false ∧ asleep.pwr.good = true ∧ asleep.pwr.resetN = false ∧ goodWake.ends = false ∧
    bit asleep.pwr.wakeCfg 0 = true ∧ asleep.pwr.wakeTimer ≠ 0 ∧
    asleep.pwr.wakeTimer.toNat ≤ goodWake.periods ∧ (0 : Nat) < asleep.pwr.wakeTimer.toNat ∧
    bit asleep.pwr.wakeCfg 2 = true ∧ (ready .run).sys.runState ≠ .dormant := by decide +kernel
theorem test_witness_Commissioning :
    (let s := (ready .safeHold).onUpd fun u => { u with commissioned := none }
     ctrlServed s = true ∧ armBar s = none ∧ s.upd.owner = 0 ∧ s.upd.armed = false ∧ s.upd.running ≠ none ∧ (0x005 : BitVec 12) ≠ s.pwr.sealRead) ∧
    armBar (ready .run) = some 2 ∧ (0 : Half) ≠ 0x9E3D ∧
    (let s := late ((ready .safeHold).onUpd fun u => { u with armed := true })
     s.upd.armed = true ∧ s.sys.sealMatch = true ∧ s.upd.commit = none ∧ trialOver s = false ∧ past s s.upd.armedAt 120000000 = false ∧
      past { s with t := { s.t with tbA := 24000000000 } } s.upd.armedAt 120000000 = true ∧
      trialOver (s.onUpd fun u => { u with trial := true, trialTime := some (0, 1) }) = true) ∧
    (ready .dormant).sys.runState = .dormant ∧ bit (ready .dormant).pwr.wakeCfg 1 = false ∧ bit asleep.pwr.wakeCfg 1 = true ∧
    asleep.pwr.good = true ∧ asleep.pwr.resetN = false ∧
    (let s := { ready .run with pwr := { (ready .run).pwr with sealRead := 5, sealSame := 4 } }
     s.pwr.good = true ∧ s.sys.clockWait = false ∧ s.pwr.resetN = false ∧ s.sys.runState ≠ .dormant ∧ (5 : BitVec 12) = s.pwr.sealRead ∧
      4 ≤ s.pwr.sealSame ∧ s.upd.running ≠ none ∧ s.sout.hosting ≠ 0 ∧ ((5 : BitVec 12) == s.upd.code.truncate 12) = false ∧ s.sys.sealMatch = true ∧
      s.sys.runState = .run ∧ s.sys.holding = false) := by decide +kernel
/-- A commit of step 0 in phase `n`, its fuse programmed to `b`. -/
def committing (n : Nat) (first : Bool) (b : Word) : State := { ready .safeHold with
  upd := { (ready .safeHold).upd with commit := some { idx := 0, first := first, phase := n } }
  otp := { State.reset.otp with w := if b = 0 then [] else [(640, ⟨b, b⟩)] } }

theorem test_witness_CommitSteps : Sparse.wf {} (committing 2 true 1).otp.w = true ∧ (ready .run).upd.commit = none ∧ (ready .run).upd.confirming = false ∧
    (committing 0 true 0).upd.commit = some { idx := 0, first := true, phase := 0 } ∧ (committing 0 true 0).otp.commCount = 0 ∧
    (committing 1 false 1).upd.commit = some { idx := 0, first := false, phase := 1 } ∧
    bit ((committing 2 true 1).otp.fuse (otpAddr 5 0)).n 0 = true ∧ (committing 2 true 1).sys.resetWait = false ∧ (committing 2 true 1).upd.trial = false ∧
    bit ((committing 2 true 0).otp.fuse (otpAddr 5 0)).n 0 = false ∧ (ready .safeHold).sys.commitPending = false ∧
    bit ((committing 2 true 1).otp.fuse (otpAddr 5 0)).weakBits 0 = false ∧
    (let s := (ready .safeHold).onUpd fun u => { u with owner := 1, arg := 5, retireAt := some 0 }
     ctrlServed s = true ∧ holdsLease s .host = true ∧ s.sys.runState = .safeHold ∧ s.upd.arg = 5 ∧ s.upd.retireAt = some 0 ∧ since s 0 ≤ 2000000000) ∧
    (let s := (ready .run).onUpd fun u => { u with owner := 1, arg := 4 }
     s.sys.runState ≠ .safeHold ∧ s.sys.runState ≠ .service ∧ holdsLease s .host = true) ∧
    (let s := (ready .service).onUpd fun u => { u with owner := 1, arg := 0 }
     s.sys.runState = .service ∧ s.upd.arg ≠ 5 ∧ lifeStep s s.upd.arg.toNat = none ∧ s.upd.retireAt = none) := by
  decide +kernel
/-- The journal holds an open commit intent of step 0. -/
def retrying : State := { committing 2 true 1 with
  sys := { (ready .safeHold).sys with commitPending := true }
  upd := writeMarker 0x10 0 0 [0, 0, 0, 0] (ready .safeHold).upd }

theorem test_witness_CommitSteps_retry : retrying.sys.commitPending = true ∧ retrying.sys.runState = .safeHold ∧
    (openCommit (journal retrying.upd)).map Marker.step = some (0, false) := by decide +kernel

/-- Regions 1, 2 and 6 locked with their check words. -/
def provisioned : State := { ready .service with
  sys := { (ready .service).sys with life := .provisioned }
  upd := { (ready .service).upd with owner := 1, arg := 2 }
  otp := { State.reset.otp with w := [(255, ⟨({} : OtpS).checkWord 1, 0⟩), (383, ⟨({} : OtpS).checkWord 2, 0⟩), (384, ⟨1, 1⟩),
    (895, ⟨({} : OtpS).checkWord 6, 0⟩), (896, ⟨0x46, 0x46⟩), (900, ⟨0x46, 0x46⟩)] } }

theorem provisioned_word (r : Nat) (h : r = 1 ∨ r = 2 ∨ r = 6) : provisioned.otp.checkWord r = provisioned.otp.val r 127 := by
  rcases h with rfl | rfl | rfl <;> rfl
theorem test_witness_CommitSteps_first : ctrlServed provisioned = true ∧ holdsLease provisioned .host = true ∧ provisioned.upd.arg = 2 ∧
    provisioned.sys.life = .provisioned ∧ provisioned.otp.count 3 0 1 = 1 ∧
    (∀ r ∈ [1, 2, 6], provisioned.otp.wlocked r = true ∧ provisioned.otp.broken r = false) := by
  refine ⟨rfl, rfl, rfl, rfl, by decide +kernel, ?_⟩
  intro r hr
  have h : r = 1 ∨ r = 2 ∨ r = 6 := by simpa using hr
  refine ⟨by rcases h with rfl | rfl | rfl <;> decide +kernel, ?_⟩
  simp [OtpS.broken, provisioned_word r h]
theorem test_witness_UpdateLease : ctrlServed (ready .run) = true ∧ (0 : Half) ≠ 0x3C91 ∧ leaseCode (.engine 5) = 0 ∧ leaseCode .host ≠ 0 ∧
    ((ready .run).onUpd fun u => { u with owner := 2 }).upd.owner ≠ 0 ∧ (ready .run).upd.owner = 0 ∧ (ready .run).upd.armed = false ∧
    confirmBusy (ready .run) = false ∧ holdsLease (ready .run) .host = false ∧
    past (late (ready .run)) (ready .run).upd.leaseAt 30000000 = false ∧
    past { ready .run with t := { (ready .run).t with tbA := 6000000000 } } (ready .run).upd.leaseAt 30000000 = true ∧
    holdsLease ((ready .run).onUpd fun u => { u with owner := 1 }) .host = true ∧
    ((ready .run).onUpd fun u => { u with phase := .verified }).upd.phase ≠ .idle := by decide +kernel

/-- The host holds the lease, in phase `p` of an update of slot B. -/
def updating (p : UpdPhase) : State := (ready .safeHold).onUpd fun u => { u with owner := 1, phase := p, target := 1, arg := 8, offset := 4 }

theorem test_witness_UpdateCommands : ctrlServed (updating .receiving) = true ∧ (0 : Half) ≠ 0x9E3D ∧ holdsLease (ready .safeHold) .host = false ∧
    holdsLease (updating .receiving) .host = true ∧ (updating .idle).upd.phase ≠ .erasing ∧ (updating .idle).upd.phase ≠ .verifying ∧
    (1 : BitVec 2).toNat < 2 ∧ (updating .idle).upd.running ≠ some 1 ∧ (updating .idle).upd.trial = false ∧ (updating .idle).upd.arg.toNat ≤ 0x600000 ∧
    (updating .receiving).upd.phase = .receiving ∧ 8 < (updating .receiving).upd.offset.toNat + 4 * ((List.replicate 2 (0 : Word)).take 64).length ∧
    (updating .receiving).upd.offset.toNat + 4 * ((List.replicate 1 (0 : Word)).take 64).length ≤ (updating .receiving).upd.arg.toNat ∧
    (updating .receiving).upd.offset ≠ (updating .receiving).upd.arg ∧
    ((updating .receiving).onUpd fun u => { u with offset := 8 }).upd.offset = ((updating .receiving).onUpd fun u => { u with offset := 8 }).upd.arg ∧
    (updating .idle).upd.phase ≠ .receiving ∧ (updating .verified).upd.phase = .verified ∧ (updating .verified).upd.target.toNat < 2 ∧
    (updating .verified).sys.runState = .safeHold ∧ (updating .erasing).upd.phase = .erasing ∧ (updating .verifying).upd.phase = .verifying := by decide +kernel
theorem test_witness_UpdateCommands_image :
    (let f := flashWrite (areaOf 1).1 ([0x7E9640A1, 0x00400101, 368].flatMap wordBytes) []
     (readImage ((updating .verified).onUpd fun u => { u with flash := f }).upd.flash 1).isSome = true) := by decide +kernel
theorem test_witness_TrialsAndSettings : ctrlServed (ready .run) = true ∧ (ready .run).upd.owner = 0 ∧ confirmBusy (ready .run) = false ∧
    confirmBusy ((ready .run).onUpd fun u => { u with commit := some {} }) = true ∧
    (let s := (ready .run).onUpd fun u => { u with trial := true, trialTime := some (0, 60) }
     s.sys.runState = .run ∧ s.upd.trial = true ∧ s.upd.rule = false ∧ s.upd.owner = 0 ∧ s.sout.hosting ≠ 0 ∧ confirmBusy s = false ∧
      trialOver s = false ∧ trialOver { s with t := { s.t with tbA := 12000000000 } } = true ∧
      (match openConfirm (journal (startConfirm s).upd) with
       | some m => m.slot != 2 && (List.finRange 3).all fun i => decide (min 256 (bytesHalf ((m.payload.drop (2 * i.val)).take 2)).toNat ≤ s.otp.arb i.val)
       | none => false) = true) ∧
    (ready .lockout).sys.runState = .lockout ∧ (ready .run).link.setBusy = false ∧
    ({ (ready .run).link with setBusy := true } : LinkS).setBusy = true ∧ (ready .run).upd.trial = false ∧ (0 : Half) ≠ 0x5E77 := by decide +kernel

/-- A request of `n` registers at `a` with its check code right. -/
def reqOf (cmd : Byte) (a : BitVec 24) (n : Byte) (p : List Byte) : Frame :=
  let f : Frame := ⟨7, a, n, 0, p, 0⟩
  { f with crc := reqCrc (up .run) 0 cmd f }

theorem test_witness_LinkChecks : linkSilent State.reset = true ∧ linkSilent (up .run) = false ∧ knownCmd 0xA3 = false ∧
    crcGood (up .run) 0 0xA1 ⟨7, 0, 1, 0, [], 0⟩ = false ∧ crcGood (up .run) 0 0xA1 (reqOf 0xA1 0 1 []) = true ∧
    ((up .run).link.retry[(0 : Fin 3)]).valid = false ∧ formatGood 0 0xA1 (reqOf 0xA1 2 1 []) = false ∧ formatGood 0 0xA1 (reqOf 0xA1 0 64 []) = true ∧
    stateGood (up .halt) 0xA2 (reqOf 0xA2 0 1 [0, 0, 0, 0]) = false ∧ crcGood (up .halt) 0 0xA2 (reqOf 0xA2 0 1 [0, 0, 0, 0]) = true ∧
    formatGood 0 0xA2 (reqOf 0xA2 0 1 [0, 0, 0, 0]) = true ∧ stateGood (up .run) 0xA1 (reqOf 0xA1 0x0D0000 1 []) = true ∧
    addrGood 0 0xA1 (reqOf 0xA1 0x0D0000 1 []) = false ∧
    (let s := (up .run).onLink fun l => { l with retry := Tab.fill 3 ⟨true, 7, (reqOf 0xA1 0 1 []).crc, [1]⟩ }
     (s.link.retry[(0 : Fin 3)]).valid = true ∧ (s.link.retry[(0 : Fin 3)]).seq = (reqOf 0xA1 0 1 []).seq ∧
      (s.link.retry[(0 : Fin 3)]).crc = (reqOf 0xA1 0 1 []).crc) := by decide +kernel
theorem test_witness_LinkRequests :
    (∀ q ∈ [((0xA4 : Byte), reqOf 0xA4 0 4 []), (0xA1, reqOf 0xA1 0x10 1 []), (0xA2, reqOf 0xA2 0x0B0020 1 [3, 0, 0, 0]),
        (0xA8, reqOf 0xA8 0 1 [1, 0, 0, 0])],
      crcGood (up .run) 0 q.1 q.2 = true ∧ formatGood 0 q.1 q.2 = true ∧ stateGood (up .run) q.1 q.2 = true ∧ addrGood 0 q.1 q.2 = true) ∧
    linkSilent (up .run) = false ∧ ((up .run).link.retry[(0 : Fin 3)]).valid = false ∧ (bytesWord [1, 0, 0, 0]).toNat % 4 = 1 ∧
    linkSilent (writeReg .host 0x0B0020 (bytesWord [3, 0, 0, 0]) (up .run)) = false ∧
    (up .run).upd.owner = 0 ∧ (up .run).upd.armed = false ∧ confirmBusy (up .run) = false := by decide +kernel
theorem test_witness_RegisterWrites : ctrlServed (up .run) = true ∧ ctrlServed State.reset = false ∧ (up .run).upd.owner = 0 ∧
    ((up .run).onUpd fun u => { u with owner := 2 }).upd.owner ≠ 1 ∧ (0x0D0000 : BitVec 24) ≤ 0x0D0000 ∧ (0x0CFFFE : BitVec 24).toNat % 4 ≠ 0 ∧
    serviceMay (0x090030 : BitVec 24).toNat = false := by decide +kernel

/-- The network domain on, with addresses, bit rates and one integrator port. -/
def net : State := { up .run with
  pwr := { (up .run).pwr with domains := 0x077, pllLock := true }
  link := { State.reset.link with act := { State.reset.link.act with ip := Tab.fill 2 5, can := Tab.fill 2 0x00500001 }
                                  udpPort := Tab.fill 2 (some 7), accept := Tab.fill 2 [9] } }

theorem test_witness_Network : ethOn State.reset 0 = false ∧ ethOn net 1 = true ∧ (7 : Half) ≠ net.csl.udpPort ∧ svcPort net ≠ some 7 ∧
    net.link.udpPort[(1 : Fin 2)] = some 7 ∧ (net.link.ethRx[(1 : Fin 2)]).length < 8 ∧ (List.replicate 240 (0 : Byte)).length ≤ 240 ∧ 240 < (List.replicate 241 (0 : Byte)).length ∧
    ({ own := 0xC5C5, frag := true } : Datagram).frag = true ∧ net.csl.udpPort = 0xC5C5 ∧ cslAwake net = true ∧
    (∀ m : Fin 256, ¬ ((net.csl.s[m]).present = true ∧ (net.csl.s[m]).transport = 0)) ∧ canOn State.reset 1 = false ∧ canOn net 1 = true ∧
    net.link.canErr[(1 : Fin 2)] ≠ .busOff ∧ canSession net 1 { id := 9 } = false ∧ canService net 1 { id := 9 } = false ∧
    (net.link.accept[(1 : Fin 2)]).contains (idWord false 9) = true ∧ (net.link.accept[(1 : Fin 2)]).contains (idWord false 8) = false ∧
    netOn State.reset = false ∧ netOn net = true ∧ net.link.ethUp[(1 : Fin 2)] ≠ true ∧ net.link.canErr[(1 : Fin 2)] ≠ .passive ∧
    ((net.onLink fun l => { l with canErr := Tab.fill 2 .busOff }).link.canErr[(1 : Fin 2)]) = .busOff ∧
    (net.link.txBusy[(Fin.ofNat 4 1)]) = false ∧ reservedId net (idWord false 0) = false ∧
    ((net.onLink fun l => { l with txBusy := Tab.fill 4 true }).link.txBusy[(Fin.ofNat 4 3)]) = true ∧ net.link.act.ip[(1 : Fin 2)] = 5 := by decide +kernel

/-! ## The machine -/

theorem test_witness_StepRunsFront : ({ up .run with pending := [.sleep 0x6A5C, .cslHourRoll] } : State).pending = .sleep 0x6A5C :: [.cslHourRoll] ∧
    (up .run).pending = [] ∧ (up .run).pwr.good = true ∧ (up .run).t.runA = true := by decide +kernel
theorem test_witness_MemoryKept : scData.Inv ∧ step { scData with pending := [.stw (on 0) 1 1 4] } = exec (.stw (on 0) 1 1 4) { scData with pending := [] } :=
  ⟨by unfold State.Inv; decide +kernel, rfl⟩

/-! ## Further clauses that can be met -/

theorem test_witness_MemoryResults_ecc : clear 0 (encImm 0x16 2 1 0) 1 1 [2, 1] [] scBad ∧ clear 0 (encImm 0x17 2 1 0) 1 1 [2, 1] [] scBad ∧
    readCheck (on 0) scBad 0x10000000 = some true ∧ mayStore scBad.mem 0 0x10000000 2 = true ∧ mayStore scBad.mem 0 0x10000000 1 = true ∧
    scBad.Inv := by unfold State.Inv; decide +kernel
theorem test_witness_CheckValueResults_fed :
    (let s := sc.onCvu fun z => { z with u := z.u.upd 0 fun x => { x with cfg := 0x2000000F } }
     bit (s.cvu.u[(0 : Fin 4)]).cfg 3 = true ∧ fld (s.cvu.u[(0 : Fin 4)]).cfg 20 16 = (0 : Fin 24).val ∧
      clear 0 (encX 0x25 0 1 1 0) 2 2 [1] [] s ∧ clear 0 (encX 0x25 3 0 2 0) 1 1 [] [] s) := by decide +kernel
theorem test_witness_PortResults_classes :
    (let s := (at0 5 3).onE 5 fun x => { x with slots := 8 }
     inSlot s 5 = true ∧ inSlot se 5 = false ∧ clear 5 (encImm 0x21 1 0 0x8000) 1 1 [] [] s ∧ clear 5 (encImm 0x21 1 0 0xA000) 1 4 [] [] s) ∧
    clear 5 (encImm 0x21 1 0 0xA00F) 1 4 [] [] se ∧ clear 5 (encImm 0x21 1 0 0xA010) 1 4 [] [] se ∧ clear 5 (encImm 0x21 1 0 0x7000) 1 1 [] [] se ∧
    ownsSession (fetchReport (on 5) (code 5 (encImm 0x21 1 0 0x7000) se)) 5 0 = false ∧ liveWord (fetchReport (on 5) se) 8 4095 = none ∧
    clear 5 (encImm 0x22 0 1 0x8000) 1 1 [1] [] se ∧ clear 5 (encImm 0x22 0 1 0xA000) 1 4 [1] [] se := by decide +kernel
theorem test_witness_SafetyPorts_off : (sc.otp.tap ≠ 0 ∧ cscAbsent (fetchReport (on 0) sc) = true ∧
      clear 0 (encX 0x23 0 1 2 ((3 : BitVec 4) ++ (0 : BitVec 7) ++ BitVec.ofBool true)) 1 1 [1] [] sc) ∧
    bit (ownedPort scOwner.sout.ports scOwner.sout.portOwners 0) 2 = false ∧
    clear 0 (encX 0x23 0 1 2 ((2 : BitVec 4) ++ (0 : BitVec 7) ++ BitVec.ofBool false)) 1 1 [1] [] scOwner ∧ heldOff scOwner = false ∧
    (let s := scOwner.onSys fun x => { x with runState := .halt }
     heldOff s = true ∧ clear 0 (encX 0x23 0 0 3 0) 4 4 [] [] s ∧ s.eng.c[(0 : Fin 4)].purlSig = ~~~(s.eng.c[(0 : Fin 4)]).sig) := by decide +kernel
theorem test_witness_TimerCommands_pair :
    (let s := (up .run).onTmr fun z => { z with ch := (z.ch.upd 30 fun x => { x with cfg := 0x1805 }).upd 31 fun x => { x with cfg := 0x1801 } }
     linked s.tmr 30 = true ∧ linked s.tmr 31 = true ∧ tmrOwner s.tmr 30 = 0x18 ∧ tmrOwner s.tmr 31 = 0x18 ∧ ctrlServed s = true) ∧
    (up .run).tmr.grp[(0 : Fin 16)].owner ≠ 0x18 := by decide +kernel
theorem test_witness_TimerEvents_edges :
    (let s := late ((up .run).onTmr fun z => { z with ch := z.ch.upd 31 fun x => { x with cfg := 0x02010003, run := true } })
     (s.tmr.ch[(31 : Fin 32)]).mode ≠ 0 ∧ linked s.tmr 31 = false ∧ cntFalling s.tmr.ch[(31 : Fin 32)] true = true ∧
      (s.tmr.ch[(31 : Fin 32)]).sync = []) ∧
    (let s := late ((up .run).onTmr fun z => { z with ch := z.ch.upd 29 fun x => { x with cfg := 2, run := true, armed := true, modv := 7, cmp := 6 } })
     ((s.tmr.ch[(29 : Fin 32)]).cmpIn s.t.tbA).2 = true ∧ countAt s.tmr s.t.tbA 29 = ((s.tmr.ch[(29 : Fin 32)]).cmpIn s.t.tbA).1.toNat) ∧
    (let s := late ((up .run).onTmr fun z => { z with ch := z.ch.upd 30 fun x => { x with cfg := 2, run := true, armed := true, modv := 400000, cmp := 190000 } })
     ((s.tmr.ch[(30 : Fin 32)]).cmpIn s.t.tbA).2 = true) := by decide +kernel
theorem test_witness_OutputPulses_field : fdigUp (field true true) = true ∧ fdigUp (up .run) = false ∧
    (let s := late (outOn.onO 15 fun o => { o with watch := true, rb := true, rbAt := 999000000, watchAt := 999999999, isol := some ⟨2, none, 0⟩ })
     (s.sout.o[(15 : Fin 16)]).rb = true ∧ ((s.sout.o[(15 : Fin 16)]).watchAt - (s.sout.o[(15 : Fin 16)]).rbAt).toNat < 2 ^ 63 ∧
      (s.sout.o[(15 : Fin 16)]).isol = some ⟨2, none, 0⟩ ∧ past s 0 1000 = true ∧ (0 : Nat) < 2) ∧
    2 ^ 63 ≤ ((0 : DWord) - 1).toNat := by decide +kernel
theorem test_witness_InputSampling_filter :
    (let s := late ((inUp 2).onI 31 fun i => { i with present := true })
     (s.sin.i[(31 : Fin 32)]).mode ≠ 0 ∧ (s.sin.i[(31 : Fin 32)]).running = true ∧ inMask s.sin 31 = false ∧ (s.sin.i[(31 : Fin 32)]).masked = false ∧
      past s (s.sin.i[(31 : Fin 32)]).countFrom (10 * fld (s.sin.i[(31 : Fin 32)]).cfg 27 16) = true ∧ countsFirst s 31 = none) ∧
    (let s := (inUp 2).onI 31 fun i => { i with gapAt := some 0 }
     past (late s) 0 100000 = true) := by decide +kernel
theorem test_witness_TestPulses_field :
    (let s := late ((field true true).onTp 7 fun x => { x with rb := false })
     fdigUp s = true ∧ (s.sin.tp[(7 : Fin 8)]).rb = false ∧ stopped s = false) ∧
    ((field true true).onTp 7 fun x => { x with rb := true }).sin.tp[(7 : Fin 8)].rb = true ∧ fdigUp (up .run) = false := by decide +kernel
theorem test_witness_LoopChannels_clock : alpClock (loop 1) = true ∧ alpClock { loop 1 with pwr := { (loop 1).pwr with pllLock := false } } = false ∧
    ((loop 1).alp.ch[(7 : Fin 8)]).gaugeRun = false := by decide +kernel
theorem test_witness_GaugeAndTrims_buttons :
    (let s := { loop 1 with sys := { (loop 1).sys with runState := .service }, alp := { (loop 1).alp with armed := some 7, avg := some false, pressed := some (false, 0, 9) } }
     s.sys.runState = .service ∧ s.alp.pressed = some (false, s.t.tbA, 9) ∧ s.alp.avg = some false ∧ s.alp.avgAt = s.t.tbA) ∧
    (let s := { loop 1 with pwr := { (loop 1).pwr with domains := 0x037 } }
     fanMay s = true ∧ fanOn s = false) ∧ flashRuns (loop 1) = true := by decide +kernel
theorem test_witness_BCycle_cells : bRun.sys.fallDue = false ∧ bRun.sys.holding = false ∧ bRun.hld.inbox = [] ∧
    (let c : WinCell := { valid := true, f := { primed := true, n := 5 } }
     c.valid = true ∧ c.f.primed = true ∧ fld c.w1 27 16 ≤ c.f.n) ∧
    (let c : RelCell := { valid := true, f := { primed := true }, st := .active, n := 299999 }
     c.valid = true ∧ c.f.primed = true ∧ c.st = .active ∧ c.n < 300000) ∧
    (let c : LogCell := { valid := true, w1 := 7 }
     c.valid = true ∧ fld c.w1 3 0 = 7) ∧
    (let c : OutCell := { valid := true, p := 1, failOnce := true }
     c.valid = true ∧ c.p = 1 ∧ c.failOnce = true) ∧
    (let c : EvCell := { valid := true, started := true, w1 := 0x08810000, st := .waitOn }
     c.valid = true ∧ c.started = true ∧ c.lock = false ∧ 8 ≤ c.srcA ∧ 8 ≤ c.srcB ∧ c.conn ≠ 0 ∧ c.firstB = false ∧ c.st = .waitOn) := by decide +kernel

/-- Core 1 hosts a record with output 15 as its own, one pair kept. -/
def monitored (m : Monitor) : State := { bRun with
  t := { bRun.t with runA := true, tbA := 200000, cyc := 1100 }
  hld := { bRun.hld with pairs := [(199000, 1099)], hdr := ((bRun.hld.hdr.set 3 0x80000201).set 4 0x40000000).set 7 1, mon := bRun.hld.mon.set 1 m
                         history := List.replicate 2048 0, histCyc := 1100 } }

theorem test_witness_AgreementMonitor_passes :
    (let s := monitored { ref := true, seq := 6, time := 189000 }
     let w : List Word := let r : List Word := [0x00070011, 199000, 0x8000, 0]; r ++ [crcWords r]
     let v : List Word := let r : List Word := [0x00070011, 199000, 0, 0]; r ++ [crcWords r]
     let own := ownedOut (BitVec.ofNat 16 (fld (s.hld.hdr[3]) 31 16)) (s.hld.hdr[4]) 1
     (∀ x ∈ [v, w], recOk x = true ∧ mapTime s.hld (x.getD 1 0) = some 439600 ∧ (((x.getD 2 0).truncate 16 : Half) &&& ~~~own) = 0 ∧
       ((BitVec.ofNat 16 (fld (x.getD 0 0) 31 16) : Half)) = (s.hld.mon[(1 : Fin 4)]).seq + 1 ∧
       x.getD 1 0 - (s.hld.mon[(1 : Fin 4)]).time = BitVec.ofNat 32 (scanPeriod s.hld 1 * 10000) ∧
       x.getD 3 0 = s.hld.hdr.getN 11 0) ∧ s.hld.pairs ≠ [] ∧ hosts s.hld 1 = true ∧
     ((s.t.cyc * 400 : Nat) : Int) - 439600 ≤ ((scanPeriod s.hld 1 * 2000 + 800 : Nat) : Int) ∧
     bit own 15 = true ∧ bit (histAt s 1099) 15 = false ∧ bit (w.getD 2 0) 15 = true ∧ bit (v.getD 2 0) 15 = false ∧ disAt s.hld 15 = none ∧
     disAt (s.onHld fun h => { h with disStart := h.disStart.upd 15 fun _ => some 437600 }).hld 15 = some 437600 ∧
     ((fld (s.hld.hdr[3]) 2 0 * scanPeriod s.hld 1 * 2000 : Nat) : Int) ≤ 439600 - 437600) ∧
    (bRun.onHld fun h => { h with skipNext := true }).hld.skipNext = true := by decide +kernel
theorem test_witness_ChannelBPaths_reports :
    (let s := bRun.onHld fun h => { h with queue := [{ code := 0x22, cell := 3 }] }
     let r : Rep := ⟨0x22, 2, bClass 0x22, 3⟩
     s.hld.queue = [{ code := 0x22, cell := 3 }] ∧ rctTakes s = true ∧ rctFind s.diag r = none ∧ rctFree s.diag = some 0 ∧ (0x22 : Byte) ≠ 0x20 ∧
     rctFind (s.onDiag fun d => { d with rct := d.rct.set 9 { valid := true, code := 0x22, scls := 2 } }).diag r = some 9) ∧
    rctTakes State.reset = false ∧ (up .castOn).sys.stage ≠ .cross ∧ diesDown (up .castOn) = false := by decide +kernel
theorem test_witness_Carrier_more :
    (let s := atRow 0 (skein true fun x => { x with st := .start })
     rowTick 3 0 s = true ∧ openInSlot s 3 = true ∧ s.live) ∧
    (let s := late (skein true fun x => { x with st := .run, wait := .poll [1023, 5] false true })
     (s.csc.p[(3 : Fin 4)]).wait = .poll (1023 :: [5]) false true ∧ symbolsPassed 3 (7 * 1 + 1) s = true) ∧
    ((skein true fun x => { x with wait := .query, rounds := 2 }).csc.p[(3 : Fin 4)]).wait = .query := by
  unfold State.live; decide +kernel
theorem test_witness_CheckUnitWrites_states : ¬ reaches .eth (cvuHost id) ∧ ((cvuHost id).cvu.u[(3 : Fin 4)]).st = .fresh ∧
    (((cvuHost id).onCvu fun x => { x with u := x.u.upd 3 fun y => { y with st := .closed } }).cvu.u[(3 : Fin 4)]).st = .closed := by
  unfold reaches; decide +kernel
theorem test_witness_Dma_more :
    (let s := (up .run).onCvu fun x => { x with d := x.d.upd 15 fun y => { y with cfg := 0x05000502, count := 1, busy := true } }
     srcCode .host = 0x18 ∧ (s.cvu.d[(15 : Fin 16)]).owner < 24 ∧ fld (s.cvu.d[(15 : Fin 16)]).cfg 9 8 ≠ 0 ∧ (s.cvu.d[(15 : Fin 16)]).burst = 0) ∧
    (let s := (up .run).onCvu fun x => { x with d := x.d.upd 0 fun y => { y with busy := true, burst := 1 } }
     dmaBefore 15 s = true ∧ dmaBefore 0 s = false) ∧
    (let s := { (up .run).onCvu fun x => { x with
         u := x.u.upd 3 fun y => { y with cfg := 0x201807FF }
         d := x.d.upd 15 fun y => { y with cfg := 0x05000402, src := 0x20000000, dst := 0x300800E4, count := 1, busy := true, burst := 1 } } with
       mem := { State.reset.mem with block := Tab.fill 64 5 } }
     let c := s.cvu.d[(15 : Fin 16)]
     feedAt c.dst.toNat = some 3 ∧ 3 ∈ fedBy s 15 ∧ mayLoad s.mem 5 c.src.toNat c.size = true ∧ c.count = 1 ∧ (s.cvu.u[(3 : Fin 4)]).st ≠ .closed ∧ s.live) := by
  unfold State.live; decide +kernel
theorem test_witness_flash : flashRuns (up .run) = true ∧ flashRuns { up .run with pwr := { (up .run).pwr with xtalOk := false } } = false ∧
    compactDue (ready .safeHold).upd = false ∧ mayConfirm (ready .run) .host = true ∧ mayConfirm (ready .run) .eth = false ∧
    foreignLease ((ready .run).onUpd fun u => { u with owner := 2 }) .host = true ∧
    (ctrlServed (up .halt) = false ∧ (up .halt).sys.runState ≠ .dormant ∧ (up .halt).pwr.good = true ∧ (up .halt).sys.clockWait = false) ∧
    dmaWriter 0 (up .run) = none ∧ hregWrites (up .run) 5 0x000018 = false ∧ linkSilent (serve 0 0xA3 true ⟨0, 0, 0, 0, [], 0⟩ (up .run)).2 = false := by
  decide +kernel
theorem test_witness_Otp_more : coreStep (.engine 15) = true ∧
    (let s := fuses 0 0 fun o => { o with w := [(2047, ⟨1, 0⟩)], weak := [65504] }
     repulseDue s = true ∧ repulseDue (s.onOtp fun o => { o with repulseAt := some 0 }) = false) ∧
    (let s := fuses 8 0 fun o => { o with w := [(1024, ⟨1, 0⟩)], weak := [32768] }
     stillMeant s.otp 32768 = true) := by decide +kernel
theorem test_witness_Network_more :
    (let s := net.onLink fun l => { l with act := { l.act with svc := 0x20000, reqId := 7 } }
     reservedId s (idWord false 7) = true) ∧ net.link.canLen[(1 : Fin 2)] ≤ 64 ∧
    fld net.link.act.can[(1 : Fin 2)] 15 8 = 0 := by decide +kernel
/-- The receive side takes the coded bits back from the symbols of a frame (R321, R322, Table 12-1). -/
theorem test_csc_demodulated :
    (let f := cscFrame 1 0x3FF [0xA5, 0x3C]
     let bits := scramble 0x7F (byteBits f) ++ List.replicate 6 false
     let coded := puncture (convolve 0 (bits ++ List.replicate (96 - bits.length) false))
     let w := frameWave f
     w.length = 4 ∧ coded.length = 128 ∧ demodulate (w.getD 1 default) (w.getD 2 default) ++ demodulate (w.getD 2 default) (w.getD 3 default) = coded) := by
  decide +kernel
/-- The prefix of a symbol repeats its last 32 samples (R321). -/
theorem test_csc_prefix : (symbolSamples refSymbol).length = 288 ∧ (symbolSamples refSymbol).take 32 = (symbolSamples refSymbol).drop 256 := by
  decide +kernel

end Sys2Proof.Tests
end

section
/-! PROOFS. The commands of SYS_CTRL, resets and the state at reset (00_scope.md, file 02): what noting, a write of SYS_CTRL, a reset
and an entry to HALT do, and from that the statements. -/

namespace Sys2Proof

theorem Tab.fill_fin {α : Type} {n : Nat} (x : α) (i : Fin n) : (Tab.fill n x)[i] = x := Tab.fill_get x i.val i.isLt

end Sys2Proof

namespace Sys2Proof.Machine

/-! ## The state at reset -/

/-- Outputs that hold nothing but the level at their terminals, with cores at their reset values: everything is off. -/
theorem allOff_of_blank {s : State} (hc : s.eng.c = Tab.fill 4 {}) (ho : ∀ k : Fin 16, ∃ r, s.sout.o[k] = { raw := r }) : s.allOff := by
  refine ⟨fun k => ?_, fun c => ?_⟩
  · obtain ⟨r, hr⟩ := ho k
    simp only [hr, and_self]
  · simp [hc]

/-- Settles O57: the tables that reset fills hold one entry throughout, and every other register is its reset value. -/
theorem resetValues : Obligations.ResetValues := by
  have outs : State.reset.allOff := allOff_of_blank rfl fun k => ⟨_, Tab.fill_fin _ k⟩
  refine ⟨outs, fun e => ?_, fun k => ?_, rfl, rfl, rfl, rfl, rfl, rfl, rfl, rfl, fun d => ?_, fun p => ?_, rfl⟩
  · exact congrArg Engine.on (Tab.fill_fin _ e)
  · exact congrArg OutCell.closed (Tab.fill_fin _ k)
  · exact congrArg Dma.cfg (Tab.fill_fin _ d)
  · exact congrArg CscPort.cfg (Tab.fill_fin _ p)

/-! ## Noting -/

/-- A list of steps none of which changes the state changes nothing. -/
theorem each_eq_self {α : Type} {l : List α} {f : α → State → State} {s : State} (h : ∀ a, f a s = s) : each l f s = s := by
  induction l with
  | nil => rfl
  | cons a l ih => exact (congrArg (each l f) (h a)).trans ih

/-- What each step of a list keeps, the list keeps. -/
theorem each_keeps {α : Type} {P : State → Prop} {l : List α} {f : α → State → State} (hf : ∀ a s, P s → P (f a s)) {s : State}
    (h : P s) : P (each l f s) := by
  induction l generalizing s with
  | nil => exact h
  | cons a l ih => exact ih (hf a s h)

theorem notePairs_same {old : SinS} {s : State} (h : s.sin = old) : notePairs old s = s :=
  each_eq_self fun k => by simp [h]

theorem noteOuts_same {old s : State} (h : ∀ k, outWord s k = outWord old k) : noteOuts old s = s :=
  each_eq_self fun k => by simp [h]

theorem noteAlp_same {old s : State} (h : ∀ n, alpStat s n = alpStat old n) : noteAlp old s = s :=
  each_eq_self fun n => by simp [h]

theorem noteTest_same {old s : State} (h : s.sout = old.sout) : noteTest old s = s := by
  simp [noteTest, h]

/-- A change of the run state record that leaves RUN_STATE changes no word that raises an event (R211, R237, R285). -/
theorem noting_onSys {f : State → State} {s : State} {y : SysS} (hf : f s = { s with sys := y })
    (hy : y.runState = s.sys.runState) : noting f s = { s with sys := y } := by
  have ho : ∀ k, outWord { s with sys := y } k = outWord s k := fun _ => rfl
  have ha : ∀ n, alpStat { s with sys := y } n = alpStat s n := by
    intro n; simp only [alpStat, presentedCmp, failValue, trimDrives, fanOn, hy]
  have hp : notePairs s.sin { s with sys := y } = { s with sys := y } := notePairs_same rfl
  have ht : noteTest s { s with sys := y } = { s with sys := y } := noteTest_same rfl
  rw [noting, hf, hp, noteOuts_same ho, noteAlp_same ha, ht]

/-! ## Writes of SYS_CTRL -/

theorem sysCmd_unserved {s : State} (h : ctrlServed s = false) (key : Half) (cmd : Byte) (f : State → State) :
    sysCmd key cmd f s = s := by simp [sysCmd, h]

theorem sysCmd_wrongKey {s : State} {key : Half} (h : ctrlServed s = true) (hk : key ≠ 0x6A5C) (cmd : Byte) (f : State → State) :
    sysCmd key cmd f s = ctrlResult 4 s := by rw [sysCmd, h, if_neg (by decide), if_pos hk]

theorem sysCmd_accepted {s : State} (h : ctrlServed s = true) (cmd : Byte) (f : State → State) :
    sysCmd 0x6A5C cmd f s = f (s.onSys fun x => { x with lastCmd := cmd }) := by simp [sysCmd, h]

/-- Where a write comes to the same change of the run state record whatever its code and its meaning, every row of SYS_CTRL makes
that change. -/
theorem ctrlRows_onSys {key : Half} {env : ReevalEnv} {s : State} {y : SysS} (hy : y.runState = s.sys.runState)
    (h : ∀ cmd f, sysCmd key cmd f s = { s with sys := y }) :
    ∀ q ∈ ctrlRows key env, exec q.2 s = .next { s with sys := y } := by
  have hn : ∀ cmd f, noting (sysCmd key cmd f) s = { s with sys := y } := fun cmd f => noting_onSys (h cmd f) hy
  simp only [ctrlRows, List.forall_mem_cons, List.not_mem_nil, false_implies, implies_true, and_true]
  exact ⟨congrArg _ (hn 1 ctrlStart), congrArg _ (hn 2 ctrlHold), congrArg _ (h 3 ctrlService), congrArg _ (hn 4 (ctrlExit env)),
    congrArg _ (h 5 ctrlSleep), congrArg _ (hn 6 (ctrlRelease env)), congrArg _ (h 7 ctrlReset)⟩

/-- A write of a code that stands for no command. -/
theorem exec_undefinedCmd {cmd : Byte} (h : cmd = 0 ∨ 8 ≤ cmd) (key : Half) (s : State) :
    exec (.undefinedCmd key cmd) s = .next (sysCmd key cmd (ctrlResult 5) s) := by
  show execUndefinedCmd key cmd s = _
  have hc : ¬ (1 ≤ cmd.toNat ∧ cmd.toNat ≤ 7) := by
    rcases h with rfl | h
    · decide
    · have := BitVec.le_def.mp h; simp at this; omega
  simp [execUndefinedCmd, hc]

theorem exec_undefinedCmd_unserved {s : State} (h : ctrlServed s = false) (key : Half) (cmd : Byte) :
    exec (.undefinedCmd key cmd) s = .next s := by
  show execUndefinedCmd key cmd s = _
  simp [execUndefinedCmd, sysCmd_unserved h]

/-- An accepted write whose meaning changes the run state record alone, and RUN_STATE not, is noted without an event. -/
theorem noting_sysCmd {s : State} {cmd : Byte} {f : State → State} {y : SysS} (h : ctrlServed s = true)
    (hf : f (s.onSys fun x => { x with lastCmd := cmd }) = { s with sys := y }) (hy : y.runState = s.sys.runState) :
    noting (sysCmd 0x6A5C cmd f) s = { s with sys := y } :=
  noting_onSys ((sysCmd_accepted h cmd f).trans hf) hy

/-! ## What each command refuses (R48 to R53, R466, Table 2-3) -/

theorem ctrlStart_elsewhere {s : State} (h : s.sys.runState ≠ .safeHold) : ctrlStart s = ctrlResult 2 s := by
  simp [ctrlStart, h]

theorem ctrlStart_unmet {s : State} {r : Byte} (h : s.sys.runState = .safeHold) (hr : startUnmet s = some r) :
    ctrlStart s = ctrlResult 3 (s.onSys fun x => { x with holdReason := r }) := by
  simp [ctrlStart, h, hr]

theorem ctrlHold_devPending {s : State} (h : s.sys.devPending = true) : ctrlHold s = ctrlResult 6 s := by
  simp [ctrlHold, h]

theorem ctrlHold_elsewhere {s : State} (hd : s.sys.devPending = false) (h : s.sys.runState ≠ .run) :
    ctrlHold s = ctrlResult 2 s := by
  simp [ctrlHold, hd, h]

theorem ctrlService_elsewhere {s : State} (h : s.sys.runState ≠ .safeHold) : ctrlService s = ctrlResult 2 s := by
  simp [ctrlService, h]

theorem ctrlService_barred {s : State} (h : s.sys.runState = .safeHold)
    (hb : s.sys.life = .serviceLocked ∨ s.sys.life = .retired ∨ s.sys.recovery = true) : ctrlService s = ctrlResult 5 s := by
  rcases hb with hb | hb | hb <;> simp [ctrlService, h, hb]

theorem ctrlExit_elsewhere {s : State} (env : ReevalEnv) (h : s.sys.runState ≠ .service) : ctrlExit env s = ctrlResult 2 s := by
  simp [ctrlExit, h]

theorem ctrlRelease_elsewhere {s : State} (env : ReevalEnv) (h : s.sys.runState ≠ .lockout) :
    ctrlRelease env s = ctrlResult 2 s := by
  simp [ctrlRelease, h]

theorem ctrlSleep_devPending {s : State} (h : s.sys.devPending = true) : ctrlSleep s = ctrlResult 6 s := by
  simp [ctrlSleep, h]

theorem ctrlSleep_elsewhere {s : State} (hd : s.sys.devPending = false) (h1 : s.sys.runState ≠ .safeHold)
    (h2 : s.sys.runState ≠ .run) : ctrlSleep s = sleepRefuse 2 1 s := by
  simp [ctrlSleep, hd, h1, h2]

theorem ctrlSleep_barred {s : State} {r : BitVec 4} (hd : s.sys.devPending = false)
    (h : s.sys.runState = .safeHold ∨ s.sys.runState = .run) (hr : sleepBar s = some r) : ctrlSleep s = sleepRefuse 3 r s := by
  rcases h with h | h <;> simp [ctrlSleep, hd, h, hr]

theorem ite_some_eq_none {α : Type} {c : Prop} [Decidable c] {a : α} {o : Option α} :
    (if c then some a else o) = none ↔ ¬ c ∧ o = none := by
  split <;> simp [*]

/-- START is barred exactly where one of its conditions does not hold (R48). -/
theorem startUnmet_eq_none {s : State} : startUnmet s = none ↔ s.mayStart := by
  simp only [startUnmet, ite_some_eq_none]
  simp [State.mayStart, lifeRuns, imageCommissioned, faultPending, and_assoc, or_iff_not_imp_left]

/-- HOLD_REASON of an unmet condition is neither that of no reason nor that of a HOLD. -/
theorem startUnmet_reason {s : State} {r : Byte} (h : startUnmet s = some r) : r ≠ 0 ∧ r ≠ 7 := by
  unfold startUnmet at h
  split_ifs at h <;> cases h <;> decide

/-- Settles O40: what a write of SYS_CTRL refuses touches the run state record alone, so that noting it raises no event; then each
command's own refusal. -/
theorem controlRefusals : Obligations.ControlRefusals := by
  intro key cmd env s
  refine ⟨fun hs => ⟨ctrlRows_onSys rfl fun _ _ => sysCmd_unserved hs .., exec_undefinedCmd_unserved hs ..⟩, fun hs => ?_⟩
  refine ⟨fun hk => ⟨ctrlRows_onSys rfl fun _ _ => sysCmd_wrongKey hs hk .., fun hc => ?_⟩, fun hc => ?_, fun h => ⟨?_, ?_⟩,
    fun hd h => ?_, fun hd => ⟨?_, ?_⟩, fun h => ?_, fun h => ?_, fun h hb => ?_, fun h hm => ?_, fun hd h1 h2 => ?_,
    fun hd h r hr => ?_⟩
  · rw [exec_undefinedCmd hc, sysCmd_wrongKey hs hk]; rfl
  · rw [exec_undefinedCmd hc, sysCmd_accepted hs]; rfl
  · exact congrArg Host.Outcome.next (noting_sysCmd hs (ctrlStart_elsewhere h) rfl)
  · exact congrArg Host.Outcome.next ((sysCmd_accepted hs ..).trans (ctrlService_elsewhere h))
  · exact congrArg Host.Outcome.next (noting_sysCmd hs (ctrlHold_elsewhere hd h) rfl)
  · exact congrArg Host.Outcome.next (noting_sysCmd hs (ctrlHold_devPending hd) rfl)
  · exact congrArg Host.Outcome.next ((sysCmd_accepted hs ..).trans (ctrlSleep_devPending hd))
  · exact congrArg Host.Outcome.next (noting_sysCmd hs (ctrlExit_elsewhere env h) rfl)
  · exact congrArg Host.Outcome.next (noting_sysCmd hs (ctrlRelease_elsewhere env h) rfl)
  · exact congrArg Host.Outcome.next ((sysCmd_accepted hs ..).trans (ctrlService_barred h hb))
  · obtain ⟨r, hr⟩ := Option.ne_none_iff_exists'.mp (mt startUnmet_eq_none.mp hm)
    obtain ⟨h0, h7⟩ := startUnmet_reason hr
    exact ⟨r, h0, h7, congrArg Host.Outcome.next (noting_sysCmd hs (ctrlStart_unmet h hr) rfl)⟩
  · exact congrArg Host.Outcome.next ((sysCmd_accepted hs ..).trans (ctrlSleep_elsewhere hd h1 h2))
  · exact congrArg Host.Outcome.next ((sysCmd_accepted hs ..).trans (ctrlSleep_barred hd h hr))

/-! ## Noting stays within the event fabric -/

/-- What raises an event under a condition stays within the fabric. -/
theorem raiseIf_fab (c : Bool) (ev : Nat) (s : State) : Fab s (if c then raise ev s else s) := by
  split
  · exact raise_fab ..
  · exact Fab.refl s

theorem notePairs_fab (old : SinS) (s : State) : Fab s (notePairs old s) := each_fab _ _ (fun _ s => raiseIf_fab _ _ s) s

theorem noteOuts_fab (old s : State) : Fab s (noteOuts old s) := each_fab _ _ (fun _ s => raiseIf_fab _ _ s) s

theorem noteAlp_fab (old s : State) : Fab s (noteAlp old s) := each_fab _ _ (fun _ s => raiseIf_fab _ _ s) s

theorem noteTest_fab (old s : State) : Fab s (noteTest old s) := by
  unfold noteTest
  split
  · exact (Fab.onDiag _ s).trans (raise_fab ..)
  · exact Fab.refl s

/-- Noting stays within the fabric. -/
theorem noting_fab (f : State → State) (s : State) : Fab (f s) (noting f s) :=
  (((notePairs_fab ..).trans (noteOuts_fab ..)).trans (noteAlp_fab ..)).trans (noteTest_fab ..)

/-- The fabric starts and stops no engine. -/
theorem Fab.on {s u : State} (h : Fab s u) (e : Fin 24) : (u.eng.e[e]).on = (s.eng.e[e]).on := by
  have hr : (u.eng.e[e.val]).on = (s.eng.e[e.val]).on := by rw [h.regs e.val e.isLt]
  exact hr

theorem Fab.allOff {s u : State} (h : Fab s u) (hs : s.allOff) : u.allOff := by
  rw [State.allOff, h.sout, h.core]; exact hs

theorem Fab.halted {s u : State} {code : Half} (h : Fab s u) (hs : halted code s) : halted code u := by
  obtain ⟨hrun, hline, hcode, hoff⟩ := hs
  rw [Machine.halted, h.sys]
  exact ⟨hrun, hline, hcode, h.allOff hoff⟩

/-! ## Before LOAD no report is entered (R366) -/

/-- The report table stands at `d` and takes no report. -/
def Unreported (d : DiagS) (s : State) : Prop := s.diag = d ∧ rctTakes s = false

theorem reportCore_unreported {d : DiagS} {s : State} (h : Unreported d s) (r : Rep) : reportCore r s = (s, []) := by
  simp [reportCore, h.2]

/-- What each step of a fold keeps of the state, the fold keeps. -/
theorem foldl_fst_keeps {α β : Type} {P : State → Prop} {l : List α} {f : State × β → α → State × β}
    (hf : ∀ p a, P p.1 → P (f p a).1) {p : State × β} (h : P p.1) : P (l.foldl f p).1 := by
  induction l generalizing p with
  | nil => exact h
  | cons a l ih => exact ih (hf p a h)

theorem trigAll_unreported {d : DiagS} {s : State} (h : Unreported d s) (trg : Byte) : Unreported d (trigAll trg s).1 :=
  foldl_fst_keeps (P := Unreported d) (fun p _ hp => by simpa only [reportCore_unreported hp] using hp) h

theorem dmaAsk_unreported {d : DiagS} {s : State} (h : Unreported d s) (l : List (Fin 16)) : Unreported d (dmaAsk l s).1 :=
  foldl_fst_keeps (P := Unreported d) (by intro _ _ hp; exact hp) h

theorem raiseOne_unreported {d : DiagS} {s : State} (h : Unreported d s) (ev : Nat) : Unreported d (raiseOne ev s).1 := by
  unfold raiseOne
  dsimp only
  split
  · exact h
  · exact trigAll_unreported (dmaAsk_unreported (by exact h) _) _

theorem raiseList_unreported {d : DiagS} {s : State} (h : Unreported d s) (n : Nat) (evs : List Nat) :
    Unreported d (raiseList n evs s) := by
  induction n generalizing evs s with
  | zero => exact h
  | succ n ih => exact ih (foldl_fst_keeps (P := Unreported d) (by intro p ev hp; exact raiseOne_unreported hp ev) h) _

theorem raise_unreported {d : DiagS} {s : State} (h : Unreported d s) (ev : Nat) : Unreported d (raise ev s) :=
  raiseList_unreported h ..

theorem raise_diag {s : State} (h : rctTakes s = false) (ev : Nat) : (raise ev s).diag = s.diag :=
  (raise_unreported ⟨rfl, h⟩ ev).1

theorem raiseIf_unreported {d : DiagS} {s : State} (c : Bool) (ev : Nat) (h : Unreported d s) :
    Unreported d (if c then raise ev s else s) := by
  split
  · exact raise_unreported h ev
  · exact h

/-- Before LOAD, noting leaves the table, the log and the archive; it ends at most the command of a switch test (R373). -/
theorem noting_diag {f : State → State} {s : State} (h : rctTakes (f s) = false) :
    (noting f s).diag = { (f s).diag with result := (noting f s).diag.result } := by
  have words : Unreported (f s).diag (noteAlp s (noteOuts s (notePairs s.sin (f s)))) :=
    each_keeps (fun _ _ => raiseIf_unreported _ _) <| each_keeps (fun _ _ => raiseIf_unreported _ _) <|
      each_keeps (fun _ _ => raiseIf_unreported _ _) ⟨rfl, h⟩
  simp only [noting, noteTest]
  generalize noteAlp s (noteOuts s (notePairs s.sin (f s))) = u at words ⊢
  obtain ⟨hd, ht⟩ := words
  split
  · rw [raise_diag (by exact ht), State.onDiag_diag, hd]
  · rw [hd]

/-! ## The device held in reset (R459, R6) -/

/-- A reset keeps of the fuses, the archive, the link, the stores and the queue what they were. -/
theorem heldReset_powerDown {s s' : State} (hotp : s'.otp = s.otp) (hdiag : s'.diag = s.diag) (hlink : s'.link = s.link)
    (hupd : s'.upd = s.upd) (hq : s'.pending = s.pending) : heldReset s (powerDown s') := by
  have engines : ∀ e : Fin 24, ((powerDown s').eng.e[e]).on = false := fun e =>
    congrArg Engine.on (Tab.fill_fin _ e)
  have switches : ∀ k : Fin 16, ((powerDown s').hld.out[k]).closed = false := fun k =>
    congrArg OutCell.closed (Tab.fill_fin _ k)
  have flash : s.upd.phase = .idle → (powerDown s').upd.flash = s.upd.flash := by
    intro h; simp [powerDown, voidTarget, hupd, h]
  rw [heldReset, ← hotp, ← hdiag, ← hlink, ← hq]
  refine ⟨allOff_of_blank rfl fun k => ⟨_, Tab.map_get _ _ k.val k.isLt⟩, engines, switches, rfl, rfl, rfl, rfl, rfl, rfl, rfl, rfl,
    ?_, ?_, flash, rfl⟩ <;> rw [← hupd] <;> rfl

theorem heldReset_holdReset (causes : BitVec 7) (s : State) : heldReset s (holdReset causes s) :=
  heldReset_powerDown (s' := s.onSys _) rfl rfl rfl rfl rfl

theorem heldReset_onPwr {s u : State} (f : PwrS → PwrS) (h : heldReset s u) : heldReset s (u.onPwr f) := h

theorem heldReset_onSys {s u : State} (f : SysS → SysS) (h : heldReset s u) : heldReset s (u.onSys f) := h

/-- A device held in reset stays so under what the fabric and the end of a switch test's command change. -/
theorem heldReset_fab {s u v : State} (hu : heldReset s u) (h : Fab u v)
    (hd : v.diag = { u.diag with result := v.diag.result }) : heldReset s v := by
  obtain ⟨off, on, kept⟩ := hu
  rw [heldReset, h.hld, h.mem, h.otp, h.link, h.upd, h.pending, hd]
  exact ⟨h.allOff off, fun e => (h.on e).trans (on e), kept⟩

/-! ## Entry to HALT (R47, R53) -/

/-- The demands of channel A off and the holds set: every switch A is open, and no permit stands (R29, R46). -/
theorem holdAll_demandsOff_allOff (s : State) : (holdAll (demandsOff s)).allOff := by
  have hout : ∀ k : Fin 16, ((holdAll (demandsOff s)).sout.o[k]).demand = false ∧ ((holdAll (demandsOff s)).sout.o[k]).swa = false := by
    intro k
    simp [holdAll, demandsOff, driveA, OutA.drive, OutA.off, OutA.wantA, OutA.asked, State.onSout, State.onEng]
  refine ⟨fun k => (hout k).symm, fun c => ?_⟩
  simp [holdAll, demandsOff, driveA, State.onSout, State.onEng]

/-- `u` is `s` in its run state record, its memories, its fuses, its outputs and its safety cores. -/
structure SameCore (s u : State) : Prop where
  sys : u.sys = s.sys
  mem : u.mem = s.mem
  otp : u.otp = s.otp
  sout : u.sout = s.sout
  core : u.eng.c = s.eng.c

theorem Fab.sameCore {s u : State} (h : Fab s u) : SameCore s u := ⟨h.sys, h.mem, h.otp, h.sout, h.core⟩

theorem SameCore.trans {s t u : State} (h : SameCore s t) (g : SameCore t u) : SameCore s u :=
  ⟨g.sys.trans h.sys, g.mem.trans h.mem, g.otp.trans h.otp, g.sout.trans h.sout, g.core.trans h.core⟩

theorem SameCore.refl (s : State) : SameCore s s := ⟨rfl, rfl, rfl, rfl, rfl⟩

theorem SameCore.onSin (f : SinS → SinS) (s : State) : SameCore s (s.onSin f) := ⟨rfl, rfl, rfl, rfl, rfl⟩
theorem SameCore.onHld (f : HldS → HldS) (s : State) : SameCore s (s.onHld f) := ⟨rfl, rfl, rfl, rfl, rfl⟩
theorem SameCore.onUpd (f : UpdS → UpdS) (s : State) : SameCore s (s.onUpd f) := ⟨rfl, rfl, rfl, rfl, rfl⟩
theorem SameCore.onAlp (f : AlpS → AlpS) (s : State) : SameCore s (s.onAlp f) := ⟨rfl, rfl, rfl, rfl, rfl⟩

/-- A list of steps keeps what each of them keeps. -/
theorem each_sameCore {α : Type} {l : List α} {f : α → State → State} (hf : ∀ a s, SameCore s (f a s)) (s : State) :
    SameCore s (each l f s) :=
  each_keeps (P := SameCore s) (fun a s h => h.trans (hf a s)) (SameCore.refl s)

theorem followTp_sameCore (j : Fin 8) (s : State) : SameCore s (followTp j s) := ⟨rfl, rfl, rfl, rfl, rfl⟩

theorem sourcesOff_sameCore (s : State) : SameCore s (sourcesOff s) :=
  (SameCore.onSin _ s).trans (each_sameCore followTp_sameCore _)

theorem drainB_sameCore (s : State) : SameCore s (drainB s) :=
  (SameCore.onHld _ s).trans (each_sameCore (fun _ s => (report_fab _ s).sameCore) _)

theorem disarm_sameCore (s : State) : SameCore s (disarm s) := by
  unfold disarm
  split
  · exact (SameCore.onUpd _ s).trans (raise_fab ..).sameCore
  · exact SameCore.refl s

theorem trimsEnd_sameCore (s : State) : SameCore s (trimsEnd s) := by
  unfold trimsEnd
  split
  · exact SameCore.onAlp _ s
  · exact SameCore.refl s

theorem when_logPut_fab (b : Bool) (k : Nat) (c : FaultClass) (sc : BitVec 4) (code : Half) (w : Word) (s : State) :
    Fab s (when b (logPut k c sc code w) s) := by
  cases b
  · exact Fab.refl s
  · exact logPut_fab ..

/-- A change of RUN_STATE changes nothing else of these. -/
theorem setRun_sameCore (new : RunState) (cause : Word) (s : State) :
    SameCore (s.onSys fun x => { x with runState := new }) (setRun new cause s) := by
  have ends : SameCore s (trimsEnd (if new = .safeHold then s else disarm s)) := by
    split
    · exact trimsEnd_sameCore s
    · exact (disarm_sameCore s).trans (trimsEnd_sameCore _)
  have logged := fun b d w u => (when_logPut_fab b 1 .counted 0 d w u).trans (raise_fab 0 _)
  obtain ⟨hsys, hmem, hotp, hsout, hcore⟩ := ends
  refine SameCore.trans ?_ (logged ..).sameCore
  exact ⟨congrArg (fun x : SysS => { x with runState := new }) hsys, hmem, hotp, hsout, hcore⟩

theorem holdAll_demandsOff_kept (s : State) : (holdAll (demandsOff s)).sys = s.sys ∧ (holdAll (demandsOff s)).mem = s.mem ∧
    (holdAll (demandsOff s)).otp = s.otp := ⟨rfl, rfl, rfl⟩

/-- The end of an entry to LOCKOUT or HALT (R29, R47): everything is off, RUN_STATE changes, the memories and the fuses stay. -/
theorem setRun_allOff (new : RunState) (cause : Word) (s : State) :
    let u := setRun new cause (sourcesOff (holdAll (demandsOff s)))
    u.sys = { s.sys with runState := new } ∧ u.allOff ∧ u.mem = s.mem ∧ u.otp = s.otp := by
  have off := holdAll_demandsOff_allOff s
  obtain ⟨hsys, hmem, hotp⟩ := holdAll_demandsOff_kept s
  have src := sourcesOff_sameCore (holdAll (demandsOff s))
  have run := setRun_sameCore new cause (sourcesOff (holdAll (demandsOff s)))
  refine ⟨?_, ?_, ?_, ?_⟩
  · rw [run.sys, State.onSys_sys, src.sys, hsys]
  · rw [State.allOff, run.sout, run.core, State.onSys_sout, State.onSys_eng, src.sout, src.core]; exact off
  · rw [run.mem, State.onSys_mem, src.mem, hmem]
  · rw [run.otp, State.onSys_otp, src.otp, hotp]

/-- What an entry to HALT leads to, from any other run state; the memories and the fuses it leaves. -/
theorem haltState_halted {s : State} (code : Half) (h : s.sys.runState ≠ .halt) :
    halted code (haltState code s) ∧ (haltState code s).mem = s.mem ∧ (haltState code s).otp = s.otp := by
  simp only [haltState, beq_iff_eq, h, if_false]
  generalize hv : State.onUpd _ _ = v
  have noted : v.sys.lineA = true ∧ v.sys.stopCode = code ∧ v.mem = s.mem ∧ v.otp = s.otp := by
    subst hv; exact ⟨rfl, rfl, rfl, rfl⟩
  obtain ⟨hline, hcode, hmem, hotp⟩ := noted
  have drained := drainB_sameCore v
  obtain ⟨sys, off, mem, otp⟩ := setRun_allOff .halt (code.zeroExtend 32) (drainB v)
  rw [halted, sys, drained.sys, mem, otp, drained.mem, drained.otp]
  exact ⟨⟨rfl, hline, hcode, off⟩, hmem, hotp⟩

theorem archiveLog_fab (s : State) : Fab s (archiveLog s) := by
  unfold archiveLog when
  split
  · exact Fab.onDiag _ s
  · exact Fab.refl s

/-- The same of an entry to HALT that archives the log. -/
theorem haltEntry_halted {s : State} (code : Half) (h : s.sys.runState ≠ .halt) :
    halted code (haltEntry code s) ∧ (haltEntry code s).mem = s.mem ∧ (haltEntry code s).otp = s.otp := by
  obtain ⟨halts, hmem, hotp⟩ := haltState_halted code h
  have arch := archiveLog_fab (haltState code s)
  simp only [haltEntry, beq_iff_eq, h, if_false]
  exact ⟨arch.halted halts, arch.mem.trans hmem, arch.otp.trans hotp⟩

/-! ## The beginning of a cast-on (R36, R40, R86) -/

/-- The state in which a cast-on begins: held in reset, with channel B in load mode and the supervisor running. -/
def castOnBase (s : State) : State := (powerDown s).onHld fun h => { h with loadMode := true, superOn := true }

/-- A cast-on that does not get past TAP is left as TAP left it. -/
theorem runCastOn_of_tap {env : CastEnv} {s u : State} (h : castStage env .tap castTap (castOnBase s) = (u, false)) :
    runCastOn env s = u := by
  unfold castOnBase at h
  simp [runCastOn, h, StageRes.next]

theorem runCastOn_stuck_in_tap {env : CastEnv} (h : env.stuck = some 1) (s : State) :
    runCastOn env s = enterStage .tap (castOnBase s) :=
  runCastOn_of_tap (by simp [castStage, h, Stage.code])

theorem stageReport_fab (st : Stage) (s : State) : Fab s (stageReport st s) := report_fab ..

/-- A stage that fails enters HALT. -/
theorem stageHalt_halted {s : State} (st : Stage) (h : s.sys.runState ≠ .halt) :
    halted 0x50 (stageHalt st s) ∧ (stageHalt st s).mem = s.mem ∧ (stageHalt st s).otp = s.otp := by
  have rep := stageReport_fab st (s.onSys fun x => { x with stage := st })
  have run : (stageReport st (s.onSys fun x => { x with stage := st })).sys.runState ≠ .halt := by rw [rep.sys]; exact h
  obtain ⟨halts, hmem, hotp⟩ := haltEntry_halted 0x50 run
  exact ⟨halts, hmem.trans rep.mem, hotp.trans rep.otp⟩

theorem bootTrap_kept (s : State) : (bootTrap s).sys = s.sys ∧ (bootTrap s).mem = s.mem ∧ (bootTrap s).otp = s.otp :=
  ⟨rfl, rfl, rfl⟩

/-- A trap of the boot core in a stage enters HALT (R86). -/
theorem bootTrap_halted {s : State} (st : Stage) (h : s.sys.runState ≠ .halt) :
    let u := haltState 0x50 (stageReport st (bootTrap s))
    halted 0x50 u ∧ u.mem = s.mem ∧ u.otp = s.otp := by
  have rep := stageReport_fab st (bootTrap s)
  obtain ⟨tsys, tmem, totp⟩ := bootTrap_kept s
  have run : (stageReport st (bootTrap s)).sys.runState ≠ .halt := by rw [rep.sys, tsys]; exact h
  obtain ⟨halts, hmem, hotp⟩ := haltState_halted 0x50 run
  exact ⟨halts, (hmem.trans rep.mem).trans tmem, (hotp.trans rep.otp).trans totp⟩

/-- Tap bits that do not resolve end TAP in HALT (R381), as does a trap of the boot core there (R86). -/
theorem castStage_tap_unresolved {env : CastEnv} {s : State} (h : env.stuck = none) (ht : tapResolves s.otp = false) :
    ∃ u, castStage env .tap castTap s = (u, false) ∧ halted 0x50 u ∧ u.mem = s.mem ∧ u.otp = s.otp := by
  have cast : (enterStage .tap s).sys.runState ≠ .halt := by simp [enterStage]
  have tap : castTap s = (stageHalt .tap (enterStage .tap s), false) := if_neg (by simp [enterStage, ht])
  unfold castStage
  rw [if_neg (by simp [h])]
  split
  · exact ⟨_, rfl, bootTrap_halted .tap cast⟩
  · exact ⟨_, tap, stageHalt_halted .tap cast⟩

/-! ## Resets -/

/-- A device held in reset that has entered TAP is so still once the events of its words are noted (R453). -/
theorem noting_castOn_stuck {env : CastEnv} (h : env.stuck = some 1) (s : State) :
    Fab (enterStage .tap (castOnBase s)) (noting (runCastOn env) s) ∧ heldReset s (noting (runCastOn env) s) := by
  have fab := noting_fab (runCastOn env) s
  have hd := noting_diag (f := runCastOn env) (s := s)
  rw [runCastOn_stuck_in_tap h] at fab hd
  have held : heldReset s (enterStage .tap (castOnBase s)) := heldReset_powerDown (s' := s) rfl rfl rfl rfl rfl
  exact ⟨fab, heldReset_fab held fab (hd rfl)⟩

theorem noting_castOn_unresolved {env : CastEnv} {s : State} (h : env.stuck = none) (ht : tapResolves s.otp = false) :
    halted 0x50 (noting (runCastOn env) s) ∧ (noting (runCastOn env) s).mem = {} ∧ (noting (runCastOn env) s).otp.w = s.otp.w := by
  obtain ⟨u, hu, halts, hmem, hotp⟩ := castStage_tap_unresolved (s := castOnBase s) h ht
  have fab := noting_fab (runCastOn env) s
  rw [runCastOn_of_tap hu] at fab
  rw [fab.mem, fab.otp, hmem, hotp]
  exact ⟨fab.halted halts, rfl, rfl⟩

theorem exec_powerGoodLoss {s : State} (h : s.pwr.good = true) :
    exec .powerGoodLoss s = .next ((holdReset 0 s).onPwr fun p => { p with good := false }) := by
  show execPowerGoodLoss s = _
  simp only [execPowerGoodLoss, h, if_true]

theorem exec_powerGoodLoss_unpowered {s : State} (h : s.pwr.good = false) : exec .powerGoodLoss s = .next s := by
  show execPowerGoodLoss s = _
  simp [execPowerGoodLoss, h]

theorem exec_aonLoss {s : State} (h : s.pwr.good = true) :
    exec .aonLoss s = .next ((holdReset 0 s).onPwr fun p => { p with good := false, aonLost := true }) := by
  show execAonLoss s = _
  simp only [execAonLoss, h, if_true]

theorem exec_resetNAssert {s : State} (h : s.pwr.good = true) (hn : s.pwr.resetN = false) :
    exec .resetNAssert s = .next ((holdReset causePin s).onPwr fun p => { p with resetN := true }) := by
  show execResetNAssert s = _
  simp [execResetNAssert, h, hn]

theorem exec_resetNRelease {s : State} (h : s.pwr.good = true) (hn : s.pwr.resetN = true) :
    exec .resetNRelease s = .next (((s.onPwr fun p => { p with resetN := false }).onSys fun x =>
      { x with cause := x.cause ||| causePin, clockWait := true }).onT fun t => { t with tbA := 0, cyc := 0 }) := by
  show execResetNRelease s = _
  simp [execResetNRelease, h, hn]

theorem exec_xtalReady (env : CastEnv) {s : State} (h : s.pwr.good = true) (hn : s.pwr.resetN = false)
    (hw : s.sys.clockWait = true) : exec (.xtalReady env) s = .next (noting (runCastOn env) (countCastOn (clocksGood s))) := by
  show execXtalReady env s = _
  simp [execXtalReady, h, hn, hw]

theorem exec_powerGood_powered (env : CastEnv) {s : State} (h : s.pwr.good = true) : exec (.powerGood env) s = .next s := by
  show execPowerGood env s = _
  simp [execPowerGood, h]

theorem exec_reset {s : State} (hs : ctrlServed s = true) (hc : s.upd.commit = none) :
    exec (.reset 0x6A5C) s = .next (resetDevice causeHost (s.onSys fun x => { x with lastCmd := 7 })) :=
  congrArg Host.Outcome.next ((sysCmd_accepted hs 7 ctrlReset).trans (if_neg (by simp [hc])))

/-- A return of power-good ends with RESET_N asserted, or with the cast-on (R459, R479). -/
theorem exec_powerGood_unpowered (env : CastEnv) {s : State} (h : s.pwr.good = false) : ∃ u,
    (s.pwr.resetN = true → exec (.powerGood env) s = .next u) ∧
    (s.pwr.resetN = false → exec (.powerGood env) s = .next (noting (runCastOn env) (if s.pwr.aonLost then u else countCastOn u))) ∧
    u.pwr.good = true ∧ u.pwr.aonLost = false ∧ u.t.tbA = 0 ∧ u.t.runA = true ∧ u.mem = s.mem ∧ u.sout = s.sout ∧ u.otp = s.otp ∧
    u.sys.cause = (if s.pwr.aonLost then 1 else s.sys.cause ||| 2) := by
  have lost : ¬ s.pwr.good = true := ne_true_of_eq_false h
  show ∃ u, (_ → execPowerGood env s = _) ∧ (_ → execPowerGood env s = _) ∧ _
  unfold execPowerGood
  rw [if_neg lost]
  cases ha : s.pwr.aonLost <;>
    exact ⟨_, fun hn => congrArg _ (if_pos hn), fun hn => congrArg _ (if_neg (ne_true_of_eq_false hn)),
      rfl, rfl, rfl, rfl, rfl, rfl, rfl, rfl⟩

/-- The count of cast-ons, where it is made (R57), touches no clock, supply, fuse or cause. -/
theorem countCastOn_kept (por : Bool) (u : State) :
    let w := if por then u else countCastOn u
    w.pwr = u.pwr ∧ w.t = u.t ∧ w.otp = u.otp ∧ w.sys.cause = u.sys.cause := by
  cases por <;> exact ⟨rfl, rfl, rfl, rfl⟩

/-- Settles O43: each row by its equation, with what it leaves of a held device and of a cast-on that ends in TAP. -/
theorem resets : Obligations.Resets := by
  intro env s
  refine ⟨fun hg => ⟨?_, ?_, fun hn => ?_, fun hn => ?_, fun hn hw hk => ?_, fun hn hw hk ht => ?_, ?_⟩,
    fun hg => ⟨fun hn => ?_, fun hn hk => ?_, ?_⟩, fun hs hc => ?_⟩
  · exact ⟨_, exec_powerGoodLoss hg, heldReset_onPwr _ (heldReset_holdReset 0 s), rfl, BitVec.or_zero⟩
  · exact ⟨_, exec_aonLoss hg, heldReset_onPwr _ (heldReset_holdReset 0 s), rfl, rfl⟩
  · exact ⟨_, exec_resetNAssert hg hn, heldReset_onPwr _ (heldReset_holdReset causePin s), rfl, hg, rfl⟩
  · exact ⟨_, exec_resetNRelease hg hn, rfl, rfl, rfl, rfl, rfl, rfl, rfl⟩
  · obtain ⟨fab, held⟩ := noting_castOn_stuck hk (countCastOn (clocksGood s))
    refine ⟨_, exec_xtalReady env hg hn hw, ?_⟩
    rw [fab.sys, fab.pwr, fab.t]
    exact ⟨rfl, rfl, rfl, rfl, rfl, rfl, rfl, rfl, held⟩
  · exact ⟨_, exec_xtalReady env hg hn hw, noting_castOn_unresolved (s := countCastOn (clocksGood s)) hk ht⟩
  · exact exec_powerGood_powered env hg
  · obtain ⟨u, waits, -, spec⟩ := exec_powerGood_unpowered env hg
    exact ⟨u, waits hn, spec⟩
  · obtain ⟨u, -, casts, good, aon, tbA, runA, mem, sout, otp, cause⟩ := exec_powerGood_unpowered env hg
    obtain ⟨wpwr, wt, wotp, wcause⟩ := countCastOn_kept s.pwr.aonLost u
    obtain ⟨fab, off, -, -, cleared, fuses, -⟩ := noting_castOn_stuck hk (if s.pwr.aonLost then u else countCastOn u)
    refine ⟨_, casts hn, ?_⟩
    rw [fab.pwr, fab.t, fab.sys, fuses, wotp, otp]
    exact ⟨(congrArg PwrS.good wpwr).trans good, (congrArg TimeS.tbA wt).trans tbA, rfl, rfl, wcause.trans cause, cleared, off, rfl⟩
  · exact exec_powerGoodLoss_unpowered hg
  · exact ⟨_, exec_reset hs hc, heldReset_onSys _ (heldReset_holdReset causeHost _), rfl, rfl, rfl⟩

end Sys2Proof.Machine
end

section
/-! PROOFS. A PAIR_ACK that arrives while CK-XTAL does not clock the flash (files 01 and 12): the port's table changes, the settings
store does not. -/
namespace Sys2Proof.Machine

/-! ## A PAIR_ACK while the flash has no clock (R34, R333, R335) -/

theorem length_byteBits (l : List Byte) : (byteBits l).length = 8 * l.length := by
  simp [byteBits, List.length_flatMap, Nat.mul_comm]

theorem length_scramble (seed : BitVec 7) (l : List Bool) : (scramble seed l).length = l.length := by
  induction l generalizing seed with
  | nil => rfl
  | cons b l ih => exact congrArg (· + 1) (ih _)

/-- The scrambler adds no byte and drops none. -/
theorem length_onAir (f : List Byte) : (onAir f).length = f.length := by
  simp [onAir, bitsBytes, length_scramble, length_byteBits]

theorem wordBytes_bytesWord (a b c d : Byte) : wordBytes (bytesWord [a, b, c, d]) = [a, b, c, d] := by
  simp only [wordBytes, bytesWord, List.getD_cons_zero, List.getD_cons_succ, List.cons.injEq, and_true]
  refine ⟨?_, ?_, ?_, ?_⟩ <;> ext i hi <;> simp <;> grind

theorem halfBytes_bytesHalf (a b : Byte) : halfBytes (bytesHalf [a, b]) = [a, b] := by
  simp only [halfBytes, bytesHalf, List.getD_cons_zero, List.getD_cons_succ, List.cons.injEq, and_true]
  refine ⟨?_, ?_⟩ <;> ext i hi <;> simp <;> grind

/-- Six bytes or more are the header, the body and the CRC-16 of some received frame. -/
theorem exists_rxBytes {l : List Byte} (h : 6 ≤ l.length) : ∃ head body crc, rxBytes head body crc = l := by
  obtain ⟨a, b, c, d, t, rfl⟩ : ∃ a b c d t, l = a :: b :: c :: d :: t := by
    match l, h with
    | a :: b :: c :: d :: t, _ => exact ⟨a, b, c, d, t, rfl⟩
  obtain ⟨m, y, rfl⟩ := List.eq_nil_or_concat t |>.resolve_left (by rintro rfl; simp at h)
  obtain ⟨n, x, rfl⟩ := List.eq_nil_or_concat m |>.resolve_left (by rintro rfl; simp at h)
  exact ⟨bytesWord [a, b, c, d], n, bytesHalf [x, y], by simp [rxBytes, wordBytes_bytesWord, halfBytes_bytesHalf]⟩

/-- `u` is `s` in its update block, channel B and the supplies. -/
structure StoreKept (s u : State) : Prop where
  upd : u.upd = s.upd
  hld : u.hld = s.hld
  pwr : u.pwr = s.pwr

theorem StoreKept.refl (s : State) : StoreKept s s := ⟨rfl, rfl, rfl⟩

theorem StoreKept.trans {s t u : State} (h : StoreKept s t) (g : StoreKept t u) : StoreKept s u :=
  ⟨g.upd.trans h.upd, g.hld.trans h.hld, g.pwr.trans h.pwr⟩

theorem Fab.storeKept {s u : State} (h : Fab s u) : StoreKept s u := ⟨h.upd, h.hld, h.pwr⟩

theorem StoreKept.onP (p : Fin 4) (f : CscPort → CscPort) (s : State) : StoreKept s (s.onP p f) := ⟨rfl, rfl, rfl⟩

theorem StoreKept.onCsc (f : CscS → CscS) (s : State) : StoreKept s (s.onCsc f) := ⟨rfl, rfl, rfl⟩

theorem setEntry_storeKept (p : Fin 4) (a : BitVec 10) (f : Partner → Partner) (s : State) : StoreKept s (setEntry p a f s) := by
  unfold setEntry
  dsimp only
  split_ifs
  · exact StoreKept.refl s
  · exact StoreKept.onP ..
  · exact (StoreKept.onP ..).trans (raise_fab ..).storeKept

theorem endJob_storeKept (p : Fin 4) (r : BitVec 4) (s : State) : StoreKept s (endJob p r s) :=
  ((StoreKept.onP ..).trans (StoreKept.onCsc ..)).trans (raise_fab ..).storeKept

theorem logPairing_storeKept (p : Fin 4) (a : BitVec 10) (s : State) : StoreKept s (logPairing p a s) :=
  StoreKept.trans (t := s.takeFree.2) ⟨rfl, rfl, rfl⟩ (logPut_fab ..).storeKept

/-- Without a clock the flash takes no pairing record (R34, R335). -/
theorem storeTab_stopped {s : State} (h : flashRuns s = false) (p : Fin 4) : storeTab p s = s := by
  simp [storeTab, State.keepRec, h]

/-- A port without its transmit enable begins no item. -/
theorem nextItem_disabled {p : Fin 4} {s : State} (h : txEn s p = false) : nextItem p s = s := by
  simp [nextItem, h]

/-- A confirmed pairing, and a confirmed re-pairing, write nothing to a flash without a clock. -/
theorem ackPair_storeKept {p : Fin 4} {s : State} (hf : flashRuns s = false) (ht : txEn s p = false) (a : BitVec 10)
    (sn : BitVec 48) (crc : Word) : StoreKept s (ackPair p a sn crc s) := by
  have begins : ∀ {u}, StoreKept s u → StoreKept s (nextItem p u) := fun {u} h => by
    rw [nextItem_disabled (by rw [txEn, h.hld]; exact ht)]; exact h
  have stores : ∀ {u}, StoreKept s u → StoreKept s (storeTab p u) := fun {u} h => by
    rw [storeTab_stopped (by rw [flashRuns, h.pwr]; exact hf)]; exact h
  unfold ackPair
  dsimp only
  split
  · split
    · split
      · exact begins <| (stores <| (StoreKept.onP ..).trans (setEntry_storeKept ..)).trans
          (logPairing_storeKept ..) |>.trans (endJob_storeKept ..)
      · exact StoreKept.refl s
    · exact StoreKept.refl s
  · split
    · split
      · exact begins (StoreKept.onP ..)
      · exact StoreKept.refl s
    · exact StoreKept.refl s
  all_goals exact StoreKept.refl s

theorem pairAck_storeKept {p : Fin 4} {s : State} (hf : flashRuns s = false) (ht : txEn s p = false) (raw : List Byte) :
    StoreKept s (pairAck p raw s) := by
  unfold pairAck
  split
  · exact StoreKept.onP ..
  · split
    · exact ackPair_storeKept hf ht ..
    · exact StoreKept.refl s
  · exact StoreKept.refl s

/-- Port 0 waits for the PAIR_ACK of address 0 with serial 0, while CK-XTAL does not clock the flash. -/
def pairingUnclocked : State :=
  { csc := { p := Tab.fill 4 { wait := .pair true, job := some (.pair 0 0 1) } }, pwr := { xtalOk := false } }

/-- Refutes O31: on `pairingUnclocked` the PAIR_ACK that PAIR asks for makes the address paired in the port's table, but the record
of R335 is not written, since the flash does not answer (R34): the settings store holds no entry of the address. -/
theorem not_carrierCommands : ¬ Obligations.CarrierCommands := by
  rintro ⟨acked, -⟩
  let s := pairingUnclocked
  have passed : symbolsPassed 0 1 s = true := by decide
  let crc := crc32c (pairBody s 0 0 0)
  obtain ⟨head, body, tail, received⟩ : ∃ head body tail,
      rxBytes head body tail = onAir (cscFrame 6 0 (snBytes 0 ++ wordBytes crc)) :=
    exists_rxBytes (by simp [length_onAir, cscFrame, halfBytes, snBytes])
  obtain ⟨paired, -⟩ := acked 0 0 0 1 crc head body tail s rfl rfl passed
  obtain ⟨u, run, -, -, -, entry, stored⟩ := paired received rfl rfl
  have ran : exec (.pairAck 0 head body tail) s = .next (pairAck 0 (rxBytes head body tail) s) := congrArg _ (if_pos passed)
  obtain rfl : pairAck 0 (rxBytes head body tail) s = u := by simpa [ran] using run
  have kept : StoreKept s (pairAck 0 (rxBytes head body tail) s) := pairAck_storeKept rfl rfl _
  rw [entry, kept.upd] at stored
  exact absurd (congrArg Partner.entry stored) (by decide)

end Sys2Proof.Machine
end

section
/-! PROOFS. The update commands (O49): the frame that the update engine keeps, the lease rows as one call of their dispatcher, and what
    a cast-on of a held device leaves. -/
namespace Sys2Proof

/-- A key that no entry names holds the value of an unlisted key. -/
theorem Sparse.get_of_forall_ne {α : Type} {d : α} {m : Sparse α} {k : Nat} (h : ∀ e ∈ m, e.1 ≠ k) : get d m k = d := by
  induction m with
  | nil => rfl
  | cons e m ih =>
    obtain ⟨ne, rest⟩ := List.forall_mem_cons.mp h
    obtain ⟨j, x⟩ := e
    simp only [get, if_neg ne, ih rest, ite_self]

end Sys2Proof

namespace Sys2Proof.Machine

/-! ## Nothing but the update block -/

theorem onlyUpd_refl (s : State) : onlyUpd s s := ⟨rfl, rfl, rfl, rfl, rfl, rfl, rfl, rfl, rfl, rfl⟩

theorem onlyUpd_onUpd {s t : State} (f : UpdS → UpdS) (h : onlyUpd s t) : onlyUpd s (t.onUpd f) := h

theorem onlyUpd_trans {s t u : State} (h : onlyUpd s t) (g : onlyUpd t u) : onlyUpd s u := by
  obtain ⟨mem, sys, sin, sout, hld, otp, csl, csc, alp, t⟩ := g
  rw [onlyUpd, mem, sys, sin, sout, hld, otp, csl, csc, alp, t]
  exact h

theorem Fab.onlyUpd {s t u : State} (h : Fab t u) (g : onlyUpd s t) : onlyUpd s u := by
  rw [Machine.onlyUpd, h.mem, h.sys, h.sin, h.sout, h.hld, h.otp, h.csl, h.csc, h.alp, h.t]
  exact g

@[simp] theorem logPut_upd (k : Nat) (c : FaultClass) (sc : BitVec 4) (code : Half) (w : Word) (s : State) :
    (logPut k c sc code w s).upd = s.upd := rfl

/-- A log record and an event, as the update block notes what it does (R430, R431). -/
theorem noted_fab (ev k : Nat) (c : FaultClass) (sc : BitVec 4) (code : Half) (w : Word) (s : State) :
    Fab s (raise ev (logPut k c sc code w s)) := (logPut_fab ..).trans (raise_fab ..)

/-! ## The lease (R422, R423) -/

/-- What the end of a held lease leaves of the update block. -/
def leaseEnded (u : UpdS) : UpdS := { voidTarget u with owner := 0, phase := .idle }

theorem voidTarget_result (u : UpdS) : (voidTarget u).result = u.result := by unfold voidTarget; split <;> rfl

theorem endLease_upd {s : State} (h : s.upd.owner ≠ 0) (reason : Nat) : (endLease reason s).upd = leaseEnded s.upd := by
  rw [endLease, if_neg h, raise_upd, logPut_upd]; rfl

theorem endLease_owner (reason : Nat) (s : State) : (endLease reason s).upd.owner = 0 := by
  by_cases h : s.upd.owner = 0
  · rw [endLease, if_pos h, h]
  · rw [endLease_upd h]; rfl

theorem endLease_result (reason : Nat) (s : State) : (endLease reason s).upd.result = s.upd.result := by
  by_cases h : s.upd.owner = 0
  · rw [endLease, if_pos h]
  · rw [endLease_upd h]; exact voidTarget_result _

theorem endLease_onlyUpd (reason : Nat) (s : State) : onlyUpd s (endLease reason s) := by
  unfold endLease
  split
  · exact onlyUpd_refl s
  · exact (noted_fab ..).onlyUpd (onlyUpd_onUpd _ (onlyUpd_refl s))

theorem owner_of_holdsLease {s : State} {src : Src} (h : holdsLease s src = true) : s.upd.owner ≠ 0 := by
  simp only [holdsLease, Bool.and_eq_true, bne_iff_ne] at h; exact h.1

/-- A failed update keeps its result, and the lease is over (R423). -/
theorem updFail_spec (r : BitVec 4) (s : State) : (updFail r s).upd.result = r ∧ (updFail r s).upd.owner = 0 ∧
    (updFail r s).upd.phase = .failed ∧ onlyUpd s (updFail r s) :=
  ⟨endLease_result .., endLease_owner .., rfl,
    onlyUpd_onUpd _ (endLease_onlyUpd 3 (updResult r s))⟩

/-! ## Writes of UPD_CMD (R422) -/

/-- The rows of UPD_CMD that only the owner of the lease gives, with what each does for the owner. -/
def leasedRows (src : Src) (key : Half) (target : BitVec 2) (p : PulseEnv) : List (Instr × (State → State)) :=
  [(.updBegin src key target, updBegin target), (.verify src key, updVerify), (.activate src key p, updActivate p),
   (.abort src key, updAbort), (.lifecycle src key p, updLifecycle p)]

/-- While the link serves them, these rows are writes of UPD_CMD. -/
theorem exec_leasedRows {s : State} (h : ctrlServed s = true) (src : Src) (key : Half) (target : BitVec 2) (p : PulseEnv) :
    ∀ r ∈ leasedRows src key target p, exec r.1 s = .next (updCmd src key true r.2 s) := by
  have served : ∀ f : State → State, Host.Outcome.next (φ := Fault) (ρ := Refusal) (if ctrlServed s then updCmd src key true f s else s) =
      .next (updCmd src key true f s) := fun f => congrArg _ (if_pos h)
  simp only [leasedRows, List.forall_mem_cons, List.not_mem_nil, false_implies, implies_true, and_true]
  exact ⟨served _, served _, served _, served _, served _⟩

theorem updCmd_wrongKey {src : Src} {key : Half} (h : key ≠ 0x9E3D) (needs : Bool) (f : State → State) (s : State) :
    updCmd src key needs f s = wrongKey src s := if_pos h

theorem updCmd_unleased {src : Src} {s : State} (h : holdsLease s src = false) (f : State → State) :
    updCmd src 0x9E3D true f s = updResult 3 s := by simp [updCmd, h]

theorem updCmd_owner {src : Src} {s : State} (h : holdsLease s src = true) (f : State → State) :
    updCmd src 0x9E3D true f s = f (touchLease s) := by simp [updCmd, h]

/-- What the rows do for the owner of the lease, who gives them with the right key. -/
theorem exec_owner {s : State} (hs : ctrlServed s = true) {src : Src} (hl : holdsLease s src = true) (target : BitVec 2) (p : PulseEnv) :
    exec (.updBegin src 0x9E3D target) s = .next (updBegin target (touchLease s)) ∧
    exec (.verify src 0x9E3D) s = .next (updVerify (touchLease s)) ∧
    exec (.activate src 0x9E3D p) s = .next (updActivate p (touchLease s)) ∧
    exec (.abort src 0x9E3D) s = .next (updAbort (touchLease s)) ∧
    exec (.lifecycle src 0x9E3D p) s = .next (updLifecycle p (touchLease s)) := by
  have rows : ∀ r ∈ leasedRows src 0x9E3D target p, exec r.1 s = .next (r.2 (touchLease s)) := fun r hr => by
    rw [exec_leasedRows hs src _ target p r hr, updCmd_owner hl]
  simpa only [leasedRows, List.forall_mem_cons, List.not_mem_nil, false_implies, implies_true, and_true] using rows

theorem exec_windowWrite_unleased {s : State} (hs : ctrlServed s = true) {src : Src} (hl : holdsLease s src = false) (words : List Word) :
    exec (.windowWrite src words) s = .next (updResult 3 s) := by
  show execWindowWrite src words s = _
  simp [execWindowWrite, writeWindow, hs, hl]

theorem exec_windowWrite_owner {s : State} (hs : ctrlServed s = true) {src : Src} (hl : holdsLease s src = true) (words : List Word) :
    exec (.windowWrite src words) s = .next (windowWrite (words.take 64) (touchLease s)) := by
  show execWindowWrite src words s = _
  simp [execWindowWrite, writeWindow, hs, hl]

/-! ## BEGIN and ERASE_DONE (R424) -/

theorem updBegin_stopped {s : State} (he : s.upd.phase ≠ .erasing) (hv : s.upd.phase ≠ .verifying) (hf : flashRuns s = false)
    (target : BitVec 2) : updBegin target s = updResult 2 s := by simp [updBegin, he, hv, hf]

theorem updBegin_noArea {s : State} (he : s.upd.phase ≠ .erasing) (hv : s.upd.phase ≠ .verifying) (hf : flashRuns s = true) :
    updBegin 3 s = updResult 5 s := by simp [updBegin, he, hv, hf]

/-- What BEGIN of a slot leaves of the update block. -/
def begun (target : BitVec 2) : UpdS → UpdS := fun u =>
  { u with
    target := target, offset := 0, phase := .erasing, result := 1
    flash := flashErase (areaOf target.toNat).1 0x600000 u.flash
    slot := u.slot.upd (Fin.ofNat 3 target.toNat) fun _ => {} }

theorem slotArea {target : BitVec 2} (h : target.toNat < 2) : (areaOf target.toNat).2 = 0x600000 := by
  generalize target.toNat = n at h
  match n, h with
  | 0, _ | 1, _ => rfl

theorem updBegin_slot {s : State} {target : BitVec 2} (he : s.upd.phase ≠ .erasing) (hv : s.upd.phase ≠ .verifying)
    (hf : flashRuns s = true) (hn : target.toNat < 2) (hr : s.upd.running ≠ some target) (ht : s.upd.trial = false)
    (ha : s.upd.arg.toNat ≤ 0x600000) : updBegin target s = s.onUpd (begun target) := by
  have slot : target ≠ 3#2 := by rintro rfl; exact absurd hn (by decide)
  have fits : ¬ 0x600000 < s.upd.arg.toNat := by omega
  simp [updBegin, he, hv, hf, hn, hr, ht, slot, fits, slotArea hn]
  rfl

theorem flashAt_flashErase {f : Sparse Byte} {base n a : Nat} (h1 : base ≤ a) (h2 : a < base + n) :
    flashAt (flashErase base n f) a = 0xFF := by
  refine Sparse.get_of_forall_ne fun e he ha => ?_
  have := (List.mem_filter.mp he).2
  simp only [Bool.or_eq_true, decide_eq_true_eq] at this
  omega

theorem mem_flashErase {f : Sparse Byte} {base n : Nat} {e : Nat × Byte} (h : e ∈ f) (ho : e.1 < base ∨ base + n ≤ e.1) :
    e ∈ flashErase base n f := List.mem_filter.mpr ⟨h, by simpa using ho⟩

theorem begun_slot {target : BitVec 2} (h : target.toNat < 2) (u : UpdS) :
    ((begun target u).slot.getN target.toNat {}).valid = false := by
  have three : target.toNat < 3 := by omega
  rw [Tab.getN_lt _ ⟨target.toNat, three⟩]
  simp [begun, three]

theorem exec_eraseDone_idle {s : State} (h : s.upd.phase ≠ .erasing ∨ flashRuns s = false) : exec .eraseDone s = .next s := by
  show execEraseDone s = _
  rcases h with h | h <;> simp [execEraseDone, h]

theorem exec_eraseDone {s : State} (h : s.upd.phase = .erasing) (hf : flashRuns s = true) :
    exec .eraseDone s = .next (raise 122 (s.onUpd fun u => { u with phase := .receiving, result := 0 })) := by
  show execEraseDone s = _
  simp [execEraseDone, h, hf]

/-! ## Window words and VERIFY (R424) -/

theorem windowWrite_elsewhere {s : State} (h : s.upd.phase ≠ .receiving ∨ flashRuns s = false) (words : List Word) :
    windowWrite words s = updResult 2 s := by
  rcases h with h | h <;> simp [windowWrite, h]

theorem windowWrite_beyond {s : State} {words : List Word} (h : s.upd.phase = .receiving) (hf : flashRuns s = true)
    (hr : min s.upd.arg.toNat (areaOf s.upd.target.toNat).2 < s.upd.offset.toNat + 4 * words.length) :
    windowWrite words s = updFail 9 s := by
  simp only [windowWrite, h, hf, if_pos hr]; rfl

theorem windowWrite_within {s : State} {words : List Word} (h : s.upd.phase = .receiving) (hf : flashRuns s = true)
    (hr : s.upd.offset.toNat + 4 * words.length ≤ min s.upd.arg.toNat (areaOf s.upd.target.toNat).2) :
    windowWrite words s = s.onUpd fun u => { u with
      flash := flashWrite ((areaOf u.target.toNat).1 + u.offset.toNat) (words.flatMap wordBytes) u.flash
      offset := u.offset + BitVec.ofNat 32 (4 * words.length) } := by
  simp only [windowWrite, h, hf, if_neg (Nat.not_lt.mpr hr)]; rfl

theorem updVerify_elsewhere {s : State} (h : s.upd.phase ≠ .receiving ∨ flashRuns s = false) : updVerify s = updResult 2 s := by
  rcases h with h | h <;> simp [updVerify, h]

theorem updVerify_short {s : State} (h : s.upd.phase = .receiving) (hf : flashRuns s = true) (ho : s.upd.offset ≠ s.upd.arg) :
    updVerify s = updResult 5 s := by simp [updVerify, h, hf, ho]

theorem updVerify_whole {s : State} (h : s.upd.phase = .receiving) (hf : flashRuns s = true) (ho : s.upd.offset = s.upd.arg) :
    updVerify s = s.onUpd fun u => { u with phase := .verifying, result := 1 } := by simp [updVerify, h, hf, ho]

theorem exec_verifyEnd_idle {s : State} (h : s.upd.phase ≠ .verifying ∨ flashRuns s = false) : exec .verifyEnd s = .next s := by
  show execVerifyEnd s = _
  rcases h with h | h <;> simp [execVerifyEnd, h]

theorem verifyResult_eq_zero {n : Nat} : verifyResult n = 0 ↔ n = 0 := by unfold verifyResult; split_ifs <;> simp_all

/-- The end of VERIFY keeps the image, or drops it with the lease, by its first failing check. -/
theorem exec_verifyEnd {s : State} (h : s.upd.phase = .verifying) (hf : flashRuns s = true) :
    let n := (firstChecks s s.upd.target.toNat).2
    ∃ u, exec .verifyEnd s = .next u ∧ onlyUpd s u ∧ u.upd.result = verifyResult n ∧
      u.upd.phase = (if n = 0 then .verified else .failed) ∧ (n ≠ 0 → u.upd.owner = 0) := by
  intro n
  let t := raise 122 <| logPut 4 .counted 0 0x0003 ((verifyResult n).zeroExtend 32) (noteSlot s.upd.target.toNat s)
  have noted : onlyUpd s t := (noted_fab ..).onlyUpd (onlyUpd_onUpd _ (onlyUpd_refl s))
  have run : exec .verifyEnd s = .next (if verifyResult n = 0 then t.onUpd fun u => { u with phase := .verified, result := 0 }
      else updFail (verifyResult n) t) := by
    show execVerifyEnd s = _
    simp [execVerifyEnd, h, hf, t, n]
  by_cases hn : n = 0
  · rw [if_pos (verifyResult_eq_zero.mpr hn)] at run
    exact ⟨_, run, onlyUpd_onUpd _ noted, (verifyResult_eq_zero.mpr hn).symm, (if_pos hn).symm, fun h => absurd hn h⟩
  · rw [if_neg (mt verifyResult_eq_zero.mp hn)] at run
    obtain ⟨result, owner, phase, only⟩ := updFail_spec (verifyResult n) t
    exact ⟨_, run, onlyUpd_trans noted only, result, phase.trans (if_neg hn).symm, fun _ => owner⟩

/-! ## ACTIVATE and ABORT (R424) -/

/-- A reset that leaves power-good in force holds the device, and the cast-on waits for the clocks (R459). -/
theorem resetDevice_held (causes : BitVec 7) (s : State) : heldReset s (resetDevice causes s) ∧
    (resetDevice causes s).sys.clockWait = true ∧ (resetDevice causes s).sys.cause = s.sys.cause ||| causes :=
  ⟨heldReset_onSys _ (heldReset_holdReset causes s), rfl, rfl⟩

theorem updActivate_elsewhere {s : State} (h : s.upd.phase ≠ .verified ∨ flashRuns s = false) (p : PulseEnv) :
    updActivate p s = updResult 2 s := by
  rcases h with h | h <;> simp [updActivate, h]

theorem resolveIntents_roomy {s : State} (h : compactDue s.upd = false) (p : PulseEnv) : resolveIntents p s = s := by
  simp [resolveIntents, h]

theorem updActivate_slot {s : State} {m : Img} (h : s.upd.phase = .verified) (hf : flashRuns s = true) (ht : s.upd.target.toNat < 2)
    (hr : s.sys.runState = .safeHold ∨ s.sys.runState = .service) (hm : readImage s.upd.flash s.upd.target.toNat = some m)
    (p : PulseEnv) : updActivate p s = activateSlot p m s := by
  have slot : s.upd.target.toNat ≠ 2 := by omega
  rcases hr with hr | hr <;> simp [updActivate, h, hf, hr, hm, slot]

/-- ACTIVATE of a slot casts on with cause UPDATE and leaves the fuses. -/
theorem activateSlot_held {s : State} (h : compactDue s.upd = false) (p : PulseEnv) (m : Img) : ∃ t, onlyUpd s t ∧
    activateSlot p m s = resetDevice causeUpdate t := by
  refine ⟨_, ?_, rfl⟩
  rw [resolveIntents_roomy h]
  exact onlyUpd_trans (onlyUpd_onUpd _ ((noted_fab ..).onlyUpd (onlyUpd_onUpd _ (onlyUpd_refl s)))) (endLease_onlyUpd ..)

/-- ABORT ends the lease that its source holds. -/
theorem updAbort_spec {s : State} (h : s.upd.owner ≠ 0) : (updAbort s).upd.owner = 0 ∧ (updAbort s).upd.result = 0 ∧
    (updAbort s).upd.phase = .idle ∧ onlyUpd s (updAbort s) :=
  ⟨endLease_owner .., endLease_result .., congrArg UpdS.phase (endLease_upd (s := updResult 0 s) h 3), endLease_onlyUpd 3 (updResult 0 s)⟩

/-- Settles O49: each row as what it does for the owner of the lease, which has just written, and for every other source. -/
theorem updateCommands : Obligations.UpdateCommands := by
  intro src key target p words s hs t res
  have next {u v : State} (h : u = v) : Host.Outcome.next (φ := Fault) (ρ := Refusal) u = .next v := congrArg _ h
  refine ⟨fun i hi => ⟨fun hk => ?_, fun hk hl => ?_⟩, fun hl => exec_windowWrite_unleased hs hl words, fun hl => ?_, fun hp hf => ?_,
    exec_eraseDone_idle, exec_verifyEnd, exec_verifyEnd_idle⟩
  · obtain ⟨r, hr, rfl⟩ := List.mem_map.mp (show i ∈ (leasedRows src key target p).map Prod.fst from hi)
    rw [exec_leasedRows hs src key target p r hr, updCmd_wrongKey hk]; rfl
  · subst hk
    obtain ⟨r, hr, rfl⟩ := List.mem_map.mp (show i ∈ (leasedRows src 0x9E3D target p).map Prod.fst from hi)
    rw [exec_leasedRows hs src _ target p r hr, updCmd_unleased hl]; rfl
  · obtain ⟨begins, verifies, activates, aborts, -⟩ := exec_owner hs hl target p
    have writes := exec_windowWrite_owner hs hl words
    refine ⟨fun he hv => ⟨fun hf => ?_, fun hf ht => ?_, fun hf hn hr ht ha => ?_⟩,
      fun hp hf => ⟨fun ho => ?_, fun ho => ?_, fun ho => ?_, fun ho => ?_⟩, fun hp => ⟨?_, ?_⟩, fun hp => ?_,
      fun hp hf hc hn hr hm => ?_, ?_⟩
    · exact begins.trans (next (updBegin_stopped (s := touchLease s) he hv hf target))
    · subst ht; exact begins.trans (next (updBegin_noArea (s := touchLease s) he hv hf))
    · exact ⟨_, begins.trans (next (updBegin_slot (s := touchLease s) he hv hf hn hr ht ha)), onlyUpd_onUpd _ (onlyUpd_refl s),
        rfl, rfl, rfl, rfl, begun_slot hn _, fun a => flashAt_flashErase, fun e => mem_flashErase⟩
    · obtain ⟨result, lease, phase, only⟩ := updFail_spec 9 (touchLease s)
      exact ⟨_, writes.trans (next (windowWrite_beyond (s := touchLease s) hp hf ho)), result, lease, phase, only⟩
    · exact writes.trans (next (windowWrite_within (s := touchLease s) hp hf ho))
    · exact verifies.trans (next (updVerify_whole (s := touchLease s) hp hf ho))
    · exact verifies.trans (next (updVerify_short (s := touchLease s) hp hf ho))
    · exact verifies.trans (next (updVerify_elsewhere (s := touchLease s) hp))
    · exact writes.trans (next (windowWrite_elsewhere (s := touchLease s) hp _))
    · exact activates.trans (next (updActivate_elsewhere (s := touchLease s) hp p))
    · obtain ⟨m, hm⟩ := Option.ne_none_iff_exists'.mp hm
      obtain ⟨v, ⟨-, sys, -, -, -, otp, -⟩, casts⟩ := activateSlot_held (s := touchLease s) hc p m
      obtain ⟨⟨off, -, -, mem, fuses, -⟩, waits, cause⟩ := resetDevice_held causeUpdate v
      refine ⟨_, activates.trans (next ((updActivate_slot (s := touchLease s) hp hf hn hr hm p).trans casts)), waits, ?_, off, mem, ?_⟩
      · rw [cause, sys]; rfl
      · rw [fuses, otp]; rfl
    · exact ⟨_, aborts, updAbort_spec (s := touchLease s) (owner_of_holdsLease hl)⟩
  · exact ⟨_, exec_eraseDone hp hf, raise_upd .., (raise_fab ..).onlyUpd (onlyUpd_onUpd _ (onlyUpd_refl s))⟩

end Sys2Proof.Machine
end

section
/-! PROOFS. The steps of a commit and of a change of life-cycle (O47): what programming leaves of the fuse array, what the journal's
    markers leave of the update block, and the ends of a commit. -/
namespace Sys2Proof

@[simp] theorem bit_or {n : Nat} (x y : BitVec n) (i : Nat) : bit (x ||| y) i = (bit x i || bit y i) := BitVec.getLsbD_or

@[simp] theorem bit_and {n : Nat} (x y : BitVec n) (i : Nat) : bit (x &&& y) i = (bit x i && bit y i) := BitVec.getLsbD_and

theorem bit_not {n i : Nat} (h : i < n) (x : BitVec n) : bit (~~~x) i = !bit x i := by
  simp [bit, h]

theorem bit_two_pow {k i : Nat} (h : i < 32) : bit (BitVec.ofNat 32 (2 ^ k)) i = decide (k = i) := by
  show (BitVec.ofNat 32 (2 ^ k)).getLsbD i = _
  rw [BitVec.getLsbD_ofNat, Nat.testBit_two_pow, decide_eq_true h, Bool.true_and]

/-- One bit is cleared by a mask exactly where the mask's word has it. -/
theorem two_pow_and_not_eq_zero {x : Word} {k : Nat} (h : bit x k = true) : BitVec.ofNat 32 (2 ^ k) &&& ~~~x = 0 := by
  refine BitVec.eq_of_getLsbD_eq fun i hi => ?_
  show bit (BitVec.ofNat 32 (2 ^ k) &&& ~~~x) i = bit 0 i
  rw [bit_and, bit_two_pow hi, bit_not hi]
  have zero : bit 0#32 i = false := BitVec.getLsbD_zero
  by_cases hk : k = i
  · rw [← hk, h]; simpa [hk] using zero
  · simp [hk, zero]

end Sys2Proof

namespace Sys2Proof.Machine

/-! ## Nothing but the fuse array -/

theorem onlyOtp_refl (s : State) : onlyOtp s s := ⟨rfl, rfl, rfl, rfl, rfl, rfl, rfl, rfl, rfl, rfl, rfl, rfl⟩

theorem onlyOtp_trans {s t u : State} (h : onlyOtp s t) (g : onlyOtp t u) : onlyOtp s u := by
  obtain ⟨mem, sys, sin, sout, hld, pwr, csl, csc, alp, upd, t, shadow⟩ := g
  rw [onlyOtp, mem, sys, sin, sout, hld, pwr, csl, csc, alp, upd, t, shadow]
  exact h

theorem onlyOtp_onOtp {f : OtpS → OtpS} (hf : ∀ o, (f o).shadow = o.shadow) (s : State) : onlyOtp s (s.onOtp f) :=
  ⟨rfl, rfl, rfl, rfl, rfl, rfl, rfl, rfl, rfl, rfl, rfl, hf _⟩

theorem Fab.onlyOtp {s u : State} (h : Fab s u) : onlyOtp s u :=
  ⟨h.mem, h.sys, h.sin, h.sout, h.hld, h.pwr, h.csl, h.csc, h.alp, h.upd, h.t, by rw [h.otp]⟩

/-- The words of the array are as they were, and nothing but what an alarm changes differs. -/
structure FusesKept (s u : State) : Prop where
  only : onlyOtp s u
  words : u.otp.w = s.otp.w

theorem FusesKept.refl (s : State) : FusesKept s s := ⟨onlyOtp_refl s, rfl⟩

theorem FusesKept.trans {s t u : State} (h : FusesKept s t) (g : FusesKept t u) : FusesKept s u :=
  ⟨onlyOtp_trans h.only g.only, g.words.trans h.words⟩

theorem FusesKept.onOtp {f : OtpS → OtpS} (hs : ∀ o, (f o).shadow = o.shadow) (hw : ∀ o, (f o).w = o.w) (s : State) :
    FusesKept s (s.onOtp f) := ⟨onlyOtp_onOtp hs s, hw _⟩

theorem Fab.fusesKept {s u : State} (h : Fab s u) : FusesKept s u := ⟨h.onlyOtp, by rw [h.otp]⟩

theorem otpAlarm_kept (cls : FaultClass) (r : Nat) (s : State) : FusesKept s (otpAlarm cls r s) := by
  have alarmed := FusesKept.onOtp (f := fun o => { o with alarm := setBit o.alarm r true }) (fun _ => rfl) (fun _ => rfl) s
  exact alarmed.trans ((report_fab ..).trans (raise_fab ..)).fusesKept

theorem otpDone_kept (s : State) : FusesKept s (otpDone s) := by
  have ended := FusesKept.onOtp (f := fun o => { o with busy := false, result := o.ending }) (fun _ => rfl) (fun _ => rfl) s
  unfold otpDone
  split
  · exact ended.trans (raise_fab ..).fusesKept
  · exact FusesKept.refl s

theorem leftWeak_kept (a : Nat) (req : Word) (s : State) : FusesKept s (leftWeak a req s) := by
  unfold leftWeak
  dsimp only
  split_ifs
  · exact FusesKept.refl s
  · exact otpAlarm_kept ..
  · exact ⟨onlyOtp_onOtp (fun _ => rfl) s, rfl⟩

/-! ## Programming (R390, R393) -/

theorem otpProgram_onlyOtp (p : PulseEnv) (a : Nat) (req : Word) (s : State) : onlyOtp s (otpProgram p a req s).2 :=
  onlyOtp_trans (onlyOtp_onOtp (f := OtpS.pulse p a req) (fun _ => rfl) s) (leftWeak_kept ..).only

/-- Pulses change one word: the bits asked for that read 0 and that the pulses do not leave blank. -/
theorem otpProgram_fuse (p : PulseEnv) (a b : Nat) (req : Word) {s : State} (h : Sparse.wf {} s.otp.w = true) :
    (otpProgram p a req s).2.otp.fuse b =
      if b = a then
        let f := s.otp.fuse a
        let new := req &&& ~~~f.n &&& ~~~p.blank
        { n := f.n ||| new, t := f.t ||| (new &&& ~~~p.weak) }
      else s.otp.fuse b := by
  show Sparse.get {} (leftWeak ..).otp.w b = _
  rw [(leftWeak_kept ..).words]
  exact Sparse.get_put h

/-- One bit after its pulses. -/
theorem otpProgram_bit (p : PulseEnv) (a : Nat) {k : Nat} (hk : k < 32) {s : State} (h : Sparse.wf {} s.otp.w = true) :
    bit ((otpProgram p a (BitVec.ofNat 32 (2 ^ k)) s).2.otp.fuse a).n k = (bit (s.otp.fuse a).n k || !bit p.blank k) := by
  rw [otpProgram_fuse p a a _ h, if_pos rfl]
  simp only [bit_or, bit_and, bit_not hk, bit_two_pow hk]
  cases bit (s.otp.fuse a).n k <;> simp

/-- A sequence whose bit reads 1 afterwards has result 0. -/
theorem otpProgram_ok {p : PulseEnv} {a k : Nat} {s : State}
    (h : bit ((otpProgram p a (BitVec.ofNat 32 (2 ^ k)) s).2.otp.fuse a).n k = true) :
    (otpProgram p a (BitVec.ofNat 32 (2 ^ k)) s).1 = 0 := if_pos (two_pow_and_not_eq_zero h)

theorem otpAdvance_onlyOtp (p : PulseEnv) (r w n : Nat) (s : State) : onlyOtp s (otpAdvance p r w n s).2 := by
  unfold otpAdvance
  generalize (if r = 3 then 5 else 32 * n) = top
  dsimp only
  split
  · exact onlyOtp_refl s
  · split
    · exact onlyOtp_refl s
    · exact onlyOtp_trans (otpDone_kept s).only (otpProgram_onlyOtp ..)

/-- A thermometer that is neither full nor stickily locked is programmed at its count. -/
theorem otpAdvance_eq {p : PulseEnv} {r w n c : Nat} {s : State} (hc : s.otp.count r w n = c)
    (hf : c < if r = 3 then 5 else 32 * n) (hs : bit s.otp.sticky r = false) :
    otpAdvance p r w n s = otpProgram p (otpAddr r (w + c / 32)) (BitVec.ofNat 32 (2 ^ (c % 32))) (otpDone s) := by
  simp only [otpAdvance, hc, hs, if_neg (Nat.not_le.mpr hf)]
  rfl

theorem repulseBit_onlyOtp (p : PulseEnv) (cls : FaultClass) (i : Nat) (s : State) : onlyOtp s (repulseBit p cls i s) := by
  have pulsed := onlyOtp_onOtp (f := fun o => { o.repulse p (i / 32) (BitVec.ofNat 32 (2 ^ (i % 32))) with weak := o.weak.filter (· != i) })
    (fun _ => rfl) s
  unfold repulseBit
  dsimp only
  split
  · exact pulsed
  · exact onlyOtp_trans pulsed (otpAlarm_kept ..).only

/-! ## What markers leave of the update block (R409, R410) -/

/-- The commit under way and the trial, which no marker of the journal changes. -/
def commitPart (u : UpdS) : Option Commit × Bool × Bool := (u.commit, u.trial, u.rule)

theorem commitPart_eq_iff {u v : UpdS} : commitPart u = commitPart v ↔ u.commit = v.commit ∧ u.trial = v.trial ∧ u.rule = v.rule := by
  simp only [commitPart, Prod.mk.injEq]

@[simp] theorem commitPart_putMarker (ty slot : Byte) (arg : Word) (pay : List Byte) (u : UpdS) :
    commitPart (putMarker ty slot arg pay u) = commitPart u := by unfold putMarker commitPart; rfl

@[simp] theorem commitPart_readJournal (u : UpdS) : commitPart (readJournal u) = commitPart u := by unfold readJournal commitPart; rfl

theorem commitPart_gen (g : Word) (u : UpdS) : commitPart { u with gen := g } = commitPart u := rfl

theorem commitPart_compact (u : UpdS) : commitPart (compact u) = commitPart u := by
  have kept : ∀ (l : List Marker) (v : UpdS), commitPart (l.foldl (fun u m => putMarker m.ty m.slot m.arg m.payload u) v) = commitPart v := by
    intro l
    induction l with
    | nil => exact fun v => rfl
    | cons m l ih => exact fun v => (ih _).trans (commitPart_putMarker ..)
  have opened : commitPart (openSector (!u.sector) u) = commitPart u := rfl
  unfold compact
  rw [commitPart_gen, commitPart_putMarker, kept, opened]

@[simp] theorem commitPart_writeMarker (ty slot : Byte) (arg : Word) (pay : List Byte) (u : UpdS) :
    commitPart (writeMarker ty slot arg pay u) = commitPart u := by
  unfold writeMarker
  dsimp only
  rw [commitPart_putMarker]
  split_ifs
  · have opened : commitPart (openSector false u) = commitPart u := rfl
    rw [commitPart_gen, commitPart_putMarker, opened]
  · exact commitPart_compact u
  · rfl

@[simp] theorem commitPart_endIntent (ty slot : Byte) (arg : Word) (pay : List Byte) (u : UpdS) :
    commitPart (endIntent ty slot arg pay u) = commitPart u := by
  unfold endIntent
  split <;> simp

/-! ## Ends of a commit and of a confirmation (R55, R60, R421) -/

/-- A log record with its event, after a change of the update block. -/
theorem noted_onlyUpd (ev k : Nat) (c : FaultClass) (sc : BitVec 4) (code : Half) (w : Word) (f : UpdS → UpdS) (s : State) :
    onlyUpd s (raise ev (logPut k c sc code w (s.onUpd f))) := (noted_fab ..).onlyUpd (onlyUpd_onUpd f (onlyUpd_refl s))

theorem commitDone_onlyUpd (idx : Nat) (first : Bool) (code : Word) (s : State) : onlyUpd s (commitDone idx first code s) :=
  noted_onlyUpd 123 4 .counted 0 0x0011 (BitVec.ofNat 32 idx) _ s

theorem commitDone_commitPart (idx : Nat) (first : Bool) (code : Word) (s : State) :
    commitPart (commitDone idx first code s).upd = commitPart s.upd := by
  simp only [commitDone, raise_upd, logPut_upd, State.onUpd_upd, commitPart_readJournal, commitPart_endIntent]

theorem onlyOtp.sys {s u : State} (h : onlyOtp s u) : u.sys = s.sys := h.2.1

theorem onlyUpd.sys {s u : State} (h : onlyUpd s u) : u.sys = s.sys := h.2.1

@[simp] theorem logLife_sys (n : Nat) (s : State) : (logLife n s).sys = s.sys := (logPut_fab ..).sys

theorem logLife_otp (n : Nat) (s : State) : (logLife n s).otp = s.otp := (logPut_fab ..).otp

theorem otpDone_sys (s : State) : (otpDone s).sys = s.sys := (otpDone_kept s).only.sys

theorem otpAdvance_sys (p : PulseEnv) (r w n : Nat) (s : State) : (otpAdvance p r w n s).2.sys = s.sys := (otpAdvance_onlyOtp ..).sys

theorem advanceArb_sys (p : PulseEnv) (c target : Nat) (s : State) : (advanceArb p c target s).sys = s.sys :=
  each_keeps (P := fun u => u.sys = s.sys) (fun _ u h => (otpAdvance_sys p 4 (8 * c) 8 u).trans h) rfl

theorem confirmFinish_sys (p : PulseEnv) (s : State) : (confirmFinish p s).sys = s.sys := by
  unfold confirmFinish
  split
  · rfl
  · dsimp only
    split_ifs
    · simp only [State.onUpd_sys, advanceArb_sys]
    · rw [(noted_onlyUpd ..).sys, advanceArb_sys, advanceArb_sys, advanceArb_sys]

theorem commitFinish_cause (p : PulseEnv) (idx : Nat) (first : Bool) (code : Word) (s : State) :
    (commitFinish p idx first code s).1.sys.cause = s.sys.cause := by
  have pulsed (i : Nat) : (repulseBit p .counted i (otpDone s)).sys = s.sys := (repulseBit_onlyOtp ..).sys.trans (otpDone_sys s)
  unfold commitFinish
  dsimp only [State.onSys_sys]
  rw [(commitDone_onlyUpd ..).sys]
  split_ifs
  · rw [logLife_sys, otpAdvance_sys]
  · rw [pulsed]
  · rw [(leftWeak_kept ..).only.sys]
  · rfl

theorem settleCommit_cause (p : PulseEnv) (s : State) : (settleCommit p s).1.sys.cause = s.sys.cause := by
  unfold settleCommit
  split
  · rfl
  · dsimp only
    split_ifs
    · rw [(noted_onlyUpd ..).sys]
    · rfl
    · rw [commitFinish_cause, (repulseBit_onlyOtp ..).sys, otpDone_sys]
    · rw [commitFinish_cause]

theorem resolveIntents_cause (p : PulseEnv) (s : State) : (resolveIntents p s).sys.cause = s.sys.cause := by
  have settled : (if s.upd.commit.isNone then (settleCommit p s).1 else s).sys.cause = s.sys.cause := by
    split
    · exact settleCommit_cause p s
    · rfl
  simp only [resolveIntents]
  split
  · rfl
  · revert settled
    generalize (if s.upd.commit.isNone then (settleCommit p s).1 else s) = t
    intro settled
    split
    · exact (congrArg SysS.cause (confirmFinish_sys p t)).trans settled
    · exact settled

/-! ## The steps of a commit (R55, Table 2-6) -/

theorem exec_commitStepDue_stopped {s : State} (h : flashRuns s = false) (p : PulseEnv) : exec (.commitStepDue p) s = .next s := by
  show execCommitStepDue p s = _
  simp [execCommitStepDue, h]

theorem exec_commitStepDue_running {s : State} (h : flashRuns s = true) (p : PulseEnv) :
    exec (.commitStepDue p) s = .next (commitStep p s) := congrArg _ (if_pos h)

theorem commitStep_idle {s : State} (h : s.upd.commit = none) (hc : s.upd.confirming = false) (p : PulseEnv) : commitStep p s = s := by
  simp [commitStep, h, hc]

/-- Its first step writes the intent and advances the counter. -/
theorem commitStep_intent {s : State} {c : Commit} (hc : s.upd.commit = some c) (h0 : c.phase = 0) (hd : compactDue s.upd = false)
    (p : PulseEnv) : ∃ t, onlyUpd s t ∧ t.upd.commit = some { c with phase := 1 } ∧ commitStep p s = (otpAdvance p 5 0 16 t).2 := by
  let pay := halfBytes (BitVec.ofNat 16 c.idx) ++ [if c.first then 1 else 0]
  refine ⟨s.onUpd fun u => { writeMarker 0x10 0 u.code pay u with commit := some { c with phase := 1 } },
    onlyUpd_onUpd _ (onlyUpd_refl s), rfl, ?_⟩
  simp only [commitStep, hc, h0, resolveIntents_roomy hd, pay]

theorem commitStep_second {s : State} {c : Commit} (hc : s.upd.commit = some c) (h1 : c.phase = 1) (hf : c.first = false) (p : PulseEnv) :
    commitStep p s = s.onUpd fun u => { u with commit := some { c with phase := 2 } } := by
  simp [commitStep, hc, h1, hf]

theorem commitStep_end {s : State} {c : Commit} (hc : s.upd.commit = some c) (h2 : c.phase = 2) (p : PulseEnv) :
    commitStep p s = commitEnd p c s := by
  simp [commitStep, hc, h2]

/-- The discard marker of a commit whose counter step did not burn, with its log record and EV123. -/
def commitDiscarded (c : Commit) (code : Word) (s : State) : State :=
  raise 123 <| logPut 4 .counted 0 0x0012 (BitVec.ofNat 32 c.idx) <| s.onUpd fun u =>
    readJournal (endIntent 0x12 0 code (halfBytes (BitVec.ofNat 16 c.idx) ++ [if c.first then 1 else 0]) u)

theorem commitDiscarded_onlyUpd (c : Commit) (code : Word) (s : State) : onlyUpd s (commitDiscarded c code s) :=
  noted_onlyUpd 123 4 .counted 0 0x0012 (BitVec.ofNat 32 c.idx) _ s

theorem commitDiscarded_commitPart (c : Commit) (code : Word) (s : State) :
    commitPart (commitDiscarded c code s).upd = commitPart s.upd := by
  simp only [commitDiscarded, raise_upd, logPut_upd, State.onUpd_upd, commitPart_readJournal, commitPart_endIntent]

/-- The end of a commit from its marker on, which is what the update block holds for a step that burned or did not. -/
def commitMarked (p : PulseEnv) (c : Commit) (burned : Bool) (s1 : State) : State :=
  let s2 := commitConfirms p burned s1
  let wait : BitVec 7 := if s2.sys.resetWait then causeHost else 0
  if c.first && burned then resetDevice (causeLife ||| wait) s2
  else if s2.sys.resetWait then resetDevice wait s2
  else if s2.sys.runState == .safeHold then s2.onSys fun x => { x with holdReason := (startUnmet s2).getD 7 }
  else s2

/-- The commit has left the update block. -/
def commitOver (s : State) : State := s.onUpd fun u => { u with commit := none }

theorem commitEnd_eq (p : PulseEnv) (c : Commit) (s : State) :
    let burned := bit (s.otp.fuse (otpAddr 5 (c.idx / 32))).n (c.idx % 32)
    commitEnd p c s = commitMarked p c burned (if burned then commitDone c.idx c.first s.upd.code (commitOver s)
      else commitDiscarded c s.upd.code (commitOver s)) := rfl

theorem commitEnd_burned {s : State} {c : Commit} (h : bit (s.otp.fuse (otpAddr 5 (c.idx / 32))).n (c.idx % 32) = true) (p : PulseEnv) :
    commitEnd p c s = commitMarked p c true (commitDone c.idx c.first s.upd.code (commitOver s)) := by
  rw [commitEnd_eq, h, if_pos rfl]

theorem commitEnd_unburned {s : State} {c : Commit} (h : bit (s.otp.fuse (otpAddr 5 (c.idx / 32))).n (c.idx % 32) = false)
    (p : PulseEnv) : commitEnd p c s = commitMarked p c false (commitDiscarded c s.upd.code (commitOver s)) := by
  rw [commitEnd_eq, h, if_neg Bool.false_ne_true]

/-- With no host reset that waits, a first commissioning that is not on trial casts on with cause LIFECYCLE (R54). -/
theorem commitMarked_first {c : Commit} {s : State} (hf : c.first = true) (hw : s.sys.resetWait = false) (ht : s.upd.trial = false)
    (p : PulseEnv) : commitMarked p c true s = resetDevice causeLife s := by
  have confirms : commitConfirms p true s = s := by simp [commitConfirms, ht]
  unfold commitMarked
  dsimp only
  rw [confirms, hf, hw]
  rfl

/-- With no host reset that waits, a commit that did not burn ends without a cast-on. -/
theorem commitMarked_unburned {s : State} (hw : s.sys.resetWait = false) (p : PulseEnv) (c : Commit) :
    ∃ why, commitMarked p c false s = s.onSys fun x => { x with holdReason := why } := by
  have confirms : commitConfirms p false s = s := rfl
  unfold commitMarked
  dsimp only
  rw [confirms, hw]
  simp only [Bool.and_false, Bool.false_eq_true, if_false]
  split
  · exact ⟨_, rfl⟩
  · exact ⟨s.sys.holdReason, rfl⟩

/-- The end of a first commissioning whose step burned. -/
theorem commitEnd_first {s : State} {c : Commit} (hb : bit (s.otp.fuse (otpAddr 5 (c.idx / 32))).n (c.idx % 32) = true)
    (hf : c.first = true) (hw : s.sys.resetWait = false) (ht : s.upd.trial = false) (p : PulseEnv) :
    ∃ t, onlyUpd s t ∧ commitEnd p c s = resetDevice causeLife t := by
  have only : onlyUpd s (commitDone c.idx c.first s.upd.code (commitOver s)) := commitDone_onlyUpd _ _ _ (commitOver s)
  have trial := (commitPart_eq_iff.mp (commitDone_commitPart c.idx c.first s.upd.code (commitOver s))).2.1
  refine ⟨_, only, (commitEnd_burned hb p).trans (commitMarked_first hf ?_ ?_ p)⟩
  · rw [only.sys, hw]
  · rw [trial]; exact ht

/-- The end of a commit whose step did not burn. -/
theorem commitEnd_discarded {s : State} {c : Commit} (hb : bit (s.otp.fuse (otpAddr 5 (c.idx / 32))).n (c.idx % 32) = false)
    (hw : s.sys.resetWait = false) (p : PulseEnv) :
    ∃ t why, onlyUpd s t ∧ t.upd.commit = none ∧ commitEnd p c s = t.onSys fun x => { x with holdReason := why } := by
  have only : onlyUpd s (commitDiscarded c s.upd.code (commitOver s)) := commitDiscarded_onlyUpd _ _ (commitOver s)
  have ended := (commitPart_eq_iff.mp (commitDiscarded_commitPart c s.upd.code (commitOver s))).1
  obtain ⟨why, marked⟩ := commitMarked_unburned (s := commitDiscarded c s.upd.code (commitOver s)) (by rw [only.sys, hw]) p c
  exact ⟨_, why, only, ended, (commitEnd_unburned hb p).trans marked⟩

/-! ## COMMIT_RETRY (R60) -/

theorem exec_commitRetry_idle {s : State} (h : s.sys.commitPending = false ∨ s.sys.runState ≠ .safeHold ∨ flashRuns s = false)
    (p : PulseEnv) : exec (.commitRetry p) s = .next s := by
  show execCommitRetry p s = _
  rcases h with h | h | h <;> simp [execCommitRetry, h]

/-- An open commit whose step is sound is done, with no life-cycle bit to programme. -/
theorem settleCommit_sound {s : State} {m : Marker} {idx : Nat} (hm : openCommit (journal s.upd) = some m) (hi : m.step = (idx, false))
    (hb : bit (s.otp.fuse (otpAddr 5 (idx / 32))).n (idx % 32) = true)
    (hw : bit (s.otp.fuse (otpAddr 5 (idx / 32))).weakBits (idx % 32) = false) (p : PulseEnv) :
    settleCommit p s = ((commitDone idx false m.arg s).onSys fun x => { x with commitPending := false }, false) := by
  unfold settleCommit
  rw [hm]
  dsimp only
  rw [hi]
  dsimp only
  rw [hb, hw]
  rfl

/-- COMMIT_RETRY once the open commit has been settled with the outcome `q`. -/
def commitRetried (p : PulseEnv) (opened : Bool) (q : StageRes) : State :=
  if q.1.sys.commitPending then q.1
  else
    let s1 := commitConfirms p opened q.1
    if q.2 then resetDevice causeLife s1 else s1.onSys fun x => { x with holdReason := (startUnmet s1).getD 7 }

theorem exec_commitRetry {s : State} (hp : s.sys.commitPending = true) (hs : s.sys.runState = .safeHold) (hf : flashRuns s = true)
    (p : PulseEnv) : exec (.commitRetry p) s = .next (commitRetried p (openCommit (journal s.upd)).isSome (settleCommit p s)) := by
  show execCommitRetry p s = _
  simp [execCommitRetry, commitRetried, hp, hs, hf]

/-- What is settled without a cast-on, and is not on trial, leaves its hold reason alone to say. -/
theorem commitRetried_settled {s : State} (hp : s.sys.commitPending = false) (ht : (s.upd.trial && s.upd.rule) = false) (p : PulseEnv)
    (opened : Bool) : commitRetried p opened (s, false) = s.onSys fun x => { x with holdReason := (startUnmet s).getD 7 } := by
  have confirms : commitConfirms p opened s = s := by simp [commitConfirms, Bool.and_assoc, ht]
  unfold commitRetried
  dsimp only
  rw [hp, confirms]
  rfl

theorem exec_commitRetry_sound {s : State} {m : Marker} {idx : Nat} (hp : s.sys.commitPending = true) (hs : s.sys.runState = .safeHold)
    (hf : flashRuns s = true) (ht : (s.upd.trial && s.upd.rule) = false) (hm : openCommit (journal s.upd) = some m)
    (hi : m.step = (idx, false)) (hb : bit (s.otp.fuse (otpAddr 5 (idx / 32))).n (idx % 32) = true)
    (hw : bit (s.otp.fuse (otpAddr 5 (idx / 32))).weakBits (idx % 32) = false) (p : PulseEnv) :
    ∃ t why, onlyUpd s t ∧ exec (.commitRetry p) s = .next (t.onSys fun x => { x with commitPending := false, holdReason := why }) := by
  obtain ⟨-, trial, rule⟩ := commitPart_eq_iff.mp (commitDone_commitPart idx false m.arg s)
  have only := commitDone_onlyUpd idx false m.arg s
  have run := exec_commitRetry hp hs hf p
  rw [settleCommit_sound hm hi hb hw p] at run
  rw [← trial, ← rule] at ht
  revert ht only run
  generalize commitDone idx false m.arg s = t
  intro ht only run
  have settled := commitRetried_settled (s := t.onSys fun x => { x with commitPending := false }) rfl ht p (openCommit (journal s.upd)).isSome
  exact ⟨t, _, only, run.trans (congrArg _ settled)⟩

/-! ## LIFECYCLE (R428, R429) -/

theorem updLifecycle_elsewhere {s : State} (h1 : s.sys.runState ≠ .safeHold) (h2 : s.sys.runState ≠ .service) (p : PulseEnv) :
    updLifecycle p s = updResult 2 s := by simp [updLifecycle, h1, h2]

theorem updLifecycle_request {s : State} (h : s.sys.runState = .safeHold ∨ s.sys.runState = .service) (ha : s.upd.arg = 5)
    (hr : s.upd.retireAt = none) (p : PulseEnv) :
    updLifecycle p s = updResult 0 (s.onUpd fun u => { u with retireAt := some s.t.tbA }) := by
  rcases h with h | h <;> simp [updLifecycle, h, ha, hr]

theorem updLifecycle_retire {s : State} {first : DWord} (h : s.sys.runState = .safeHold ∨ s.sys.runState = .service) (ha : s.upd.arg = 5)
    (hr : s.upd.retireAt = some first) (ht : since s first ≤ 2000000000) (p : PulseEnv) : updLifecycle p s = retire p s := by
  rcases h with h | h <;> simp [updLifecycle, h, ha, hr, ht]

theorem updLifecycle_unlisted {s : State} (h : s.sys.runState = .safeHold ∨ s.sys.runState = .service) (ha : s.upd.arg ≠ 5#32)
    (hl : lifeStep s s.upd.arg.toNat = none) (p : PulseEnv) : updLifecycle p s = updResult 5 s := by
  rcases h with h | h <;> simp [updLifecycle, h, ha, hl]

theorem updLifecycle_changed {s : State} {f : PulseEnv → State → BitVec 4 × State} {p : PulseEnv}
    (h : s.sys.runState = .safeHold ∨ s.sys.runState = .service) (ha : s.upd.arg ≠ 5#32) (hl : lifeStep s s.upd.arg.toNat = some f)
    (hq : (f p s).1 = 0) : updLifecycle p s = resetDevice causeLife (logLife s.upd.arg.toNat (updResult 0 (f p s).2)) := by
  rcases h with h | h <;> simp [updLifecycle, h, ha, hl, hq]

/-- UNCOMMISSIONED is programmed over sealed regions (R393), and its bit reads 1 where the pulses do not leave it blank. -/
theorem lifeAdvance_provisioned {s : State} {p : PulseEnv} (hw : Sparse.wf {} s.otp.w = true) (hc : s.otp.count 3 0 1 = 1)
    (hr : ∀ r ∈ [1, 2, 6], s.otp.wlocked r = true ∧ s.otp.broken r = false) (hb : bit p.blank 1 = false)
    (hs : bit s.otp.sticky 3 = false) : (lifeAdvance p s).1 = 0 ∧ onlyOtp s (lifeAdvance p s).2 ∧
      bit ((lifeAdvance p s).2.otp.fuse (otpAddr 3 0)).n 1 = true := by
  have sealed : ([1, 2, 6].all fun r => s.otp.wlocked r && !s.otp.broken r) = true :=
    List.all_eq_true.mpr fun r h => by simp [hr r h]
  have step : lifeAdvance p s = otpProgram p (otpAddr 3 0) (BitVec.ofNat 32 (2 ^ 1)) (otpDone s) := by
    unfold lifeAdvance
    rw [sealed, otpAdvance_eq hc (by decide) hs]
    exact if_neg (by simp)
  have one := otpProgram_bit p (otpAddr 3 0) (k := 1) (by decide) (s := otpDone s) (by rw [(otpDone_kept s).words, hw])
  rw [hb, Bool.not_false, Bool.or_true] at one
  rw [step]
  exact ⟨otpProgram_ok one, onlyOtp_trans (otpDone_kept s).only (otpProgram_onlyOtp ..), one⟩

/-- The change to UNCOMMISSIONED casts on with no cause but LIFECYCLE added, and its bit is programmed. -/
theorem updLifecycle_uncommissioned {s : State} {p : PulseEnv} (hw : Sparse.wf {} s.otp.w = true)
    (h : s.sys.runState = .safeHold ∨ s.sys.runState = .service) (ha : s.upd.arg = 2) (hlife : s.sys.life = .provisioned)
    (hc : s.otp.count 3 0 1 = 1) (hr : ∀ r ∈ [1, 2, 6], s.otp.wlocked r = true ∧ s.otp.broken r = false)
    (hb : bit p.blank 1 = false) (hs : bit s.otp.sticky 3 = false) : ∃ t, t.sys.cause = s.sys.cause ∧
      bit (t.otp.fuse (otpAddr 3 0)).n 1 = true ∧ updLifecycle p s = resetDevice causeLife t := by
  obtain ⟨ok, only, one⟩ := lifeAdvance_provisioned hw hc hr hb hs
  have listed : lifeStep s s.upd.arg.toNat = some lifeAdvance := by rw [ha]; simp [lifeStep, hlife]
  refine ⟨_, ?_, ?_, updLifecycle_changed h (by rw [ha]; decide) listed ok⟩
  · rw [logLife_sys, ← only.sys]; rfl
  · rw [logLife_otp]; exact one

@[simp] theorem resetDevice_fuse (causes : BitVec 7) (a : Nat) (s : State) : (resetDevice causes s).otp.fuse a = s.otp.fuse a := rfl

theorem tapBit_sys (p : PulseEnv) (b : Fin 64) (s : State) : (tapBit p b s).sys = s.sys := by
  have copied (c : Fin 4) (u : State) : (tapCopy p b c u).sys = u.sys := by
    unfold tapCopy
    dsimp only
    split
    · rw [(leftWeak_kept ..).only.sys]; rfl
    · rfl
  exact each_keeps (P := fun u => u.sys = s.sys) (fun c u h => (copied c u).trans h) rfl

theorem retireBits_sys (p : PulseEnv) (s : State) : (retireBits p s).sys = s.sys :=
  each_keeps (P := fun u => u.sys = s.sys) (fun _ u h => (otpAdvance_sys p 3 0 1 u).trans h) rfl

/-- The change to RETIRED casts on with no cause but LIFECYCLE added. -/
theorem retire_held (p : PulseEnv) (s : State) : ∃ t, t.sys.cause = s.sys.cause ∧ retire p s = resetDevice causeLife t := by
  refine ⟨_, ?_, rfl⟩
  rw [logLife_sys, retireBits_sys, State.onUpd_sys, resolveIntents_cause]
  split
  · rfl
  · rw [tapBit_sys, otpDone_sys]

/-- The counter's next bit, which is that of the commit where nothing has counted since its edge. -/
theorem advanceCommit {s : State} {idx : Nat} (hw : Sparse.wf {} s.otp.w = true) (hi : idx = s.otp.commCount) (hm : idx < 512)
    (hs : bit s.otp.sticky 5 = false) (p : PulseEnv) :
    let a := otpAddr 5 (idx / 32)
    let u := (otpAdvance p 5 0 16 s).2
    bit (u.otp.fuse a).n (idx % 32) = (bit (s.otp.fuse a).n (idx % 32) || !bit p.blank (idx % 32)) ∧
      ∀ b, b ≠ a → u.otp.fuse b = s.otp.fuse b := by
  have words := (otpDone_kept s).words
  have wf : Sparse.wf {} (otpDone s).otp.w = true := by rw [words, hw]
  have same : ∀ b, (otpDone s).otp.fuse b = s.otp.fuse b := fun b => congrArg (fun w => OtpS.fuse { s.otp with w } b) words
  dsimp only
  rw [otpAdvance_eq (c := idx) hi.symm hm hs, Nat.zero_add]
  refine ⟨?_, fun b hb => ?_⟩
  · rw [otpProgram_bit p _ (Nat.mod_lt _ (by decide)) wf, same]
  · rw [otpProgram_fuse p _ b _ wf, if_neg hb, same]

/-- Settles O47: each step of a commit by its equation, with the frames of the fuse array and of the journal; a change of life-cycle
as what LIFECYCLE does for the owner of the lease. -/
theorem commitSteps : Obligations.CommitSteps := by
  intro p c m src s hw a burned
  have step {v : State} (hf : flashRuns s = true) (h : commitStep p s = v) : exec (.commitStepDue p) s = .next v :=
    (exec_commitStepDue_running hf p).trans (congrArg _ h)
  refine ⟨fun hc hn => ?_, fun hf => ⟨exec_commitStepDue_stopped hf p, exec_commitRetry_idle (.inr (.inr hf)) p⟩,
    fun hc hf => ⟨fun h0 hi hm hd hs => ?_, fun h1 hn => step hf (commitStep_second hc h1 hn p), fun h2 hb h1 hr ht => ?_,
      fun h2 hb hr => ?_⟩, fun h => exec_commitRetry_idle (h.imp_right .inl) p, fun hp hs hf ht hm hi hb hk => ?_, fun hs hl => ?_⟩
  · cases hf : flashRuns s
    · exact exec_commitStepDue_stopped hf p
    · exact step hf (commitStep_idle hc hn p)
  · obtain ⟨t, ⟨mem, sys, -, sout, hld, otp, -⟩, phase, intent⟩ := commitStep_intent hc h0 hd p
    obtain ⟨umem, usys, -, usout, uhld, -, -, -, -, uupd, -, -⟩ := otpAdvance_onlyOtp p 5 0 16 t
    obtain ⟨programmed, others⟩ := advanceCommit (by rw [otp, hw]) (by rw [otp, hi]) hm (by rw [otp, hs]) p (s := t)
    refine ⟨_, step hf intent, by rw [uupd, phase], ?_, fun b hb => ?_, usys.trans sys, umem.trans mem, usout.trans sout, uhld.trans hld⟩
    · rw [programmed, otp]
    · rw [others b hb, otp]
  · obtain ⟨t, ⟨-, sys, -, -, -, otp, -⟩, ends⟩ := commitEnd_first hb h1 hr ht p
    obtain ⟨⟨off, -, -, mem, fuses, -⟩, waits, cause⟩ := resetDevice_held causeLife t
    exact ⟨_, step hf ((commitStep_end hc h2 p).trans ends), rfl, waits, by rw [cause, sys]; rfl, off, by rw [fuses, otp], mem⟩
  · obtain ⟨t, why, ⟨mem, sys, -, sout, hld, otp, -⟩, none, ends⟩ := commitEnd_discarded hb hr p
    have state : t.sys.runState = s.sys.runState := congrArg SysS.runState sys
    exact ⟨_, step hf ((commitStep_end hc h2 p).trans ends), none, state, otp, mem, sout, hld⟩
  · obtain ⟨t, why, ⟨mem, sys, -, sout, -, otp, -⟩, run⟩ := exec_commitRetry_sound hp hs hf ht hm hi hb hk p
    have state : t.sys.runState = .safeHold := (congrArg SysS.runState sys).trans hs
    exact ⟨_, run, rfl, state, otp, mem, sout⟩
  · obtain ⟨-, -, -, -, change⟩ := exec_owner hs hl 0 p
    have next {v : State} (h : updLifecycle p (touchLease s) = v) : exec (.lifecycle src 0x9E3D p) s = .next v := change.trans (congrArg _ h)
    refine ⟨fun h1 h2 => next (updLifecycle_elsewhere (s := touchLease s) h1 h2 p), fun hr =>
      ⟨fun ha hn => next (updLifecycle_unlisted (s := touchLease s) hr ha hn p),
      fun ha hn => next (updLifecycle_request (s := touchLease s) hr ha hn p),
      fun first ha hn ht => ?_, fun ha hlife hcount hsealed hb hsticky => ?_⟩⟩
    · obtain ⟨t, cause, held⟩ := retire_held p (touchLease s)
      obtain ⟨⟨off, -, -, mem, -⟩, waits, adds⟩ := resetDevice_held causeLife t
      exact ⟨_, next ((updLifecycle_retire (s := touchLease s) hr ha hn ht p).trans held), waits, by rw [adds, cause]; rfl, mem, off⟩
    · obtain ⟨t, cause, one, held⟩ := updLifecycle_uncommissioned (s := touchLease s) hw hr ha hlife hcount hsealed hb hsticky
      obtain ⟨⟨off, -⟩, waits, adds⟩ := resetDevice_held causeLife t
      exact ⟨_, next held, waits, by rw [adds, cause]; rfl, by rw [resetDevice_fuse, one], off⟩

end Sys2Proof.Machine
end

section
/-! PROOFS. What the accepted commands of SYS_CTRL start (O41): what an entry to LOCKOUT, RUN and SERVICE leaves, and the skeins that
    start with RUN. -/
namespace Sys2Proof

theorem bit_one_shiftLeft {n j : Nat} (h : j < n) (i : Nat) : bit (1#n <<< i) j = decide (j = i) := by
  simp only [bit, BitVec.getLsbD_shiftLeft, BitVec.getLsbD_one]
  grind

theorem bit_maskOf_upto {n j : Nat} (f : Nat → Bool) (h : j < n) (k : Nat) :
    bit ((List.range k).foldl (fun m i => if f i then m ||| (1#n <<< i) else m) 0) j = (decide (j < k) && f j) := by
  induction k with
  | zero => simp [bit]
  | succ k ih =>
    rw [List.range_succ, List.foldl_append, List.foldl_cons, List.foldl_nil]
    split
    next hk => rw [bit_or, ih, bit_one_shiftLeft h]; grind
    next hk => rw [ih]; grind

/-- A bit of a mask is what its function says. -/
theorem bit_maskOf {n j : Nat} (h : j < n) (f : Nat → Bool) : bit (maskOf n f) j = f j := by
  rw [maskOf, bit_maskOf_upto f h, decide_eq_true h, Bool.true_and]

end Sys2Proof

namespace Sys2Proof.Machine

/-! ## A device fault in SAFE-HOLD, RUN and SERVICE (R29, R47) -/

/-- `u` is `s` in its supplies and clocks, its host link, channel B, timebase A and the two networks. -/
structure Aside (s u : State) : Prop where
  pwr : u.pwr = s.pwr
  link : u.link = s.link
  hld : u.hld = s.hld
  t : u.t = s.t
  csl : u.csl = s.csl
  csc : u.csc = s.csc

theorem Aside.refl (s : State) : Aside s s := ⟨rfl, rfl, rfl, rfl, rfl, rfl⟩

theorem Aside.trans {s t u : State} (h : Aside s t) (g : Aside t u) : Aside s u :=
  ⟨g.pwr.trans h.pwr, g.link.trans h.link, g.hld.trans h.hld, g.t.trans h.t, g.csl.trans h.csl, g.csc.trans h.csc⟩

theorem Fab.aside {s u : State} (h : Fab s u) : Aside s u := ⟨h.pwr, h.link, h.hld, h.t, h.csl, h.csc⟩

theorem Aside.onSys (f : SysS → SysS) (s : State) : Aside s (s.onSys f) := ⟨rfl, rfl, rfl, rfl, rfl, rfl⟩
theorem Aside.onSin (f : SinS → SinS) (s : State) : Aside s (s.onSin f) := ⟨rfl, rfl, rfl, rfl, rfl, rfl⟩
theorem Aside.onSout (f : SoutS → SoutS) (s : State) : Aside s (s.onSout f) := ⟨rfl, rfl, rfl, rfl, rfl, rfl⟩
theorem Aside.onEng (f : EngS → EngS) (s : State) : Aside s (s.onEng f) := ⟨rfl, rfl, rfl, rfl, rfl, rfl⟩
theorem Aside.onUpd (f : UpdS → UpdS) (s : State) : Aside s (s.onUpd f) := ⟨rfl, rfl, rfl, rfl, rfl, rfl⟩
theorem Aside.onAlp (f : AlpS → AlpS) (s : State) : Aside s (s.onAlp f) := ⟨rfl, rfl, rfl, rfl, rfl, rfl⟩

theorem followTp_aside (j : Fin 8) (s : State) : Aside s (followTp j s) := ⟨rfl, rfl, rfl, rfl, rfl, rfl⟩

theorem sourcesOff_aside (s : State) : Aside s (sourcesOff s) :=
  each_keeps (P := Aside s) (fun j u h => h.trans (followTp_aside j u)) (Aside.onSin _ s)

/-- The end of an arming, with its event (R414, R430). -/
theorem disarm_fab (s : State) : Fab (s.onUpd fun u => { u with armed := false }) (disarm s) := by
  unfold disarm
  split
  · exact raise_fab ..
  case isFalse h =>
    have same : (s.onUpd fun u => { u with armed := false }) = s := by
      rw [← Bool.not_eq_true _ |>.mp h]; rfl
    rw [same]
    exact Fab.refl s

theorem disarm_aside (s : State) : Aside s (disarm s) := (Aside.onUpd _ s).trans (disarm_fab s).aside

theorem trimsEnd_aside (s : State) : Aside s (trimsEnd s) := by
  unfold trimsEnd
  split
  · exact Aside.onAlp _ s
  · exact Aside.refl s

theorem trimsEnd_upd (s : State) : (trimsEnd s).upd = s.upd := by unfold trimsEnd; split <;> rfl

theorem trimsEnd_sin (s : State) : (trimsEnd s).sin = s.sin := by unfold trimsEnd; split <;> rfl

theorem trimsEnd_eng (s : State) : (trimsEnd s).eng = s.eng := by unfold trimsEnd; split <;> rfl

/-- The record of a new run state, as it is logged and its event raised. -/
theorem setRun_fab (new : RunState) (cause : Word) (s : State) :
    Fab ((trimsEnd (if new = .safeHold then s else disarm s)).onSys fun x => { x with runState := new }) (setRun new cause s) :=
  (when_logPut_fab ..).trans (raise_fab ..)

theorem setRun_aside (new : RunState) (cause : Word) (s : State) : Aside s (setRun new cause s) := by
  have ends : Aside s (trimsEnd (if new = .safeHold then s else disarm s)) := by
    split
    · exact trimsEnd_aside s
    · exact (disarm_aside s).trans (trimsEnd_aside _)
  exact ends.trans ((Aside.onSys _ _).trans (setRun_fab new cause s).aside)

/-- An arming of commissioning ends where SAFE-HOLD is left (R414). -/
theorem setRun_upd {new : RunState} (h : new ≠ .safeHold) (cause : Word) (s : State) :
    (setRun new cause s).upd = { s.upd with armed := false } := by
  rw [(setRun_fab new cause s).upd, State.onSys_upd, trimsEnd_upd, if_neg h, (disarm_fab s).upd]
  rfl

theorem driveA_aside (s : State) : Aside s (driveA s) := Aside.onSout _ s

theorem holdAll_aside (s : State) : Aside s (holdAll s) := (Aside.onSout _ s).trans (driveA_aside _)

theorem demandsOff_aside (s : State) : Aside s (demandsOff s) :=
  ((Aside.onSout _ s).trans (Aside.onEng _ _)).trans (driveA_aside _)

/-- What an entry to LOCKOUT from the state `s` notes in the run state record, the run state apart. -/
def lockoutRecord (code : Half) (s : State) (x : SysS) : SysS :=
  { x with stopCode := code, lineA := true, stage := .none, devPending := true
           fallDue := x.fallDue || (s.sys.holding && s.sys.holdWhy == .trial) }

theorem lockoutEntry_live {s : State} (h : s.live) (code : Half) : lockoutEntry code s =
    setRun .lockout (code.zeroExtend 32) (sourcesOff (holdAll (demandsOff ((dropCommands s).onSys (lockoutRecord code s))))) := by
  rcases h with h | h | h <;> simp only [lockoutEntry, h] <;> rfl

theorem lockoutEntry_lockedOut {s : State} (h : s.live) (code : Half) : lockedOut code (lockoutEntry code s) ∧
    Aside s (lockoutEntry code s) ∧ (lockoutEntry code s).mem = s.mem ∧ (lockoutEntry code s).otp = s.otp := by
  have aside : Aside s ((dropCommands s).onSys (lockoutRecord code s)) := (Aside.onSys _ s).trans (Aside.onSys _ _)
  rw [lockoutEntry_live h]
  revert aside
  generalize hv : (dropCommands s).onSys (lockoutRecord code s) = v
  intro aside
  have noted : v.sys.lineA = true ∧ v.sys.stopCode = code ∧ v.mem = s.mem ∧ v.otp = s.otp := by
    subst hv; exact ⟨rfl, rfl, rfl, rfl⟩
  obtain ⟨line, stop, hmem, hotp⟩ := noted
  obtain ⟨sys, off, mem, otp⟩ := setRun_allOff .lockout (code.zeroExtend 32) v
  refine ⟨⟨?_, ?_, ?_, off⟩, ?_, mem.trans hmem, otp.trans hotp⟩
  · rw [sys]
  · rw [sys]; exact line
  · rw [sys]; exact stop
  · exact aside.trans ((demandsOff_aside v).trans ((holdAll_aside _).trans ((sourcesOff_aside _).trans (setRun_aside ..))))

/-- What a device fault leads to where its run state is live, and what it leaves. -/
theorem devFault_live {s : State} (h : s.live) (r : Rep) : lockedOut r.code (devFault r s) ∧ Aside s (devFault r s) ∧
    (devFault r s).mem = s.mem ∧ (devFault r s).otp = s.otp := by
  have kept := report_fab r s
  obtain ⟨locked, aside, mem, otp⟩ := lockoutEntry_lockedOut (s := report r s) (by rw [State.live, kept.sys]; exact h) r.code
  exact ⟨locked, kept.aside.trans aside, mem.trans kept.mem, otp.trans kept.otp⟩

theorem Fab.lockedOut {code : Half} {s u : State} (h : Fab s u) (hs : lockedOut code s) : lockedOut code u := by
  obtain ⟨state, line, stop, off⟩ := hs
  rw [Machine.lockedOut, h.sys]
  exact ⟨state, line, stop, h.allOff off⟩

/-! ## Entry to RUN and SERVICE (R49, Table 2-3) -/

theorem setRun_sin {new : RunState} (h : new ≠ .safeHold) (cause : Word) (s : State) : (setRun new cause s).sin = s.sin := by
  rw [(setRun_fab new cause s).sin, State.onSys_sin, trimsEnd_sin, if_neg h, (disarm_fab s).sin]
  rfl

theorem setRun_on {new : RunState} (h : new ≠ .safeHold) (cause : Word) (s : State) (e : Fin 24) :
    ((setRun new cause s).eng.e[e]).on = (s.eng.e[e]).on := by
  rw [(setRun_fab new cause s).on e, State.onSys_eng, trimsEnd_eng, if_neg h, (disarm_fab s).on e]
  rfl

/-- `u` is `s` in its run state record, its inputs, its outputs, channel B, the fuses and timebase A. -/
structure SameIO (s u : State) : Prop where
  sys : u.sys = s.sys
  sin : u.sin = s.sin
  sout : u.sout = s.sout
  hld : u.hld = s.hld
  otp : u.otp = s.otp
  t : u.t = s.t

theorem SameIO.refl (s : State) : SameIO s s := ⟨rfl, rfl, rfl, rfl, rfl, rfl⟩

theorem SameIO.trans {s t u : State} (h : SameIO s t) (g : SameIO t u) : SameIO s u :=
  ⟨g.sys.trans h.sys, g.sin.trans h.sin, g.sout.trans h.sout, g.hld.trans h.hld, g.otp.trans h.otp, g.t.trans h.t⟩

theorem Fab.sameIO {s u : State} (h : Fab s u) : SameIO s u := ⟨h.sys, h.sin, h.sout, h.hld, h.otp, h.t⟩

theorem SameIO.onUpd (f : UpdS → UpdS) (s : State) : SameIO s (s.onUpd f) := ⟨rfl, rfl, rfl, rfl, rfl, rfl⟩
theorem SameIO.onCsc (f : CscS → CscS) (s : State) : SameIO s (s.onCsc f) := ⟨rfl, rfl, rfl, rfl, rfl, rfl⟩
theorem SameIO.onPwr (f : PwrS → PwrS) (s : State) : SameIO s (s.onPwr f) := ⟨rfl, rfl, rfl, rfl, rfl, rfl⟩
theorem SameIO.onE (e : Fin 24) (f : Engine → Engine) (s : State) : SameIO s (s.onE e f) := ⟨rfl, rfl, rfl, rfl, rfl, rfl⟩
theorem SameIO.onMem (f : MemS → MemS) (s : State) : SameIO s (s.onMem f) := ⟨rfl, rfl, rfl, rfl, rfl, rfl⟩

/-! ## Skeins that start with RUN (R328, R33, R38) -/

theorem keepRec_sameIO (b : SetBody) (s : State) : SameIO s (s.keepRec b) := by
  unfold State.keepRec
  split
  · exact SameIO.onUpd _ s
  · exact SameIO.refl s

theorem useInc_sameIO (inc : Half) (s : State) : SameIO s (useInc inc s) := by
  unfold useInc
  split
  · exact keepRec_sameIO ..
  · exact SameIO.refl s

theorem setSkein_sameIO (p : Fin 4) (st : SkeinSt) (s : State) : SameIO s (setSkein p st s) := by
  unfold setSkein
  split
  · exact SameIO.refl s
  · exact (SameIO.onCsc _ s).trans (raise_fab ..).sameIO

theorem goStart_sameIO (p : Fin 4) (s : State) : SameIO s (goStart p s) := by
  refine SameIO.trans ?_ (setSkein_sameIO p .start _)
  exact (useInc_sameIO _ s).trans (SameIO.onCsc _ _)

theorem skeinStart_sameIO (p : Fin 4) (s : State) : SameIO s (skeinStart p s) := by
  unfold skeinStart
  split
  · exact goStart_sameIO p s
  · exact setSkein_sameIO p .silent s

theorem setSkein_pwr (p : Fin 4) (st : SkeinSt) (s : State) : (setSkein p st s).pwr = s.pwr := by
  unfold setSkein
  split
  · rfl
  · rw [raise_pwr]; rfl

theorem useInc_pwr (inc : Half) (s : State) : (useInc inc s).pwr = s.pwr := by
  unfold useInc State.keepRec
  split_ifs <;> rfl

theorem skeinStart_pwr (p : Fin 4) (s : State) : (skeinStart p s).pwr = s.pwr := by
  unfold skeinStart
  split
  · exact (setSkein_pwr ..).trans (useInc_pwr _ s)
  · exact setSkein_pwr ..

/-- The image whose carrier sections pass their checks, so that the carrier engines are released from it (R38). -/
def ceImage (s : State) : Option Img :=
  if cscAbsent s then none
  else (s.upd.running.bind fun a => readImage s.upd.flash a.toNat).filter fun m => secsIntact s m 3

/-- Task tables of the carrier engines from the parameter records of an image. -/
def ceParam (s : State) (r : PRec) : State :=
  if r.kind == 2 && (r.target == 12 || r.target == 13) then putEngRec (Fin.ofNat 24 r.target) r.body s else s

/-- The carrier engines loaded and released from an image that passes its checks (R33, R21). -/
def ceRelease (m : Img) (s : State) : State :=
  let s1 := (m.secs.filter Sec.ce).foldl (putSection s.upd.flash m) (ceOff s)
  let s2 := ((m.params s.upd.flash).getD []).foldl ceParam (unlockOwned 12 (unlockOwned 13 s1))
  (s2.onE 12 fun e => { e with on := true }).onE 13 fun e => { e with on := true }

theorem ceLoad_eq (s : State) : ceLoad s = (ceImage s).elim s (ceRelease · s) := by
  unfold ceLoad ceImage
  split
  · rfl
  · cases s.upd.running.bind fun a => readImage s.upd.flash a.toNat with
    | none => rfl
    | some m =>
      dsimp only
      cases h : secsIntact s m 3
      · rw [Option.filter_some_neg (by simp [h])]; rfl
      · rw [Option.filter_some_pos (p := fun m => secsIntact s m 3) h]; rfl

theorem ceImage_congr {s u : State} (otp : u.otp = s.otp) (pwr : u.pwr = s.pwr) (flash : u.upd.flash = s.upd.flash)
    (running : u.upd.running = s.upd.running) (secs : u.upd.secs = s.upd.secs) : ceImage u = ceImage s := by
  have intact : secsIntact u = secsIntact s := by funext m ty; simp only [secsIntact, flashRuns, pwr, flash, secs]
  have absent : cscAbsent u = cscAbsent s := by rw [cscAbsent, cscAbsent, otp]
  rw [ceImage, ceImage, absent, flash, running, intact]

/-- What a load of the carrier engines leaves: everything but memories, engines and timers. -/
structure CeKept (s u : State) : Prop extends SameIO s u where
  pwr : u.pwr = s.pwr

theorem CeKept.trans {s t u : State} (h : CeKept s t) (g : CeKept t u) : CeKept s u :=
  ⟨h.toSameIO.trans g.toSameIO, g.pwr.trans h.pwr⟩

theorem CeKept.onE (e : Fin 24) (f : Engine → Engine) (s : State) : CeKept s (s.onE e f) := ⟨SameIO.onE e f s, rfl⟩

theorem ceOff_kept (s : State) : CeKept s (ceOff s) := ⟨⟨rfl, rfl, rfl, rfl, rfl, rfl⟩, rfl⟩

theorem putSection_kept (f : Sparse Byte) (m : Img) (s : State) (x : Sec) : CeKept s (putSection f m s x) := by
  unfold putSection
  split
  · exact ⟨SameIO.onMem _ s, rfl⟩
  · exact ⟨SameIO.refl s, rfl⟩

theorem unlockOwned_kept (e : Nat) (s : State) : CeKept s (unlockOwned e s) := ⟨⟨rfl, rfl, rfl, rfl, rfl, rfl⟩, rfl⟩

theorem ceParam_kept (s : State) (r : PRec) : CeKept s (ceParam s r) := by
  unfold ceParam
  split
  · exact CeKept.onE ..
  · exact ⟨SameIO.refl s, rfl⟩

theorem foldl_kept {α : Type} {f : State → α → State} (hf : ∀ s a, CeKept s (f s a)) (l : List α) (s : State) :
    CeKept s (l.foldl f s) :=
  List.foldlRecOn (motive := CeKept s) l f ⟨SameIO.refl s, rfl⟩ fun u h a _ => h.trans (hf u a)

theorem ceRelease_kept (m : Img) (s : State) : CeKept s (ceRelease m s) := by
  have loaded := (ceOff_kept s).trans (foldl_kept (putSection_kept s.upd.flash m) (m.secs.filter Sec.ce) (ceOff s))
  have tables := foldl_kept ceParam_kept ((m.params s.upd.flash).getD [])
  exact (loaded.trans ((unlockOwned_kept 13 _).trans (unlockOwned_kept 12 _))).trans
    ((tables _).trans ((CeKept.onE 12 _ _).trans (CeKept.onE 13 _ _)))

theorem ceRelease_on (m : Img) (s : State) : ((ceRelease m s).eng.e[(12 : Fin 24)]).on = true := by
  simp [ceRelease, State.onE, State.onEng]

theorem ceLoad_kept (s : State) : CeKept s (ceLoad s) := by
  rw [ceLoad_eq]
  cases ceImage s with
  | none => exact ⟨SameIO.refl s, rfl⟩
  | some m => exact ceRelease_kept m s

/-- The carrier engines execute after a load that passes its checks, and where they did before. -/
theorem ceLoad_on (s : State) : ((ceLoad s).eng.e[(12 : Fin 24)]).on = ((ceImage s).isSome || (s.eng.e[(12 : Fin 24)]).on) := by
  rw [ceLoad_eq]
  cases ceImage s with
  | none => rfl
  | some m => exact ceRelease_on m s

/-- PD-CE is on, or comes on with engines that pass their checks. -/
def ceReady (s : State) : Prop := bit s.pwr.domains 3 = true ∨ ((ceLoad s).eng.e[(12 : Fin 24)]).on = true

/-- With its carrier engines ready a skein starts, and they stay ready. -/
theorem skeinBegin_ready {s : State} (h : ceReady s) (p : Fin 4) : SameIO s (skeinBegin p s) ∧ ceReady (skeinBegin p s) := by
  have starts (v : State) (hv : bit v.pwr.domains 3 = true) : ceReady (skeinStart p v) := .inl (by rw [skeinStart_pwr]; exact hv)
  unfold skeinBegin
  split
  next on => exact ⟨skeinStart_sameIO p s, starts s on⟩
  next off =>
    have on := h.resolve_left off
    dsimp only
    rw [State.onPwr_eng, if_pos on]
    refine ⟨(ceLoad_kept s).toSameIO.trans ((SameIO.onPwr _ _).trans (skeinStart_sameIO p _)), starts _ ?_⟩
    simp [bit_setBit]

/-- Without them it is a device fault. -/
theorem skeinBegin_unready {s : State} (h : ¬ ceReady s) (p : Fin 4) : skeinBegin p s = devFault (devRep 0x4B 10 0x0E) s := by
  obtain ⟨off, out⟩ := not_or.mp h
  unfold skeinBegin
  rw [if_neg off]
  dsimp only
  rw [State.onPwr_eng, if_neg out]

/-- Starts of skeins as RUN is entered: a device fault ends them. -/
def skeinRun (p : Fin 4) (s : State) : State := if s.sys.runState == .run then skeinBegin p s else s

theorem each_skeinRun_ready (l : List (Fin 4)) {s : State} (h : ceReady s) : SameIO s (each l skeinRun s) := by
  refine (each_keeps (P := fun u => SameIO s u ∧ ceReady u) (fun p u hu => ?_) ⟨SameIO.refl s, h⟩).1
  obtain ⟨same, ready⟩ := hu
  unfold skeinRun
  split
  · obtain ⟨begun, ready⟩ := skeinBegin_ready ready p
    exact ⟨same.trans begun, ready⟩
  · exact ⟨same, ready⟩

theorem each_skeinRun_idle (l : List (Fin 4)) {s : State} (h : s.sys.runState ≠ .run) : each l skeinRun s = s :=
  each_eq_self fun p => by simp [skeinRun, h]

theorem each_skeinRun_unready {l : List (Fin 4)} (hl : l ≠ []) {s : State} (hs : s.sys.runState = .run) (h : ¬ ceReady s) :
    each l skeinRun s = devFault (devRep 0x4B 10 0x0E) s := by
  obtain ⟨p, l, rfl⟩ := List.exists_cons_of_ne_nil hl
  obtain ⟨⟨state, -⟩, -⟩ := devFault_live (.inr (.inl hs)) (devRep 0x4B 10 0x0E)
  have first : skeinRun p s = devFault (devRep 0x4B 10 0x0E) s := by
    rw [skeinRun, hs]
    exact skeinBegin_unready h p
  show each l skeinRun (skeinRun p s) = _
  rw [first, each_skeinRun_idle l (by rw [state]; decide)]

/-! ## START (R48, R49) -/

/-- What an entry to RUN leaves of the state, the run state record apart. -/
structure RunKept (s u : State) : Prop where
  mem : u.mem = s.mem
  sin : u.sin = s.sin
  sout : u.sout = s.sout
  otp : u.otp = s.otp
  hld : u.hld = s.hld
  t : u.t = s.t
  pwr : u.pwr = s.pwr
  csc : u.csc = s.csc
  flash : u.upd.flash = s.upd.flash
  running : u.upd.running = s.upd.running
  secs : u.upd.secs = s.upd.secs
  on : (u.eng.e[(12 : Fin 24)]).on = (s.eng.e[(12 : Fin 24)]).on

theorem RunKept.trans {s t u : State} (h : RunKept s t) (g : RunKept t u) : RunKept s u :=
  ⟨g.mem.trans h.mem, g.sin.trans h.sin, g.sout.trans h.sout, g.otp.trans h.otp, g.hld.trans h.hld, g.t.trans h.t, g.pwr.trans h.pwr,
    g.csc.trans h.csc, g.flash.trans h.flash, g.running.trans h.running, g.secs.trans h.secs, g.on.trans h.on⟩

theorem RunKept.onSys (f : SysS → SysS) (s : State) : RunKept s (s.onSys f) :=
  ⟨rfl, rfl, rfl, rfl, rfl, rfl, rfl, rfl, rfl, rfl, rfl, rfl⟩

theorem RunKept.onCsl (f : CslS → CslS) (s : State) : RunKept s (s.onCsl f) :=
  ⟨rfl, rfl, rfl, rfl, rfl, rfl, rfl, rfl, rfl, rfl, rfl, rfl⟩

theorem RunKept.onTrial {s u : State} (h : RunKept s u) (x : Option (DWord × Nat)) :
    RunKept s (u.onUpd fun y => { y with trialTime := x }) :=
  ⟨h.mem, h.sin, h.sout, h.otp, h.hld, h.t, h.pwr, h.csc, h.flash, h.running, h.secs, h.on⟩

theorem setRun_kept {new : RunState} (h : new ≠ .safeHold) (cause : Word) (s : State) : RunKept s (setRun new cause s) := by
  obtain ⟨-, mem, otp, sout, -⟩ := setRun_sameCore new cause s
  obtain ⟨pwr, -, hld, t, -, csc⟩ := setRun_aside new cause s
  have upd := setRun_upd h cause s
  exact ⟨mem, setRun_sin h cause s, sout, otp, hld, t, pwr, csc, by rw [upd], by rw [upd], by rw [upd], setRun_on h cause s 12⟩

/-- RUN is entered, its first entry noted, and DIV counts from here (R311). -/
def runBegun (cause : Word) (s : State) : State :=
  setRun .run cause <| (s.onSys fun x => { x with ranOnce := true, holdReason := 0 }).onCsl fun c =>
    { c with s := c.s.map fun y => { y with divs := 0 } }

theorem runBegun_kept (cause : Word) (s : State) : RunKept s (runBegun cause s) :=
  ((RunKept.onSys _ s).trans (RunKept.onCsl _ _)).trans (setRun_kept (by decide) cause _)

theorem runBegun_sys (cause : Word) (s : State) :
    (runBegun cause s).sys = { s.sys with ranOnce := true, holdReason := 0, runState := .run } := (setRun_sameCore ..).sys

/-- Entry to RUN before any skein starts: at its first the health time of a trial begins (R418). -/
def runEntered (cause : Word) (s : State) : State :=
  let s1 := runBegun cause s
  if !s.sys.ranOnce && s1.upd.trial && !s1.upd.rule then s1.onUpd fun u => { u with trialTime := some (s.t.tbA, 600) } else s1

theorem runEntered_kept (cause : Word) (s : State) : RunKept s (runEntered cause s) := by
  unfold runEntered
  dsimp only
  split
  · exact (runBegun_kept cause s).onTrial _
  · exact runBegun_kept cause s

theorem runEntered_sys (cause : Word) (s : State) :
    (runEntered cause s).sys = { s.sys with ranOnce := true, holdReason := 0, runState := .run } := by
  rw [← runBegun_sys cause s]
  unfold runEntered
  dsimp only
  split
  · rw [State.onUpd_sys]
  · rfl

theorem ceReady_runEntered (cause : Word) (s : State) : ceReady (runEntered cause s) ↔ ceReady s := by
  have kept := runEntered_kept cause s
  have image := ceImage_congr kept.otp kept.pwr kept.flash kept.running kept.secs
  rw [ceReady, ceReady, ceLoad_on, ceLoad_on, image, kept.on, kept.pwr]

/-- The skeins that start with RUN. -/
def autoSkeins (s : State) : List (Fin 4) :=
  (List.finRange 4).filter fun p => s.csc.p[p].st == .off && bit s.csc.p[p].cfg 0 && bit s.csc.p[p].cfg 1

theorem mem_autoSkeins {p : Fin 4} {s : State} :
    p ∈ autoSkeins s ↔ (s.csc.p[p]).st = .off ∧ bit (s.csc.p[p]).cfg 0 = true ∧ bit (s.csc.p[p]).cfg 1 = true := by
  simp [autoSkeins, and_assoc]

theorem autoSkeins_runEntered (cause : Word) (s : State) : autoSkeins (runEntered cause s) = autoSkeins s := by
  rw [autoSkeins, autoSkeins, (runEntered_kept cause s).csc]

theorem enterRun_eq (cause : Word) (s : State) : enterRun cause s =
    if !s.sys.ranOnce && !cscAbsent s then each (autoSkeins (runEntered cause s)) skeinRun (runEntered cause s)
    else runEntered cause s := by
  unfold enterRun runEntered runBegun autoSkeins
  dsimp only
  rfl

/-- A skein starts with RUN: START_ON of the port, at the first entry since the cast-on. -/
def startsWithRun (s : State) (p : Fin 4) : Prop := s.sys.ranOnce = false ∧ cscAbsent s = false ∧ p ∈ autoSkeins s

/-- Should skeins start whose engines fail their checks, the entry to RUN is a device fault. -/
theorem enterRun_unready {s : State} {p : Fin 4} (h : startsWithRun s p) (hc : ¬ ceReady s) (cause : Word) :
    lockedOut 0x4B (enterRun cause s) ∧ (enterRun cause s).csc = s.csc := by
  obtain ⟨first, present, auto⟩ := h
  have run : (runEntered cause s).sys.runState = .run := by rw [runEntered_sys]
  have fault : enterRun cause s = devFault (devRep 0x4B 10 0x0E) (runEntered cause s) := by
    rw [enterRun_eq, first, present, autoSkeins_runEntered]
    exact each_skeinRun_unready (List.ne_nil_of_mem auto) run (mt (ceReady_runEntered cause s).mp hc)
  obtain ⟨locked, aside, -⟩ := devFault_live (.inr (.inl run)) (devRep 0x4B 10 0x0E)
  rw [fault]
  exact ⟨locked, aside.csc.trans (runEntered_kept cause s).csc⟩

/-- Otherwise RUN is entered, and the skeins that start with it keep what it keeps but the memories. -/
theorem enterRun_ready {s : State} (h : (∀ p, ¬ startsWithRun s p) ∨ ceReady s) (cause : Word) :
    SameIO (runEntered cause s) (enterRun cause s) := by
  rw [enterRun_eq]
  split
  next first =>
    rw [Bool.and_eq_true, Bool.not_eq_true', Bool.not_eq_true'] at first
    rcases h with none | ready
    · have nil : autoSkeins (runEntered cause s) = [] := by
        rw [autoSkeins_runEntered]
        exact List.eq_nil_iff_forall_not_mem.mpr fun p hp => none p ⟨first.1, first.2, hp⟩
      rw [nil]
      exact SameIO.refl _
    · exact each_skeinRun_ready _ ((ceReady_runEntered cause s).mpr ready)
  · exact SameIO.refl _

theorem enterRun_again {s : State} (h : s.sys.ranOnce = true) (cause : Word) : enterRun cause s = runEntered cause s := by
  rw [enterRun_eq, h]
  rfl

theorem ctrlStart_met {s : State} (h : s.sys.runState = .safeHold) (hm : s.mayStart) : ctrlStart s = enterRun 1 (ctrlResult 0 s) := by
  rw [ctrlStart, h, startUnmet_eq_none.mpr hm]
  rfl

theorem ceReady_onSys (f : SysS → SysS) (s : State) : ceReady (s.onSys f) ↔ ceReady s := by
  have image : ceImage (s.onSys f) = ceImage s := ceImage_congr rfl rfl rfl rfl rfl
  rw [ceReady, ceReady, ceLoad_on, ceLoad_on, image]
  rfl

/-- An accepted START with its conditions met is an entry to RUN, and its events. -/
theorem exec_start {s : State} (hs : ctrlServed s = true) (h : s.sys.runState = .safeHold) (hm : s.mayStart) : ∃ u,
    exec (.start 0x6A5C) s = .next u ∧ Fab (enterRun 1 (s.onSys fun x => { x with lastCmd := 1, result := 0 })) u := by
  have runs : sysCmd 0x6A5C 1 ctrlStart s = enterRun 1 (s.onSys fun x => { x with lastCmd := 1, result := 0 }) :=
    (sysCmd_accepted hs 1 ctrlStart).trans (ctrlStart_met (s := s.onSys fun x => { x with lastCmd := 1 }) h hm)
  refine ⟨_, rfl, ?_⟩
  rw [← runs]
  exact noting_fab ..

/-! ## HOLD, SLEEP and RESET (R49, R50, R56) -/

/-- With cores that host outputs, a HOLD that begins waits for them. -/
theorem holdStart_waits {s : State} (h : s.sout.hosting ≠ 0) (why : HoldWhy) : holdStart why s =
    s.onSys fun x => { x with holding := true, holdWhy := why, holdPassed := 0, sealGone := false } := by
  have waits : (s.sout.hosting &&& ~~~(0#4) == 0) = false := by
    rw [BitVec.not_zero, BitVec.and_allOnes]
    exact beq_false_of_ne h
  exact if_neg (Bool.eq_false_iff.mp waits)

theorem ctrlHold_begins {s : State} (hr : s.sys.runState = .run) (hd : s.sys.devPending = false) (hh : s.sys.holding = false)
    (ho : s.sout.hosting ≠ 0) : ctrlHold s = s.onSys fun x =>
      { x with result := 1, holding := true, holdWhy := .command, holdPassed := 0, sealGone := false } := by
  have begins : ctrlHold s = holdStart .command (ctrlResult 1 s) := by simp [ctrlHold, hr, hd, hh]
  rw [begins, holdStart_waits (s := ctrlResult 1 s) ho]
  rfl

theorem ctrlHold_again {s : State} (hr : s.sys.runState = .run) (hd : s.sys.devPending = false) (hh : s.sys.holding = true) :
    ctrlHold s = ctrlResult 1 s := by
  simp [ctrlHold, hr, hd, hh]

theorem ctrlService_enters {s : State} (hr : s.sys.runState = .safeHold) (h1 : s.sys.life ≠ .serviceLocked) (h2 : s.sys.life ≠ .retired)
    (h3 : s.sys.recovery = false) : ctrlService s = setRun .service 3 (ctrlResult 0 s) := by
  simp [ctrlService, hr, h1, h2, h3]

theorem exec_serviceEnter {s : State} (hs : ctrlServed s = true) (hr : s.sys.runState = .safeHold) (h1 : s.sys.life ≠ .serviceLocked)
    (h2 : s.sys.life ≠ .retired) (h3 : s.sys.recovery = false) : exec (.serviceEnter 0x6A5C) s =
      .next (setRun .service 3 (s.onSys fun x => { x with lastCmd := 3, result := 0 })) := by
  have enters := (sysCmd_accepted hs 3 ctrlService).trans (ctrlService_enters (s := s.onSys fun x => { x with lastCmd := 3 }) hr h1 h2 h3)
  exact congrArg Host.Outcome.next enters

theorem ctrlSleep_accepted {s : State} (hd : s.sys.devPending = false) (hr : s.sys.runState = .safeHold ∨ s.sys.runState = .run)
    (hb : sleepBar s = none) : ctrlSleep s = ctrlResult 1 (s.onSys fun x =>
      { x with sleeping := true, sleepDone := maskOf 4 fun c => !(s.eng.c.getN c {}).inScan }) := by
  rcases hr with hr | hr <;> simp [ctrlSleep, hd, hr, hb]

/-- A SLEEP that meets no bar waits for the safety cores whose scan runs. -/
theorem exec_sleep {s : State} (hs : ctrlServed s = true) (hd : s.sys.devPending = false)
    (hr : s.sys.runState = .safeHold ∨ s.sys.runState = .run) (hb : sleepBar s = none) :
    exec (.sleep 0x6A5C) s = .next (s.onSys fun x =>
      { x with lastCmd := 5, result := 1, sleeping := true, sleepDone := maskOf 4 fun c => !(s.eng.c.getN c {}).inScan }) := by
  have accepted := (sysCmd_accepted hs 5 ctrlSleep).trans (ctrlSleep_accepted (s := s.onSys fun x => { x with lastCmd := 5 }) hd hr hb)
  exact congrArg Host.Outcome.next accepted

theorem ctrlReset_waits {s : State} (h : s.upd.commit ≠ none) :
    ctrlReset s = ctrlResult 1 (s.onSys fun x => { x with resetWait := true }) :=
  if_pos (Option.isSome_iff_ne_none.mpr h)

/-- Settles O41: each accepted write by its equation; START by the skeins that start with RUN, whose carrier engines either stand
ready throughout or fail with the first of them. -/
theorem controlCommands : Obligations.ControlCommands := by
  intro s hs same
  refine ⟨fun hr hm => ?_, fun hr hd hh ho => ?_, fun hr hd hh => ?_, fun hr h1 h2 h3 => ?_,
    fun hd hr hb => ?_, fun hc => ?_⟩
  · refine ⟨fun p hp hl => ?_, fun h => ?_⟩
    · obtain ⟨first, present, off, used, auto⟩ := hp
      obtain ⟨u, run, fab⟩ := exec_start hs hr hm
      obtain ⟨locked, ports⟩ := enterRun_unready (s := s.onSys fun x => { x with lastCmd := 1, result := 0 })
        ⟨first, present, mem_autoSkeins.mpr ⟨off, used, auto⟩⟩ (mt (ceReady_onSys _ s).mp hl) 1
      exact ⟨u, run, fab.lockedOut locked, by rw [fab.csc, ports]; exact off⟩
    · obtain ⟨u, run, fab⟩ := exec_start hs hr hm
      have ready : (∀ p, ¬ startsWithRun (s.onSys fun x => { x with lastCmd := 1, result := 0 }) p) ∨
          ceReady (s.onSys fun x => { x with lastCmd := 1, result := 0 }) :=
        h.imp (fun none p ⟨first, present, auto⟩ => none p ⟨first, present, mem_autoSkeins.mp auto⟩) (ceReady_onSys _ s).mpr
      have io := (enterRun_ready ready 1).trans fab.sameIO
      have kept := runEntered_kept 1 (s.onSys fun x => { x with lastCmd := 1, result := 0 })
      have sys := io.sys.trans (runEntered_sys ..)
      refine ⟨u, run, by rw [sys], by rw [sys]; rfl, by rw [sys], by rw [sys], ⟨io.sin.trans kept.sin, io.sout.trans kept.sout,
        io.hld.trans kept.hld, io.otp.trans kept.otp, io.t.trans kept.t⟩, fun again => ?_⟩
      rw [fab.mem, enterRun_again (s := s.onSys fun x => { x with lastCmd := 1, result := 0 }) again]
      exact kept.mem
  · exact congrArg _ (noting_sysCmd (cmd := 2) hs (ctrlHold_begins (s := s.onSys _) hr hd hh ho) rfl)
  · exact congrArg _ (noting_sysCmd (cmd := 2) hs (ctrlHold_again (s := s.onSys _) hr hd hh) rfl)
  · have notHold : RunState.service ≠ .safeHold := by decide
    have kept := setRun_kept notHold 3 (s.onSys fun x => { x with lastCmd := 3, result := 0 })
    have sys := (setRun_sameCore .service 3 (s.onSys fun x => { x with lastCmd := 3, result := 0 })).sys
    refine ⟨_, exec_serviceEnter hs hr h1 h2 h3, ?_, ?_, ⟨kept.sin, kept.sout, kept.hld, kept.otp, kept.t⟩, kept.mem, ?_⟩
    · exact congrArg SysS.runState sys
    · exact congrArg SysS.result sys
    · exact congrArg UpdS.armed (setRun_upd notHold 3 _)
  · refine ⟨_, exec_sleep hs hd hr hb, rfl, fun c => ?_⟩
    exact (bit_maskOf c.isLt _).trans (congrArg (fun x : Core => !x.inScan) (Tab.getN_lt ..))
  · exact congrArg _ ((sysCmd_accepted hs 7 ctrlReset).trans (ctrlReset_waits (s := s.onSys _) hc))

end Sys2Proof.Machine
end

section
/-! PROOFS. Supplies and clocks (O44): what the levels of the field terminals leave alone, a bank and PD-FDIG that go down, the check of
    a returned PD-FDIG, and the device faults of regulators and clocks. -/
namespace Sys2Proof.Machine

/-! ## What the field inputs and outputs of channel A leave alone -/

/-- `u` is `s` in what no level of a field terminal reaches. -/
structure FieldKept (s u : State) : Prop where
  t : u.t = s.t
  sys : u.sys = s.sys
  pwr : u.pwr = s.pwr
  mem : u.mem = s.mem
  otp : u.otp = s.otp
  upd : u.upd = s.upd
  csl : u.csl = s.csl
  csc : u.csc = s.csc

theorem FieldKept.refl (s : State) : FieldKept s s := ⟨rfl, rfl, rfl, rfl, rfl, rfl, rfl, rfl⟩

theorem FieldKept.trans {s t u : State} (h : FieldKept s t) (g : FieldKept t u) : FieldKept s u :=
  ⟨g.t.trans h.t, g.sys.trans h.sys, g.pwr.trans h.pwr, g.mem.trans h.mem, g.otp.trans h.otp, g.upd.trans h.upd, g.csl.trans h.csl,
    g.csc.trans h.csc⟩

theorem Fab.fieldKept {s u : State} (h : Fab s u) : FieldKept s u := ⟨h.t, h.sys, h.pwr, h.mem, h.otp, h.upd, h.csl, h.csc⟩

theorem FieldKept.onSin (f : SinS → SinS) (s : State) : FieldKept s (s.onSin f) := ⟨rfl, rfl, rfl, rfl, rfl, rfl, rfl, rfl⟩
theorem FieldKept.onSout (f : SoutS → SoutS) (s : State) : FieldKept s (s.onSout f) := ⟨rfl, rfl, rfl, rfl, rfl, rfl, rfl, rfl⟩
theorem FieldKept.onHld (f : HldS → HldS) (s : State) : FieldKept s (s.onHld f) := ⟨rfl, rfl, rfl, rfl, rfl, rfl, rfl, rfl⟩
theorem FieldKept.onTmr (f : TmrS → TmrS) (s : State) : FieldKept s (s.onTmr f) := ⟨rfl, rfl, rfl, rfl, rfl, rfl, rfl, rfl⟩

/-- Beside these, the outputs are as they were, and PD-FDIG's check: a step of the inputs. -/
structure InStep (s u : State) : Prop extends FieldKept s u where
  sout : u.sout = s.sout
  checking : u.sin.checking = s.sin.checking

theorem InStep.refl (s : State) : InStep s s := ⟨FieldKept.refl s, rfl, rfl⟩

theorem InStep.trans {s t u : State} (h : InStep s t) (g : InStep t u) : InStep s u :=
  ⟨h.toFieldKept.trans g.toFieldKept, g.sout.trans h.sout, g.checking.trans h.checking⟩

theorem InStep.setTp (g : SinS → Tab TpSrc 8) (s : State) : InStep s (s.onSin fun x => { x with tp := g x }) :=
  ⟨FieldKept.onSin _ s, rfl, rfl⟩
theorem InStep.setI (g : SinS → Tab InA 32) (s : State) : InStep s (s.onSin fun x => { x with i := g x }) :=
  ⟨FieldKept.onSin _ s, rfl, rfl⟩
theorem InStep.onTp (j : Fin 8) (f : TpSrc → TpSrc) (s : State) : InStep s (s.onTp j f) := ⟨FieldKept.onSin _ s, rfl, rfl⟩
theorem InStep.onI (n : Fin 32) (f : InA → InA) (s : State) : InStep s (s.onI n f) := ⟨FieldKept.onSin _ s, rfl, rfl⟩
theorem InStep.onPair (k : Fin 16) (f : PairA → PairA) (s : State) : InStep s (s.onPair k f) := ⟨FieldKept.onSin _ s, rfl, rfl⟩

theorem Fab.inStep {s u : State} (h : Fab s u) : InStep s u := ⟨h.fieldKept, h.sout, by rw [h.sin]⟩

theorem each_inStep {α : Type} {l : List α} {f : α → State → State} (hf : ∀ a s, InStep s (f a s)) (s : State) :
    InStep s (each l f s) :=
  each_keeps (P := InStep s) (fun a u h => h.trans (hf a u)) (InStep.refl s)

/-- Beside these, the inputs are as they were: a step of the outputs. -/
structure OutStep (s u : State) : Prop extends FieldKept s u where
  sin : u.sin = s.sin

theorem OutStep.refl (s : State) : OutStep s s := ⟨FieldKept.refl s, rfl⟩

theorem OutStep.trans {s t u : State} (h : OutStep s t) (g : OutStep t u) : OutStep s u :=
  ⟨h.toFieldKept.trans g.toFieldKept, g.sin.trans h.sin⟩

theorem OutStep.onSout (f : SoutS → SoutS) (s : State) : OutStep s (s.onSout f) := ⟨FieldKept.onSout f s, rfl⟩

theorem OutStep.onO (k : Fin 16) (f : OutA → OutA) (s : State) : OutStep s (s.onO k f) := OutStep.onSout _ s

theorem Fab.outStep {s u : State} (h : Fab s u) : OutStep s u := ⟨h.fieldKept, h.sin⟩

theorem each_outStep {α : Type} {l : List α} {f : α → State → State} (hf : ∀ a s, OutStep s (f a s)) (s : State) :
    OutStep s (each l f s) :=
  each_keeps (P := OutStep s) (fun a u h => h.trans (hf a u)) (OutStep.refl s)

/-- What the step of each entry establishes for it, and every step keeps for each, holds for all. -/
theorem each_establishes {α : Type} {Q : α → State → Prop} {f : α → State → State} (own : ∀ a s, Q a (f a s))
    (kept : ∀ a b s, Q b s → Q b (f a s)) {l : List α} {a : α} (ha : a ∈ l) (s : State) : Q a (each l f s) := by
  induction l generalizing s with
  | nil => cases ha
  | cons b l ih =>
    rcases List.mem_cons.mp ha with rfl | ha
    · exact each_keeps (P := Q a) (s := f a s) (fun b u h => kept b a u h) (own a s)
    · exact ih ha (f b s)

/-- What the step of each entry of a list keeps, the list keeps. -/
theorem each_keeps_of_mem {α : Type} {P : State → Prop} {f : α → State → State} {l : List α} (hf : ∀ a ∈ l, ∀ s, P s → P (f a s))
    {s : State} (h : P s) : P (each l f s) := by
  induction l generalizing s with
  | nil => exact h
  | cons a l ih => exact ih (fun b hb => hf b (List.mem_cons_of_mem a hb)) (hf a List.mem_cons_self s h)

/-! ## Inputs and test-pulse sources (R183, R200, R201) -/

theorem captureEdge_inStep (src : Nat) (falling : Bool) (s : State) : InStep s (captureEdge src falling s) :=
  ⟨FieldKept.onTmr _ s, rfl, rfl⟩

theorem captureEdge_outStep (src : Nat) (falling : Bool) (s : State) : OutStep s (captureEdge src falling s) := ⟨FieldKept.onTmr _ s, rfl⟩

theorem presentEdge_inStep (n : Fin 32) (lvl : Bool) (s : State) : InStep s (presentEdge n lvl s) := by
  unfold presentEdge
  dsimp only
  split
  · exact InStep.onI n _ s
  · exact (InStep.onI n _ s).trans (captureEdge_inStep ..)

theorem onI_present (n m : Fin 32) (f : InA → InA) (s : State) :
    ((s.onI n f).sin.i[m]).present = if n = m then (f s.sin.i[n]).present else (s.sin.i[m]).present := by
  rw [State.onI_sin]
  show ((s.sin.i.upd n f)[m.val]).present = _
  rw [Tab.upd_get, apply_ite InA.present]
  exact if_congr Fin.ext_iff.symm rfl rfl

/-- An input presents the level it is given. -/
theorem presentEdge_present (n m : Fin 32) (lvl : Bool) (s : State) :
    ((presentEdge n lvl s).sin.i[m]).present = if n = m then lvl else (s.sin.i[m]).present := by
  unfold presentEdge
  dsimp only
  split
  next same =>
    rw [onI_present, apply_ite InA.present, InA.startFilter, ite_self, beq_iff_eq.mp same]
  next differs =>
    show ((s.onI n _).sin.i[m]).present = _
    rw [onI_present]
    congr 1
    split
    · rfl
    · split <;> rfl

theorem followTp_inStep (j : Fin 8) (s : State) : InStep s (followTp j s) := InStep.onTp j _ s

theorem maskStart_inStep (j : Fin 8) (s : State) : InStep s (maskStart j s) := InStep.onTp j _ s

theorem tpLock_inStep (n : Fin 32) (s : State) : InStep s (tpLock n s) := InStep.onPair _ _ s

theorem judgeOwn_inStep (j : Fin 8) (s : State) : InStep s (judgeOwn j s) := by
  refine (InStep.onTp j _ s).trans (each_inStep (fun n u => ?_) _)
  dsimp only
  split
  · split
    · split
      · exact (InStep.onI n _ u).trans ((report_fab ..).inStep.trans (tpLock_inStep n _))
      · exact InStep.onI n _ u
    · exact InStep.onI n _ u
  · exact InStep.refl u

theorem tpPresent_inStep (j : Fin 8) (lvl : Bool) (s : State) : InStep s (tpPresent j lvl s) := by
  unfold tpPresent
  split
  · exact InStep.refl s
  · split
    · exact (judgeOwn_inStep j s).trans (followTp_inStep j _)
    · exact (maskStart_inStep j s).trans (followTp_inStep j _)

theorem sourcesOn_inStep (s : State) : InStep s (sourcesOn s) :=
  (InStep.setTp _ s).trans (each_inStep followTp_inStep _)

theorem when_captureEdge_inStep (b : Bool) (src : Nat) (falling : Bool) (s : State) : InStep s (when b (captureEdge src falling) s) := by
  cases b
  · exact InStep.refl s
  · exact captureEdge_inStep ..

theorem sample_inStep (n : Fin 32) (lvl : Bool) (s : State) : InStep s (sample n lvl s) := by
  unfold sample
  dsimp only
  split
  · exact ((InStep.onI n _ s).trans (InStep.onI n _ _)).trans (when_captureEdge_inStep ..)
  · split
    · exact InStep.onI n _ s
    · exact (InStep.onI n _ s).trans (presentEdge_inStep ..)

/-! ## Outputs (R218, R219) -/

theorem readbackA_outStep (k : Fin 16) (lvl : Bool) (s : State) : OutStep s (readbackA k lvl s) := by
  unfold readbackA
  split
  · exact OutStep.refl s
  · exact (OutStep.onSout _ s).trans (captureEdge_outStep ..)

theorem trackOuts_outStep (s : State) : OutStep s (trackOuts s) := OutStep.onSout _ s

theorem driveA_outStep (s : State) : OutStep s (driveA s) := OutStep.onSout _ s

theorem addCause_outStep (k : Fin 16) (c : OutCause) (p : Fin 16) (s : State) : OutStep s (addCause k c p s) :=
  (OutStep.onO k _ s).trans (driveA_outStep _)

/-- An output presents the readback it is given. -/
theorem onO_get (k j : Fin 16) (f : OutA → OutA) (s : State) : (s.onO k f).sout.o[j] = if k = j then f s.sout.o[k] else s.sout.o[j] := by
  rw [State.onO_sout]
  show (s.sout.o.upd k f)[j.val] = _
  rw [Tab.upd_get]
  exact if_congr Fin.ext_iff.symm rfl rfl

theorem readbackA_rb (k j : Fin 16) (lvl : Bool) (s : State) :
    ((readbackA k lvl s).sout.o[j]).rb = if k = j then lvl else (s.sout.o[j]).rb := by
  unfold readbackA
  split
  next same =>
    split
    next h => rw [← h, beq_iff_eq.mp same]
    next => rfl
  next differs =>
    show ((s.onO k _).sout.o[j]).rb = _
    rw [onO_get, apply_ite OutA.rb]

theorem trackOuts_rb (k : Fin 16) (s : State) : ((trackOuts s).sout.o[k]).rb = (s.sout.o[k]).rb := by
  rw [trackOuts, State.onSout_sout]
  exact (congrArg OutA.rb (Tab.gen_get _ k.val k.isLt)).trans rfl

/-! ## PD-FDIG off (R516) -/

theorem fdigLow_kept (s : State) : FieldKept s (fdigLow s) := by
  have tests : InStep s (each (List.finRange 8) (fun j s => if s.sin.tp[j].rb then followTp j (maskStart j s) else s) s) := by
    refine each_inStep (fun j u => ?_) s
    split
    · exact (maskStart_inStep j u).trans (followTp_inStep j _)
    · exact InStep.refl u
  have levels := tests.trans (each_inStep (l := List.finRange 32) (fun n u => presentEdge_inStep n false u) _)
  exact levels.toFieldKept.trans
    ((each_outStep (l := List.finRange 16) (fun k u => readbackA_outStep k false u) _).trans (trackOuts_outStep _)).toFieldKept

theorem FieldKept.onPwr {s u : State} (h : FieldKept s u) (g : PwrS → PwrS) : FieldKept (s.onPwr g) (u.onPwr g) :=
  ⟨h.t, h.sys, congrArg g h.pwr, h.mem, h.otp, h.upd, h.csl, h.csc⟩

theorem fdigOff_kept (s : State) : FieldKept (s.onPwr fun p => { p with domains := setBit p.domains 7 false }) (fdigOff s) :=
  (FieldKept.onSin _ _).trans (fdigLow_kept _)

theorem fdigLow_rb (s : State) (k : Fin 16) : ((fdigLow s).sout.o[k]).rb = false := by
  rw [fdigLow, trackOuts_rb]
  refine each_establishes (Q := fun k u => (u.sout.o[k]).rb = false) (fun k u => ?_) (fun j k u h => ?_) (List.mem_finRange k) _
  · rw [readbackA_rb, if_pos rfl]
  · rw [readbackA_rb, h, ite_self]

theorem fdigLow_present (s : State) (n : Fin 32) : ((fdigLow s).sin.i[n]).present = false := by
  rw [fdigLow, (trackOuts_outStep _).sin, (each_outStep (fun k u => readbackA_outStep k false u) _).sin]
  refine each_establishes (Q := fun n u => (u.sin.i[n]).present = false) (fun n u => ?_) (fun m n u h => ?_) (List.mem_finRange n) _
  · rw [presentEdge_present, if_pos rfl]
  · rw [presentEdge_present, h, ite_self]

/-! ## Bank supplies (R218, R202) -/

theorem sourcesLost_inStep (n : Fin 2) (s : State) : InStep s (sourcesLost n s) :=
  each_inStep (fun j u => ((InStep.onTp j _ u).trans (maskStart_inStep j _)).trans (followTp_inStep j _)) s

theorem driveA_get (k : Fin 16) (s : State) : (driveA s).sout.o[k] = (s.sout.o[k]).drive := Tab.map_get _ _ k.val k.isLt

/-- Lockout causes of an output with one more, unless it holds. -/
def OutA.locked (c : OutCause) (p : Fin 16) (o : OutA) : OutA :=
  if o.causes.any (fun x => x.1 == c && (c != .bound && c != .crossConnect || x.2 == p)) then o
  else { o with
    causes := o.causes ++ [(c, p)]
    pulse := o.pulse.map fun q => { q with void := true }
    suspect := false, found := none, test := false }

theorem addCause_get (k j : Fin 16) (c : OutCause) (p : Fin 16) (s : State) :
    (addCause k c p s).sout.o[j] = (if k = j then (s.sout.o[k]).locked c p else s.sout.o[j]).drive := by
  show (driveA (s.onO k (OutA.locked c p))).sout.o[j] = _
  rw [driveA_get, onO_get]

theorem OutA.locked_cfg (c : OutCause) (p : Fin 16) (o : OutA) : (o.locked c p).cfg = o.cfg := by
  unfold OutA.locked
  split <;> rfl

theorem addCause_cfg (k j : Fin 16) (c : OutCause) (p : Fin 16) (s : State) :
    ((addCause k c p s).sout.o[j]).cfg = (s.sout.o[j]).cfg := by
  rw [addCause_get]
  show OutA.cfg (if k = j then _ else _) = _
  split
  next h => rw [OutA.locked_cfg, h]
  next => rfl

/-- A BANK_SUPPLY lockout stands once it has been added. -/
theorem OutA.locked_bankSupply (p : Fin 16) (o : OutA) : (o.locked .bankSupply p).causes.any (fun c => c.1 == .bankSupply) = true := by
  unfold OutA.locked
  split
  next held => simpa using held
  next => simp

/-- The BANK_SUPPLY lockout of one output in use. -/
def bankLock (k : Fin 16) (s : State) : State := if bit s.sout.o[k].cfg 0 then addCause k .bankSupply k s else s

theorem bankFail_eq (n : Fin 2) (s : State) : bankFail n s = each ((List.finRange 16).filter fun k => bankOf k == n) bankLock
    (report (grpRep 0x92 5 n.val) (s.onSout fun x => { x with bankCond := x.bankCond.upd n fun _ => true })) := rfl

theorem bankLock_outStep (k : Fin 16) (s : State) : OutStep s (bankLock k s) := by
  unfold bankLock
  split
  · exact addCause_outStep ..
  · exact OutStep.refl s

theorem bankFail_outStep (n : Fin 2) (s : State) : OutStep s (bankFail n s) :=
  ((OutStep.onSout _ s).trans (report_fab ..).outStep).trans (each_outStep bankLock_outStep _)

/-- What BANK_SUPPLY lockouts leave of every output and bank. -/
theorem bankLock_cfg (k j : Fin 16) (s : State) : ((bankLock k s).sout.o[j]).cfg = (s.sout.o[j]).cfg := by
  unfold bankLock
  split
  · exact addCause_cfg ..
  · rfl

theorem bankLock_bankCond (k : Fin 16) (s : State) : (bankLock k s).sout.bankCond = s.sout.bankCond := by
  unfold bankLock
  split <;> rfl

theorem bankLock_other {k j : Fin 16} (h : k ≠ j) (s : State) : ((bankLock k s).sout.o[j]).causes = (s.sout.o[j]).causes := by
  unfold bankLock
  split
  · rw [addCause_get, if_neg h]; rfl
  · rfl

/-- An output is locked out by its bank, where it is in use. -/
def bankLocked (k : Fin 16) (s : State) : Prop :=
  bit (s.sout.o[k]).cfg 0 = true → (s.sout.o[k]).causes.any (fun c => c.1 == .bankSupply) = true

theorem bankLock_locks (k : Fin 16) (s : State) : bankLocked k (bankLock k s) := by
  intro used
  rw [bankLock_cfg] at used
  rw [bankLock, if_pos used, addCause_get, if_pos rfl]
  exact OutA.locked_bankSupply k _

theorem bankLock_keeps (k j : Fin 16) {s : State} (h : bankLocked j s) : bankLocked j (bankLock k s) := by
  intro used
  rw [bankLock_cfg] at used
  by_cases hk : k = j
  · subst hk; exact bankLock_locks k s (by rw [bankLock_cfg]; exact used)
  · rw [bankLock_other hk]; exact h used

theorem bankFail_bankCond (n : Fin 2) (s : State) : (bankFail n s).sout.bankCond[n] = true := by
  rw [bankFail_eq]
  refine each_keeps (P := fun u => u.sout.bankCond[n] = true) (fun k u h => ?_) ?_
  · rw [bankLock_bankCond, h]
  · rw [report_sout, State.onSout_sout]
    exact (Tab.upd_get _ n n.val n.isLt _).trans (if_pos rfl)

theorem bankFail_cfg (n : Fin 2) (k : Fin 16) (s : State) : ((bankFail n s).sout.o[k]).cfg = (s.sout.o[k]).cfg := by
  rw [bankFail_eq]
  refine each_keeps (P := fun u => (u.sout.o[k]).cfg = (s.sout.o[k]).cfg) (fun j u h => (bankLock_cfg j k u).trans h) ?_
  rw [report_sout]; rfl

theorem bankFail_locks {n : Fin 2} {k : Fin 16} (hk : bankOf k = n) (s : State) : bankLocked k (bankFail n s) := by
  rw [bankFail_eq]
  exact each_establishes (Q := bankLocked) bankLock_locks (fun j k u h => bankLock_keeps j k h) (by simp [hk]) _

theorem bankFail_other {n : Fin 2} {k : Fin 16} (hk : bankOf k ≠ n) (s : State) :
    ((bankFail n s).sout.o[k]).causes = (s.sout.o[k]).causes := by
  rw [bankFail_eq]
  refine each_keeps_of_mem (P := fun u => (u.sout.o[k]).causes = (s.sout.o[k]).causes) (fun j hj u h => ?_) ?_
  · have other : j ≠ k := by rintro rfl; exact hk (by simpa using (List.mem_filter.mp hj).2)
    exact (bankLock_other other u).trans h
  · rw [report_sout]; rfl

/-! ## SUPPLY_PRESENT_CHANGE (R474) -/

/-- A supply is present. -/
def supplied (which : Fin 3) (s : State) : Bool := if which = 0 then s.pwr.vf1 else if which = 1 then s.pwr.vf2 else s.pwr.van

/-- A supply has crossed its threshold, with its measurement. -/
def supplyMoved (which : Fin 3) (present : Bool) (meas : BitVec 10) (p : PwrS) : PwrS :=
  if which = 0 then { p with vf1 := present, vf1Meas := meas }
  else if which = 1 then { p with vf2 := present, vf2Meas := meas }
  else { p with van := present, vanMeas := meas }

theorem supplyMoved_domains (which : Fin 3) (present : Bool) (meas : BitVec 10) (p : PwrS) :
    (supplyMoved which present meas p).domains = p.domains := by
  unfold supplyMoved
  split_ifs <;> rfl

theorem supplyMoved_field (n : Fin 2) {p : PwrS} (h1 : p.vf1 = true) (h2 : p.vf2 = true) (meas : BitVec 10) :
    let q := supplyMoved ⟨n.val, by omega⟩ false meas p
    (q.vf1, q.vf2) = if n = 0 then (false, true) else (true, false) := by
  fin_cases n
  · exact congrArg (Prod.mk false) h2
  · exact congrArg (Prod.mk · false) h1

/-- The bank that a field supply feeds goes down, and PD-FDIG with the last of them. -/
def bankDown (n : Fin 2) (s : State) : State :=
  let t := sourcesLost n (if s.sout.bankCond[n] then s else bankFail n s)
  if !t.pwr.vf1 && !t.pwr.vf2 && bit t.pwr.domains 7 then fdigOff t else t

theorem supplyChange_eq (which : Fin 3) (present : Bool) (meas : BitVec 10) (s : State) : supplyChange which present meas s =
    let s1 := s.onPwr (supplyMoved which present meas)
    if supplied which s = present || !s.pwr.good then s1
    else
      let s2 := supplyEvent s1
      if present || s.sys.clockWait || s.pwr.resetN || s.sys.runState == .dormant then s2
      else if which = 2 then vanLowAll (fanOff s2) else bankDown (Fin.ofNat 2 which.val) s2 := by
  unfold supplyChange bankDown
  rfl

/-- The device is out of reset, and channel A evaluates. -/
def awake (s : State) : Prop := s.pwr.good = true ∧ s.sys.clockWait = false ∧ s.pwr.resetN = false ∧ s.sys.runState ≠ .dormant

theorem supplyEvent_awake {s : State} (h : s.sys.runState ≠ .dormant) : supplyEvent s = raise 124 s := by
  simp [supplyEvent, h]

theorem supplyEvent_dormant {s : State} (h : s.sys.runState = .dormant) :
    supplyEvent s = s.onPwr fun p => { p with supplyEv := true } := by
  simp [supplyEvent, h]

theorem supplyChange_falls {which : Fin 3} {s : State} (h : awake s) (hw : which ≠ 2) (hv : supplied which s = true) (meas : BitVec 10) :
    supplyChange which false meas s =
      bankDown (Fin.ofNat 2 which.val) (raise 124 (s.onPwr (supplyMoved which false meas))) := by
  obtain ⟨good, clocks, reset, state⟩ := h
  rw [supplyChange_eq]
  dsimp only
  rw [supplyEvent_awake (s := s.onPwr _) state]
  simp [hv, good, clocks, reset, state, hw]

theorem supplyChange_dormant {which : Fin 3} {s : State} (hg : s.pwr.good = true) (hr : s.sys.runState = .dormant)
    (hv : supplied which s = true) (meas : BitVec 10) :
    supplyChange which false meas s = s.onPwr fun p => { supplyMoved which false meas p with supplyEv := true } := by
  rw [supplyChange_eq]
  dsimp only
  rw [supplyEvent_dormant (s := s.onPwr _) hr, if_neg (by simp [hv, hg]), if_pos (by simp [hr])]
  rfl

/-- The bank's outputs are locked out, and PD-FDIG goes on with the other supply. -/
theorem bankDown_other {n : Fin 2} {s : State} (hb : s.sout.bankCond[n] = false) (hv : (s.pwr.vf1 || s.pwr.vf2) = true) :
    InStep (bankFail n s) (bankDown n s) := by
  have lost := sourcesLost_inStep n (bankFail n s)
  have up : (!(sourcesLost n (bankFail n s)).pwr.vf1 && !(sourcesLost n (bankFail n s)).pwr.vf2) = false := by
    rw [lost.pwr, (bankFail_outStep n s).pwr, ← Bool.not_or, hv]; rfl
  unfold bankDown
  dsimp only
  rw [hb, if_neg Bool.false_ne_true, up, Bool.false_and, if_neg Bool.false_ne_true]
  exact lost

/-- Without either supply PD-FDIG goes off. -/
theorem bankDown_last {n : Fin 2} {s : State} (h1 : s.pwr.vf1 = false) (h2 : s.pwr.vf2 = false) (hd : bit s.pwr.domains 7 = true) :
    ∃ t, FieldKept s t ∧ bankDown n s = fdigOff t := by
  have bank : FieldKept s (if s.sout.bankCond[n] then s else bankFail n s) := by
    split
    · exact FieldKept.refl s
    · exact (bankFail_outStep n s).toFieldKept
  have lost := bank.trans (sourcesLost_inStep n _).toFieldKept
  refine ⟨_, lost, ?_⟩
  unfold bankDown
  dsimp only
  rw [lost.pwr, h1, h2, hd]
  exact if_pos rfl

/-! ## The check of a returned PD-FDIG (R516) -/

/-- No output has a width or a good state from before now. -/
def freshOuts (now : DWord) (u : State) : Prop :=
  ∀ k : Fin 16, (u.sout.o[k]).width = 0 ∧ ((u.sout.o[k]).goodSince = none ∨ (u.sout.o[k]).goodSince = some now)

theorem InStep.freshOuts {now : DWord} {s u : State} (h : InStep s u) (hs : freshOuts now s) : freshOuts now u := by
  rw [Machine.freshOuts, h.sout]; exact hs

theorem readbackA_fresh {now : DWord} {s : State} (h : freshOuts now s) (k : Fin 16) (lvl : Bool) : freshOuts now (readbackA k lvl s) := by
  unfold readbackA
  split
  · exact h
  · intro j
    show ((s.onO k _).sout.o[j]).width = 0 ∧ (((s.onO k _).sout.o[j]).goodSince = none ∨ ((s.onO k _).sout.o[j]).goodSince = some now)
    rw [onO_get]
    split
    · exact h k
    · exact h j

theorem sinceWhen_none (now : DWord) (cond : Bool) : sinceWhen now cond none = none ∨ sinceWhen now cond none = some now := by
  cases cond
  · exact .inl rfl
  · exact .inr rfl

theorem sinceWhen_some (now : DWord) (cond : Bool) : sinceWhen now cond (some now) = none ∨ sinceWhen now cond (some now) = some now := by
  cases cond
  · exact .inl rfl
  · exact .inr rfl

theorem trackOuts_fresh {s : State} (h : freshOuts s.t.tbA s) : freshOuts s.t.tbA (trackOuts s) := by
  intro k
  obtain ⟨width, good⟩ := h k
  have tracked : (trackOuts s).sout.o[k] = _ := Tab.gen_get _ k.val k.isLt
  rw [tracked]
  refine ⟨width, ?_⟩
  dsimp only
  split
  · exact good
  · rcases good with good | good <;> rw [good]
    · exact sinceWhen_none ..
    · exact sinceWhen_some ..

/-- A step with which the field side begins: it keeps the check's end, and no output measures from before now. -/
structure BeginStep (s u : State) : Prop extends FieldKept s u where
  checking : u.sin.checking = s.sin.checking
  fresh : freshOuts s.t.tbA s → freshOuts s.t.tbA u

theorem BeginStep.trans {s t u : State} (h : BeginStep s t) (g : BeginStep t u) : BeginStep s u :=
  ⟨h.toFieldKept.trans g.toFieldKept, g.checking.trans h.checking, fun hs => by have := g.fresh; rw [h.t] at this; exact this (h.fresh hs)⟩

theorem InStep.beginStep {s u : State} (h : InStep s u) : BeginStep s u := ⟨h.toFieldKept, h.checking, h.freshOuts⟩

theorem readbackA_beginStep (k : Fin 16) (lvl : Bool) (s : State) : BeginStep s (readbackA k lvl s) :=
  have step := readbackA_outStep k lvl s
  ⟨step.toFieldKept, by rw [step.sin], fun h => readbackA_fresh h k lvl⟩

theorem trackOuts_beginStep (s : State) : BeginStep s (trackOuts s) :=
  ⟨(trackOuts_outStep s).toFieldKept, by rw [(trackOuts_outStep s).sin], trackOuts_fresh⟩

theorem each_beginStep {α : Type} {l : List α} {f : α → State → State} (hf : ∀ a s, BeginStep s (f a s)) (s : State) :
    BeginStep s (each l f s) :=
  each_keeps (P := BeginStep s) (fun a u h => h.trans (hf a u)) (InStep.refl s).beginStep

/-- The field side as LOAD and the check of PD-FDIG begin it. -/
theorem fieldBegin_beginStep (s : State) : BeginStep s (fieldBegin s) := by
  have started : InStep s (when (!stopped s) sourcesOn (s.onSin fun x => { x with i := x.i.map InA.startSampling })) := by
    unfold when
    split
    · exact (InStep.setI _ s).trans (sourcesOn_inStep _)
    · exact InStep.setI _ s
  have sources (v : State) : InStep v (each (List.finRange 8) (fun j s => tpPresent j s.sin.tp[j].raw s) v) :=
    each_inStep (fun j u => tpPresent_inStep ..) v
  have readbacks (v : State) : BeginStep v (trackOuts (each (List.finRange 16) (fun k s => readbackA k s.sout.o[k].raw s) v)) :=
    (each_beginStep (fun k u => readbackA_beginStep ..) v).trans (trackOuts_beginStep _)
  have forced (l : List (Fin 32)) (v : State) : InStep v (each l (fun n s => presentEdge n (safeLevel s.sin n) s) v) :=
    each_inStep (fun n u => presentEdge_inStep ..) v
  have sampled (l : List (Fin 32)) (v : State) : InStep v (each l (fun n s => sample n s.sin.i[n].raw s) v) :=
    each_inStep (fun n u => sample_inStep ..) v
  unfold fieldBegin
  dsimp only
  split
  · exact ((started.trans (sources _)).beginStep.trans (readbacks _)).trans ((forced _ _).trans (sampled _ _)).beginStep
  · exact started.beginStep

/-- Inputs and channel B's cells whose measures start afresh with a checked PD-FDIG, and outputs that measure from now on. -/
def measuresFresh (s : State) : State :=
  ((s.onSin fun x =>
    { x with
      checking := false
      i := x.i.map fun i => { i with overN := 0, within := 0, tpFail := false, foreign := 0, forOnce := 0 } }).onHld fun h =>
    { h with
      ev := h.ev.map fun c => { c with tpA := false, tpB := false, forA := 0, forB := 0 }
      out := h.out.map fun c => { c with openFor := 0 } }).onSout fun x =>
    { x with o := x.o.map fun o => { o with width := 0, again := none, goodSince := none, openSince := o.openSince.map fun _ => s.t.tbA } }

theorem fdigFresh_eq (s : State) : fdigFresh s = fieldBegin (measuresFresh s) := rfl

theorem measuresFresh_kept (s : State) : FieldKept s (measuresFresh s) :=
  ((FieldKept.onSin _ s).trans (FieldKept.onHld _ _)).trans (FieldKept.onSout _ _)

theorem measuresFresh_outs (s : State) : freshOuts s.t.tbA (measuresFresh s) := by
  intro k
  have fresh : (measuresFresh s).sout.o[k] = _ := Tab.map_get _ _ k.val k.isLt
  rw [fresh]
  exact ⟨rfl, .inl rfl⟩

/-- PD-FDIG is checked, and what its levels show is measured from now. -/
theorem fdigFresh_spec (s : State) : FieldKept s (fdigFresh s) ∧ (fdigFresh s).sin.checking = false ∧
    freshOuts s.t.tbA (fdigFresh s) := by
  have kept := measuresFresh_kept s
  have begun := fieldBegin_beginStep (measuresFresh s)
  have fresh := begun.fresh
  rw [kept.t] at fresh
  rw [fdigFresh_eq]
  exact ⟨kept.trans begun.toFieldKept, begun.checking, fresh (measuresFresh_outs s)⟩

/-! ## The rows -/

/-- A row that notes a device fault in a live run state. -/
theorem noting_devFault {f : State → State} {s v : State} {r : Rep} (hf : f s = devFault r v) (hv : v.live) :
    lockedOut r.code (noting f s) ∧ Aside v (noting f s) ∧ (noting f s).mem = v.mem ∧ (noting f s).otp = v.otp := by
  obtain ⟨locked, aside, mem, otp⟩ := devFault_live hv r
  have fab := noting_fab f s
  rw [hf] at fab
  exact ⟨fab.lockedOut locked, aside.trans fab.aside, fab.mem.trans mem, fab.otp.trans otp⟩

theorem exec_vlogicHigh {s : State} {high : Bool} (h : s.pwr.vlogicHigh ≠ high) :
    exec (.vlogicHigh high) s = .next (supplyEvent (s.onPwr fun p => { p with vlogicHigh := high })) := congrArg _ (if_neg h)

/-- EV124 at once, or kept for the wake. -/
theorem supplyEvent_fab (s : State) :
    Fab (s.onPwr fun p => { p with supplyEv := p.supplyEv || s.sys.runState == .dormant }) (supplyEvent s) := by
  by_cases h : s.sys.runState = .dormant
  · have same : (s.onPwr fun p => { p with supplyEv := p.supplyEv || s.sys.runState == .dormant }) = supplyEvent s := by
      simp [supplyEvent_dormant h, h]
    rw [same]
    exact Fab.refl _
  · have same : (s.onPwr fun p => { p with supplyEv := p.supplyEv || s.sys.runState == .dormant }) = s := by
      have awake : (s.sys.runState == .dormant) = false := beq_false_of_ne h
      simp only [awake, Bool.or_false]
      rfl
    rw [same, supplyEvent_awake h]
    exact raise_fab ..

/-- A change of supplies that leaves the domains changes no word that raises an event. -/
theorem noting_onPwr {f : State → State} {s : State} {g : PwrS → PwrS} (hf : f s = s.onPwr g)
    (hd : (g s.pwr).domains = s.pwr.domains) : noting f s = s.onPwr g := by
  have outs : ∀ k, outWord (s.onPwr g) k = outWord s k := fun _ => rfl
  have alps : ∀ n, alpStat (s.onPwr g) n = alpStat s n := by
    intro n
    have fan : fanOn (s.onPwr g) = fanOn s := by rw [fanOn, fanOn, State.onPwr_pwr, hd]
    simp only [alpStat, presentedCmp, fan]
    rfl
  have pairs : notePairs s.sin (s.onPwr g) = s.onPwr g := notePairs_same rfl
  have tests : noteTest s (s.onPwr g) = s.onPwr g := noteTest_same rfl
  rw [noting, hf, pairs, noteOuts_same outs, noteAlp_same alps, tests]

/-- A field supply of an awake device falls: what its bank and PD-FDIG do, and the events of that. -/
theorem exec_supplyFalls {n : Fin 2} {s : State} (h : awake s) (hv : supplied ⟨n.val, by omega⟩ s = true) (meas : BitVec 10) :
    ∃ u, exec (.supplyPresentChange ⟨n.val, by omega⟩ false meas) s = .next u ∧
      Fab (bankDown n (raise 124 (s.onPwr (supplyMoved ⟨n.val, by omega⟩ false meas)))) u := by
  have bank : Fin.ofNat 2 n.val = n := Fin.ext (Nat.mod_eq_of_lt n.isLt)
  have field : (⟨n.val, by omega⟩ : Fin 3) ≠ 2 := by
    have := n.isLt
    simp [Fin.ext_iff]
    omega
  have falls := supplyChange_falls h field hv meas
  rw [bank] at falls
  refine ⟨_, rfl, ?_⟩
  rw [← falls]
  exact noting_fab ..

theorem supplied_field (n : Fin 2) {s : State} (h1 : s.pwr.vf1 = true) (h2 : s.pwr.vf2 = true) :
    supplied ⟨n.val, by omega⟩ s = true := by
  fin_cases n
  · exact h1
  · exact h2

/-- With the other supply present, the bank's outputs in use are locked out and no other. -/
theorem bankSupply_falls {n : Fin 2} {s : State} (h : awake s) (h1 : s.pwr.vf1 = true) (h2 : s.pwr.vf2 = true)
    (hb : s.sout.bankCond[n] = false) (meas : BitVec 10) : ∃ u,
      exec (.supplyPresentChange ⟨n.val, by omega⟩ false meas) s = .next u ∧
      FieldKept (s.onPwr (supplyMoved ⟨n.val, by omega⟩ false meas)) u ∧ u.sout.bankCond[n] = true ∧
      (∀ k : Fin 16, bankOf k = n → bit (s.sout.o[k]).cfg 0 = true →
        (u.sout.o[k]).causes.any (fun c => c.1 == .bankSupply) = true) ∧
      (∀ k : Fin 16, bankOf k ≠ n → (u.sout.o[k]).causes = (s.sout.o[k]).causes) := by
  obtain ⟨u, run, fab⟩ := exec_supplyFalls h (supplied_field n h1 h2) meas
  let v := raise 124 (s.onPwr (supplyMoved ⟨n.val, by omega⟩ false meas))
  have raised : Fab (s.onPwr (supplyMoved ⟨n.val, by omega⟩ false meas)) v := raise_fab ..
  have other : (v.pwr.vf1 || v.pwr.vf2) = true := by
    rw [raised.pwr, State.onPwr_pwr, supplyMoved]
    split
    · simp [h2]
    · split <;> simp [h1]
  have outs : v.sout = s.sout := raised.sout
  have down := bankDown_other (s := v) (by rw [outs, hb]) other
  have sout : u.sout = (bankFail n v).sout := fab.sout.trans down.sout
  refine ⟨u, run, raised.fieldKept.trans ((bankFail_outStep n v).toFieldKept.trans (down.toFieldKept.trans fab.fieldKept)), ?_,
    fun k hk used => ?_, fun k hk => ?_⟩
  · rw [sout]; exact bankFail_bankCond n v
  · rw [sout]
    refine bankFail_locks hk v ?_
    rw [bankFail_cfg, outs, used]
  · rw [sout, bankFail_other hk, outs]

/-- Without either supply the field domain is off and every level presents low. -/
theorem lastSupply_falls {s : State} (h : awake s) (h1 : s.pwr.vf1 = true) (h2 : s.pwr.vf2 = false) (hd : bit s.pwr.domains 7 = true)
    (meas : BitVec 10) : ∃ u, exec (.supplyPresentChange 0 false meas) s = .next u ∧
      FieldKept (s.onPwr fun p => { p with vf1 := false, vf1Meas := meas, domains := setBit p.domains 7 false }) u ∧
      (∀ k : Fin 16, (u.sout.o[k]).rb = false) ∧ ∀ m : Fin 32, (u.sin.i[m]).present = false := by
  obtain ⟨u, run, fab⟩ := exec_supplyFalls (n := 0) h h1 meas
  have raised := raise_fab 124 (s.onPwr (supplyMoved 0 false meas))
  obtain ⟨t, kept, off⟩ := bankDown_last (n := 0) (s := raise 124 (s.onPwr (supplyMoved 0 false meas)))
    (by rw [raise_pwr]; rfl) (by rw [raise_pwr]; exact h2) (by rw [raise_pwr]; exact hd)
  have low := raised.fieldKept.trans kept
  have fab : Fab (fdigOff t) u := off ▸ fab
  refine ⟨u, run, ((low.onPwr fun p => { p with domains := setBit p.domains 7 false }).trans (fdigOff_kept t)).trans fab.fieldKept,
    fun k => ?_, fun m => ?_⟩
  · rw [fab.sout]; exact fdigLow_rb _ k
  · rw [fab.sin]; exact fdigLow_present _ m

theorem exec_supplyPresentChange_dormant {s : State} (hg : s.pwr.good = true) (hr : s.sys.runState = .dormant) (h1 : s.pwr.vf1 = true)
    (meas : BitVec 10) : exec (.supplyPresentChange 0 false meas) s =
      .next (s.onPwr fun p => { p with vf1 := false, vf1Meas := meas, supplyEv := true }) := by
  have changed : supplyChange 0 false meas s = s.onPwr fun p => { p with vf1 := false, vf1Meas := meas, supplyEv := true } :=
    supplyChange_dormant (which := 0) hg hr h1 meas
  exact congrArg Host.Outcome.next (noting_onPwr changed rfl)

theorem exec_pdFdigReturn {s : State} (hp : pastLoad s = true) (h1 : s.pwr.vf1 = true) (hd : bit s.pwr.domains 7 = false) :
    exec .pdFdigReturn s = .next ((s.onPwr fun p => { p with domains := setBit p.domains 7 true }).onSin fun x => { x with checking := true }) :=
  congrArg Host.Outcome.next (if_pos (by simp [hp, h1, hd]))

theorem exec_pdFdigCheckEnd_idle {s : State} (h : s.sin.checking = false) (ok : Bool) : exec (.pdFdigCheckEnd ok) s = .next s := by
  show execPdFdigCheckEnd ok s = _
  simp [execPdFdigCheckEnd, h]

/-- The end of the check of PD-FDIG as its row runs it. -/
def checkEnd (ok : Bool) (s : State) : State := if ok then fdigFresh s else devFault (devRep 0x4B 10 0x0E) s

theorem checkEnd_failed (s : State) : checkEnd false s = devFault (devRep 0x4B 10 0x0E) s := if_neg Bool.false_ne_true

theorem exec_pdFdigCheckEnd {s : State} (h : s.sin.checking = true) (ok : Bool) :
    exec (.pdFdigCheckEnd ok) s = .next (noting (checkEnd ok) s) := by
  show execPdFdigCheckEnd ok s = _
  unfold execPdFdigCheckEnd
  rw [h]
  rfl

/-- What the hard logic die does without its regulator: every switch B opens, and its line and its transmit gates stop. -/
def regulatorLost (s : State) : State :=
  (s.onPwr fun p => { p with hldBad := true }).onHld fun h =>
    { h with h := true, out := h.out.map fun c => { c with closed := false }, gate := h.gate.map fun g => { g with tx := false } }

theorem regulatorLost_closed (s : State) (k : Fin 16) : ((regulatorLost s).hld.out[k]).closed = false := by
  have opened : (regulatorLost s).hld.out[k] = _ := Tab.map_get _ _ k.val k.isLt
  rw [opened]

theorem regulatorLost_tx (s : State) (p : Fin 4) : ((regulatorLost s).hld.gate[p]).tx = false := by
  have stopped : (regulatorLost s).hld.gate[p] = _ := Tab.map_get _ _ p.val p.isLt
  rw [stopped]

theorem exec_hldRegulatorFault {s : State} (h : awake s) :
    exec .hldRegulatorFault s = .next (noting (fun s => devFault (devRep 0x48 0 0) (regulatorLost s)) s) := by
  obtain ⟨good, clocks, reset, -⟩ := h
  show execHldRegulatorFault s = _
  unfold execHldRegulatorFault
  rw [good, clocks, reset]
  rfl

/-- A lost clock stops timebase A. -/
def clockLost (xtal : Bool) (s : State) : State :=
  (s.onPwr fun p => { p with pllLock := false, xtalOk := !xtal, lockLoss := satInc p.lockLoss }).onT fun t => { t with runA := false }

/-- A lost clock as its row runs it. -/
def clockFault (xtal : Bool) (s : State) : State :=
  if s.sys.clockWait || s.pwr.resetN then clockLost xtal s else devFault (devRep 0x49 0 0) (raise 126 (clockLost xtal s))

theorem clockFault_awake {s : State} (h : awake s) (xtal : Bool) :
    clockFault xtal s = devFault (devRep 0x49 0 0) (raise 126 (clockLost xtal s)) := by
  obtain ⟨-, clocks, reset, -⟩ := h
  exact if_neg (by simp [clocks, reset])

theorem exec_clockFail {s : State} (h : awake s) (hl : s.pwr.pllLock = true) (xtal : Bool) :
    exec (.clockFail xtal) s = .next (noting (clockFault xtal) s) := by
  obtain ⟨good, -, -, state⟩ := h
  exact congrArg Host.Outcome.next (if_neg (by simp [good, state, hl]))

theorem exec_pllLockRegained {s : State} (h : awake s) (hl : s.pwr.pllLock = false) :
    exec .pllLockRegained s = .next (raise 126 (clocksGood s)) := by
  obtain ⟨good, clocks, reset, state⟩ := h
  exact congrArg Host.Outcome.next (if_neg (by simp [good, clocks, reset, state, hl]))

/-- Settles O44: each row by its equation, with what the levels of the field terminals leave and what a device fault in a live run
state leads to. -/
theorem suppliesAndClocks : Obligations.SuppliesAndClocks := by
  intro n meas high xtal s keeps
  refine ⟨fun h => congrArg _ (if_pos h), fun h => ?_, fun good clocks reset state h1 h2 hb => ?_,
    fun good clocks reset state h1 h2 hd => ?_, fun good state h1 => ?_, exec_pdFdigReturn, fun h => exec_pdFdigCheckEnd_idle h high,
    fun h => ⟨?_, fun hl => ?_⟩, fun good clocks reset hl => ?_⟩
  · have event := supplyEvent_fab (s.onPwr fun p => { p with vlogicHigh := high })
    exact ⟨_, exec_vlogicHigh h, event.pwr, ⟨event.sys, event.mem, event.otp, event.upd, event.csl, event.csc⟩,
      event.sout, event.hld, event.sin⟩
  · obtain ⟨u, run, kept, cond, locks, others⟩ := bankSupply_falls ⟨good, clocks, reset, state⟩ h1 h2 hb meas
    refine ⟨u, run, ⟨kept.sys, kept.mem, kept.otp, kept.upd, kept.csl, kept.csc⟩, cond, ?_, ?_, locks, others⟩
    · rw [kept.pwr]; exact supplyMoved_field n h1 h2 meas
    · rw [kept.pwr]; exact supplyMoved_domains ..
  · obtain ⟨u, run, kept, readbacks, levels⟩ := lastSupply_falls ⟨good, clocks, reset, state⟩ h1 h2 hd meas
    refine ⟨u, run, ⟨kept.sys, kept.mem, kept.otp, kept.upd, kept.csl, kept.csc⟩, ?_, ?_, readbacks, levels⟩
    · rw [kept.pwr]; rfl
    · rw [kept.pwr]
      simp [bit_setBit]
  · exact ⟨_, exec_supplyPresentChange_dormant good state h1 meas, rfl, ⟨rfl, rfl, rfl, rfl, rfl, rfl⟩, rfl, rfl, rfl, rfl⟩
  · obtain ⟨kept, checked, fresh⟩ := fdigFresh_spec s
    have fab : Fab (fdigFresh s) (noting (checkEnd true) s) := noting_fab (checkEnd true) s
    have all := kept.trans fab.fieldKept
    exact ⟨_, exec_pdFdigCheckEnd h true, by rw [fab.sin, checked], ⟨all.sys, all.mem, all.otp, all.upd, all.csl, all.csc⟩,
      by rw [fab.sout]; exact fresh⟩
  · obtain ⟨locked, -, mem, -⟩ := noting_devFault (checkEnd_failed s) hl
    exact ⟨_, exec_pdFdigCheckEnd h false, locked, mem⟩
  · have up : awake s := ⟨good, clocks, reset, by rcases hl with h | h | h <;> rw [h] <;> decide⟩
    refine ⟨?_, fun hp => ?_, fun hp => ?_⟩
    · obtain ⟨locked, aside, mem, -⟩ := noting_devFault (f := fun s => devFault (devRep 0x48 0 0) (regulatorLost s)) (s := s) rfl
        (show (regulatorLost s).live from hl)
      refine ⟨_, exec_hldRegulatorFault up, locked, ?_, fun k => ?_, fun p => ?_, mem⟩
      · rw [aside.hld]; rfl
      · rw [aside.hld]; exact regulatorLost_closed s k
      · rw [aside.hld]; exact regulatorLost_tx s p
    · have live : (raise 126 (clockLost xtal s)).live := by rw [State.live, raise_sys]; exact hl
      obtain ⟨locked, aside, mem, -⟩ := noting_devFault (clockFault_awake up xtal) live
      refine ⟨_, exec_clockFail up hp xtal, locked, ?_, ?_, ?_, ?_⟩
      · rw [aside.pwr, raise_pwr]; rfl
      · rw [aside.pwr, raise_pwr]; rfl
      · rw [aside.t, raise_t]; rfl
      · rw [mem, raise_mem]; rfl
    · have event := raise_fab 126 (clocksGood s)
      exact ⟨_, exec_pllLockRegained up hp, congrArg PwrS.pllLock event.pwr, event.t,
        ⟨event.sys, event.mem, event.otp, event.upd, event.csl, event.csc⟩, event.sout, event.hld⟩

end Sys2Proof.Machine
end

section
/-! PROOFS. A report of channel B whose event overruns a task (files 03 and 14): the row counter table takes two entries. -/
namespace Sys2Proof.Machine

/-! ## A drained report whose event overruns a task (R83, R180, R377) -/

/-- SAFE-HOLD with one local report in channel B's queue, while stitch engine 4 has a task pending that EV1 triggers. -/
def overrunDrain : State :=
  { State.reset with
    sys := { State.reset.sys with runState := .safeHold }
    hld := { State.reset.hld with queue := [{ code := 0x22, cell := 3 }] }
    eng := { State.reset.eng with e := State.reset.eng.e.upd 4 fun x =>
      { x with on := true, tasks := 1, trigger := x.trigger.upd 0 fun _ => 1 } } }

/-- The table is empty, so that the report opens entry 0 and raises EV1; the task that EV1 finds pending is TASK_OVERRUN in entry 1. -/
theorem overrunDrain_entries :
    rctTakes overrunDrain = true ∧ rctFind overrunDrain.diag ⟨0x22, 2, .loc, 3⟩ = none ∧ rctFree overrunDrain.diag = some 0 ∧
      ((drainB overrunDrain).diag.rct[(1 : Fin 256)]).valid = true := by decide +kernel

/-- Refutes O25: on `overrunDrain` the one report of the queue opens an entry, and its event EV1 (R377) overruns a pending task, whose
report TASK_OVERRUN (R83) opens a second entry; the statement has the table differ in the first alone. -/
theorem not_channelBPaths : ¬ Obligations.ChannelBPaths := by
  rintro ⟨paths, -⟩
  obtain ⟨takes, unknown, free, second⟩ := overrunDrain_entries
  obtain ⟨-, -, -, -, -, drained, -⟩ := paths 0 0 overrunDrain
  obtain ⟨-, entered⟩ := drained _ rfl
  obtain ⟨-, opened⟩ := entered takes
  have table := opened 0 unknown free
  have blank : (overrunDrain.diag.rct[(1 : Fin 256)]).valid = false := congrArg RctEntry.valid (Tab.fill_fin _ 1)
  have other : (drainB overrunDrain).diag.rct[(1 : Fin 256)] = overrunDrain.diag.rct[(1 : Fin 256)] := by
    rw [table]
    exact (Tab.upd_get _ 0 1 (by decide) _).trans (if_neg (by decide))
  rw [other, blank] at second
  exact absurd second (by decide)

end Sys2Proof.Machine
end

section
/-! PROOFS. Register writes (O53): the host's write of a word as what its block does, the words of 128 event flags, and the flag that
    an event sets. -/
namespace Sys2Proof

theorem bit_ofNat_mul_two_pow {x k i : Nat} (h : i < 128) :
    bit (BitVec.ofNat 128 (x * 2 ^ k)) i = (decide (k ≤ i) && x.testBit (i - k)) := by
  show (BitVec.ofNat 128 (x * 2 ^ k)).getLsbD i = _
  rw [BitVec.getLsbD_ofNat, Nat.testBit_mul_two_pow, decide_eq_true h, Bool.true_and]

theorem bit_testBit {n : Nat} (w : BitVec n) (i : Nat) : w.toNat.testBit i = bit w i := rfl

end Sys2Proof

namespace Sys2Proof.Machine

/-! ## The words of 128 flags (R454) -/

/-- A word put into 128 bits replaces its 32 bits and no other. -/
theorem bit_putWord {k i : Nat} (hi : i < 128) (b : BitVec 128) (v : Word) :
    bit (putWord b k v) i = if i / 32 = k then bit v (i % 32) else bit b i := by
  have ones : ∀ j, Nat.testBit 0xFFFFFFFF j = decide (j < 32) := fun j => Nat.testBit_two_pow_sub_one 32 j
  rw [putWord, bit_or, bit_and, bit_not hi, bit_ofNat_mul_two_pow hi, bit_ofNat_mul_two_pow hi, ones, bit_testBit]
  by_cases hk : i / 32 = k
  · have place : 32 * k ≤ i ∧ i - 32 * k = i % 32 := by omega
    obtain ⟨low, offset⟩ := place
    have inside : i % 32 < 32 := Nat.mod_lt i (by decide)
    simp [hk, low, offset, inside]
  · have outside : 32 * k ≤ i → 32 ≤ i - 32 * k := by omega
    by_cases low : 32 * k ≤ i
    · have beyond : bit v (i - 32 * k) = false := BitVec.getLsbD_of_ge _ _ (outside low)
      have high : ¬ i - 32 * k < 32 := by have := outside low; omega
      simp [hk, low, high, beyond]
    · simp [hk, low]

theorem bit_flagWord (f : BitVec 128) {i : Nat} : bit (flagWord f (i / 32)) (i % 32) = bit f i := by
  have place : 32 * (i / 32) + i % 32 = i := by omega
  show (f.extractLsb' _ _).getLsbD _ = _
  rw [BitVec.getLsbD_extractLsb', place, decide_eq_true (Nat.mod_lt _ (by decide)), Bool.true_and]
  rfl

/-- Writing 1 clears a flag of the word, and no other (R454). -/
theorem pendClear_pend {i : Nat} (hi : i < 128) (k : Nat) (mask : Word) (s : State) :
    bit (pendClear k mask s).evt.pend i = (bit s.evt.pend i && !(i / 32 == k && bit mask (i % 32))) := by
  show bit (putWord _ _ _) i = _
  rw [bit_putWord hi]
  split
  next h => subst h; rw [bit_and, bit_flagWord, bit_not (Nat.mod_lt _ (by decide)), beq_self_eq_true, Bool.true_and]
  next h => simp [h]

/-! ## The flag of an event (R452, R453) -/

theorem reportCore_evt (r : Rep) (s : State) : (reportCore r s).1.evt = s.evt := by
  unfold reportCore
  split
  · rfl
  · split
    · split <;> rfl
    · split
      · rfl
      · split <;> rfl

theorem trigAll_evt (trg : Byte) (s : State) : (trigAll trg s).1.evt = s.evt :=
  foldl_fst_keeps (P := fun u => u.evt = s.evt) (by intro p e hp; exact (reportCore_evt _ p.1).trans hp) rfl

theorem dmaAsk_evt (l : List (Fin 16)) (s : State) : (dmaAsk l s).1.evt = s.evt :=
  foldl_fst_keeps (P := fun u => u.evt = s.evt) (by intro _ _ hp; exact hp) rfl

theorem raiseOne_evt (ev : Nat) (s : State) : (raiseOne ev s).1.evt = s.evt.arrive ev s.t.tbA := by
  unfold raiseOne
  dsimp only
  split
  · rfl
  · rw [trigAll_evt, dmaAsk_evt]
    rfl

/-- A flag of the host. -/
def pends (i : Nat) (s : State) : Prop := bit s.evt.pend i = true

theorem raiseOne_pends {ev : Nat} (h : ev < 128) (s : State) : pends ev (raiseOne ev s).1 := by
  rw [pends, raiseOne_evt]
  exact (bit_setBit _ _ _ _ h).trans (if_pos rfl)

theorem raiseOne_keeps {i : Nat} {s : State} (h : pends i s) (ev : Nat) : pends i (raiseOne ev s).1 := by
  rw [pends, raiseOne_evt]
  show bit (setBit s.evt.pend ev true) i = true
  simp [setBit, show bit s.evt.pend i = true from h]

theorem raiseList_keeps {i : Nat} {s : State} (h : pends i s) (n : Nat) (evs : List Nat) : pends i (raiseList n evs s) := by
  induction n generalizing evs s with
  | zero => exact h
  | succ n ih => exact ih (foldl_fst_keeps (P := pends i) (by intro p ev hp; exact raiseOne_keeps hp ev) h) _

theorem raiseList_pends {ev : Nat} (h : ev < 128) (n : Nat) (s : State) : pends ev (raiseList (n + 1) [ev] s) := by
  rw [raiseList]
  exact raiseList_keeps (raiseOne_pends h s) n _

/-- A raised event is pending for the host. -/
theorem raise_pends {ev : Nat} (h : ev < 128) (s : State) : pends ev (raise ev s) := raiseList_pends h 7 s

/-! ## Writes of the host and of the service paths (R439, R444, R458) -/

theorem fromHost_served {s : State} (h : ctrlServed s = true) (f : State → State) : fromHost f s = f s := if_pos h

theorem fromHost_unserved {s : State} (h : ctrlServed s = false) (f : State → State) : fromHost f s = s :=
  if_neg (ne_true_of_eq_false h)

/-- A served write of a register of a block is what the block does. -/
theorem exec_hostWrite {s : State} (h : ctrlServed s = true) {a : BitVec 24} (hb : (blockAt a.toNat).isSome = true)
    (ha : a.toNat % 4 = 0) (v : Word) : exec (.registerWrite .host a v) s = .next (writeReg .host a.toNat v s) := by
  show execRegisterWrite .host a v s = _
  simp [execRegisterWrite, srcMay, hb, fromHost_served h, ha]

theorem exec_hostWrite_unserved {s : State} (h : ctrlServed s = false) (a : BitVec 24) (v : Word) :
    exec (.registerWrite .host a v) s = .next s := by
  show execRegisterWrite .host a v s = _
  simp only [execRegisterWrite, fromHost_unserved h, ite_self]

/-- No block takes a write beyond them, nor one that is not of a whole word. -/
theorem exec_hostWrite_elsewhere {a : BitVec 24} (h : 0x0D0000 ≤ a ∨ a.toNat % 4 ≠ 0) (v : Word) (s : State) :
    exec (.registerWrite .host a v) s = .next s := by
  show execRegisterWrite .host a v s = _
  unfold execRegisterWrite
  dsimp only
  rcases h with h | h
  · have beyond : blockAt a.toNat = none := if_pos (BitVec.le_def.mp h)
    rw [if_neg (by simp [srcMay, beyond])]
  · simp [fromHost, h]

theorem exec_serviceWrite_barred {a : BitVec 24} (h : serviceMay a.toNat = false) (v : Word) (s : State) :
    exec (.registerWrite .eth a v) s = .next s ∧ exec (.registerWrite .can a v) s = .next s := by
  have barred : ¬ serviceMay a.toNat = true := ne_true_of_eq_false h
  exact ⟨congrArg Host.Outcome.next (if_neg barred), congrArg Host.Outcome.next (if_neg barred)⟩

/-! ## Writes of engines and of DMA (R451, Table 17-9) -/

theorem hregWrites_safetyCore {e : Fin 24} (h : clsOf e = .sc) (s : State) (a : Nat) : hregWrites s e a = false := by
  simp [hregWrites, h]

theorem exec_engineWrite_barred {e : Fin 24} {a : BitVec 24} {s : State} (h : hregWrites s e a.toNat = false) (v : Word) :
    exec (.registerWrite (.engine e) a v) s = .next s :=
  congrArg Host.Outcome.next (if_neg (ne_true_of_eq_false h))

theorem exec_dmaWrite_barred {a : BitVec 24} {s : State}
    (h : dmaWriter a.toNat s = none ∨ ∃ e, dmaWriter a.toNat s = some e ∧ hregWrites s e a.toNat = false) (v : Word) :
    exec (.registerWrite .dma a v) s = .next s := by
  show execRegisterWrite .dma a v s = _
  rcases h with h | ⟨e, h, barred⟩
  · simp [execRegisterWrite, h]
  · simp [execRegisterWrite, h, barred]

/-! ## The registers of O53 -/

/-- UPD_ARG while no lease is held. -/
theorem wrUpd_arg_free {s : State} (h : s.upd.owner = 0) (v : Word) :
    wrUpd .host 8 [v] s = { s with upd := { s.upd with arg := v } } := by
  simp [wrUpd, h, State.onUpd]

/-- UPD_ARG while another source holds the lease (R422). -/
theorem wrUpd_arg_foreign {s : State} (h0 : s.upd.owner ≠ 0) (h1 : s.upd.owner ≠ 1) (v : Word) :
    wrUpd .host 8 [v] s = updResult 3 s := by
  have held : (s.upd.owner != 0) = true := bne_iff_ne.mpr h0
  have foreign : holdsLease s .host = false := by
    show (_ && s.upd.owner == 1) = false
    rw [beq_false_of_ne h1, Bool.and_false]
  unfold wrUpd
  dsimp only
  rw [held, foreign]
  rfl

theorem wrCsc_pairSn (v : Word) (s : State) : wrCsc 0x1004 v s = if cscAbsent s then s else
    { s with csc := { s.csc with pairSn := (s.csc.pairSn.extractLsb' 32 16 : Half) ++ v } } := by
  unfold wrCsc
  split <;> rfl

/-- A mailbox word of the host, and its event (R449, R452). -/
theorem mbxStore_host (n : Fin 32) (v : Word) (s : State) :
    (mbxStore n.val v s).link = { s.link with mbx := Tab.gen 64 fun i => if i.val = n.val then v else s.link.mbx[i] } ∧
      pends 6 (mbxStore n.val v s) := by
  refine ⟨(raise_fab ..).link, ?_⟩
  rw [mbxStore, if_pos n.isLt]
  exact raise_pends (by decide) _

/-- Settles O53: each row by what its block does with the word; a source that has no right to the register reaches no block. -/
theorem registerWrites : Obligations.RegisterWrites := by
  intro a v n k s
  refine ⟨fun hs => ?_, fun e h => exec_engineWrite_barred (h.elim (fun h => hregWrites_safetyCore h s _) id) v,
    fun h => exec_dmaWrite_barred h v, fun hs => ⟨exec_hostWrite_unserved hs a v,
      congrArg Host.Outcome.next (fromHost_unserved hs _), congrArg Host.Outcome.next (fromHost_unserved hs _)⟩⟩
  refine ⟨exec_hostWrite hs rfl rfl v, exec_hostWrite hs rfl rfl v, exec_hostWrite hs rfl rfl v, exec_hostWrite hs rfl rfl v,
    exec_hostWrite hs rfl rfl v, exec_hostWrite hs rfl rfl v, ?_, fun h => ?_, fun h0 h1 => ?_, fun h => exec_hostWrite_elsewhere h v s,
    fun h => exec_serviceWrite_barred h v s, ?_, ?_⟩
  · rw [← apply_ite Host.Outcome.next, ← wrCsc_pairSn]
    exact exec_hostWrite hs rfl rfl v
  · exact (exec_hostWrite hs rfl rfl v).trans (congrArg _ (wrUpd_arg_free h v))
  · exact (exec_hostWrite hs rfl rfl v).trans (congrArg _ (wrUpd_arg_foreign h0 h1 v))
  · obtain ⟨link, pending⟩ := mbxStore_host n v s
    have stored : Fab _ (mbxStore n.val v s) := raise_fab _ _
    refine ⟨_, congrArg Host.Outcome.next (fromHost_served hs _), by rw [link], pending, fun i => ?_, stored.sys, stored.mem, stored.sout⟩
    rw [link]
    exact Tab.gen_get _ i.val i.isLt
  · exact ⟨_, congrArg Host.Outcome.next (fromHost_served hs _), rfl, fun i => pendClear_pend i.isLt k.val v s⟩

end Sys2Proof.Machine
end

section
/-! PROOFS. The background reread and the re-pulse service (O39): what alarms leave of the fuse array, and each service by its
    equation. -/
namespace Sys2Proof.Machine

/-! ## Alarms (R399, R400) -/

/-- `u` is `s` with more alarms, beside what their reports change. -/
structure Alarmed (s u : State) : Prop where
  only : onlyOtp s u
  otp : u.otp = { s.otp with alarm := u.otp.alarm }
  stays : ∀ r, bit s.otp.alarm r = true → bit u.otp.alarm r = true

theorem Alarmed.refl (s : State) : Alarmed s s := ⟨onlyOtp_refl s, rfl, fun _ => id⟩

theorem Alarmed.trans {s t u : State} (h : Alarmed s t) (g : Alarmed t u) : Alarmed s u :=
  ⟨onlyOtp_trans h.only g.only, by rw [g.otp, h.otp], fun r hr => g.stays r (h.stays r hr)⟩

theorem Fab.alarmed {s u : State} (h : Fab s u) : Alarmed s u := ⟨h.onlyOtp, by rw [h.otp], fun r hr => by rw [h.otp, hr]⟩

theorem Alarmed.words {s u : State} (h : Alarmed s u) : u.otp.w = s.otp.w := by rw [h.otp]
theorem Alarmed.tapN {s u : State} (h : Alarmed s u) : u.otp.tapN = s.otp.tapN := by rw [h.otp]
theorem Alarmed.incomplete {s u : State} (h : Alarmed s u) : u.otp.incomplete = s.otp.incomplete := by rw [h.otp]
theorem Alarmed.weak {s u : State} (h : Alarmed s u) : u.otp.weak = s.otp.weak := by rw [h.otp]
theorem Alarmed.repulseAt {s u : State} (h : Alarmed s u) : u.otp.repulseAt = s.otp.repulseAt := by rw [h.otp]
theorem Alarmed.fuse {s u : State} (h : Alarmed s u) (a : Nat) : u.otp.fuse a = s.otp.fuse a := by rw [OtpS.fuse, OtpS.fuse, h.words]

theorem each_alarmed {α : Type} {l : List α} {f : α → State → State} (hf : ∀ a s, Alarmed s (f a s)) (s : State) :
    Alarmed s (each l f s) :=
  each_keeps (P := Alarmed s) (fun a u h => h.trans (hf a u)) (Alarmed.refl s)

theorem otpAlarm_alarm (cls : FaultClass) (r : Nat) (s : State) : (otpAlarm cls r s).otp.alarm = setBit s.otp.alarm r true := by
  rw [otpAlarm, raise_otp, report_otp]; rfl

theorem otpAlarm_alarmed (cls : FaultClass) (r : Nat) (s : State) : Alarmed s (otpAlarm cls r s) := by
  refine ⟨(otpAlarm_kept cls r s).only, by rw [otpAlarm, raise_otp, report_otp]; rfl, fun i hi => ?_⟩
  rw [otpAlarm_alarm]
  simp [setBit, hi]

/-- An alarm shows in the bit of its region. -/
theorem otpAlarm_sets (cls : FaultClass) {r : Nat} (h : r < 16) (s : State) : bit (otpAlarm cls r s).otp.alarm r = true := by
  rw [otpAlarm_alarm, bit_setBit _ _ _ _ h, if_pos rfl]

theorem otpWeak_fab (r : Nat) (s : State) : Fab s (otpWeak r s) := (report_fab ..).trans (raiseIf_fab _ 121 _)

/-! ## The background reread (R386 to R388) -/

/-- What the reads give changes the words of the array alone. -/
theorem applyDrift_eq (d : List (Nat × Word × Word)) (o : OtpS) : applyDrift d o = { o with w := (applyDrift d o).w } := by
  refine List.foldlRecOn (motive := fun x : OtpS => x = { o with w := x.w }) d _ rfl fun x hx q _ => ?_
  dsimp only
  split
  · rw [hx]
  · exact hx

/-- The array as the reads give it, with the locked regions that are incomplete. -/
def drifted (d : List (Nat × Word × Word)) (s : State) : State := s.onOtp fun o => (applyDrift d o).sealedNow

theorem drifted_only (d : List (Nat × Word × Word)) (s : State) : onlyOtp s (drifted d s) :=
  onlyOtp_onOtp (fun o => by rw [applyDrift_eq]; rfl) s

theorem drifted_alarm (d : List (Nat × Word × Word)) (s : State) : (drifted d s).otp.alarm = s.otp.alarm := by
  show (applyDrift d s.otp).alarm = _
  rw [applyDrift_eq]

theorem drifted_tapN (d : List (Nat × Word × Word)) (s : State) : (drifted d s).otp.tapN = s.otp.tapN := by
  show (applyDrift d s.otp).tapN = _
  rw [applyDrift_eq]

theorem drifted_incomplete (d : List (Nat × Word × Word)) {r : Nat} (h : r < 16) (s : State) :
    bit (drifted d s).otp.incomplete r = (applyDrift d s.otp).broken r := bit_maskOf h _

/-- The regions with a cause for an alarm that they do not hold already. -/
def alarmsDue (d : List (Nat × Word × Word)) (s : State) : List Nat :=
  let o := (drifted d s).otp
  (List.range 16).filter fun r => (alarmCause o r || (weakAll o).any fun i =>
    i / 32 / 128 == r && !weakMeant o (i / 32) (i % 32) && o.wlocked r) && !bit s.otp.alarm r

/-- The reread as it reports: alarms, then weak bits. -/
def reread (d : List (Nat × Word × Word)) (s : State) : State :=
  each (weakAll (drifted d s).otp) (fun i => otpWeak (i / 32 / 128)) (each (alarmsDue d s) (otpAlarm .counted) (drifted d s))

/-- The weak bits that wait for the service, with those of the array that are meant to be programmed. -/
def weakWaiting (o : OtpS) (l : List Nat) : List Nat :=
  l.filter (stillMeant o) ++ (weakAll o).filter fun i => stillMeant o i && !l.contains i

theorem mem_weakWaiting {o : OtpS} {l : List Nat} {i : Nat} :
    i ∈ weakWaiting o l ↔ stillMeant o i = true ∧ (i ∈ l ∨ i ∈ weakAll o) := by
  simp only [weakWaiting, List.mem_append, List.mem_filter, Bool.and_eq_true, Bool.not_eq_true', List.contains_eq_mem,
    decide_eq_false_iff_not]
  tauto

theorem exec_fuseReread (d : List (Nat × Word × Word)) (s : State) : exec (.fuseReread d) s =
    .next ((reread d s).onOtp fun x => { x with weak := weakWaiting (drifted d s).otp x.weak }) := rfl

theorem reread_alarmed (d : List (Nat × Word × Word)) (s : State) : Alarmed (drifted d s) (reread d s) :=
  (each_alarmed (otpAlarm_alarmed .counted) _).trans (each_alarmed (fun _ u => (otpWeak_fab _ u).alarmed) _)

/-- Every region with a cause has its alarm after the reread. -/
theorem reread_alarms {d : List (Nat × Word × Word)} {s : State} {r : Nat} (hr : r < 16)
    (hc : alarmCause (applyDrift d s.otp) r = true) : bit (reread d s).otp.alarm r = true := by
  have weak := each_alarmed (l := weakAll (drifted d s).otp) (fun i u => (otpWeak_fab (i / 32 / 128) u).alarmed)
    (each (alarmsDue d s) (otpAlarm .counted) (drifted d s))
  cases held : bit s.otp.alarm r
  · have cause : alarmCause (drifted d s).otp r = true := hc
    have due : r ∈ alarmsDue d s := by simp [alarmsDue, hr, cause, held]
    exact weak.stays r (each_establishes (Q := fun r u => r < 16 → bit u.otp.alarm r = true) (fun r u h => otpAlarm_sets _ h u)
      (fun a r u h hr => (otpAlarm_alarmed _ a u).stays r (h hr)) due _ hr)
  · exact (reread_alarmed d s).stays r (by rw [drifted_alarm, held])

/-! ## The re-pulse service (R37, R388) -/

/-- The service is served by its run state. -/
def repulseServed (s : State) : Prop := s.live ∨ s.sys.runState = .lockout

theorem exec_repulse_waits {s : State} (h : s.otp.busy = true ∨ tempOk s = false ∨ repulseDue s = false) (p : PulseEnv) :
    exec (.repulse p) s = .next s := by
  show execRepulse p s = _
  unfold execRepulse
  dsimp only
  rw [if_pos (by rcases h with h | h | h <;> simp [h])]

/-- The service with nothing to do. -/
theorem exec_repulse_idle {s : State} (hw : s.otp.weak = []) (ht : s.otp.tapTodo = []) (hc : s.otp.copies = [])
    (hl : s.otp.lockDebug = false) (p : PulseEnv) : exec (.repulse p) s = .next s := by
  have same : (s.onOtp fun o => { o with weak := [] }) = s := by rw [← hw]; rfl
  show execRepulse p s = _
  unfold execRepulse
  rw [hw, ht, hc, hl, List.filter_nil]
  show Host.Outcome.next (ite _ s (s.onOtp fun o => { o with weak := [] })) = _
  rw [same, ite_self]

/-- The service notes when it pulses, and what still waits. -/
def repulseBegun (weak : List Nat) (s : State) : State := s.onOtp fun o => { o with repulseAt := some s.t.tbA, weak := weak }

theorem exec_repulse_weak {s : State} (hb : s.otp.busy = false) (ht : tempOk s = true) (hr : repulseServed s) (hd : repulseDue s = true)
    {i : Nat} {rest : List Nat} (hw : s.otp.weak = i :: rest) (hm : stillMeant s.otp i = true) (p : PulseEnv) :
    exec (.repulse p) s = .next (repulseBit p .counted i (repulseBegun (i :: rest.filter (stillMeant s.otp)) s)) := by
  have waits : s.otp.weak.filter (stillMeant s.otp) = i :: rest.filter (stillMeant s.otp) := by
    rw [hw, List.filter_cons_of_pos hm]
  show execRepulse p s = _
  unfold execRepulse
  dsimp only
  rw [waits, if_neg (by rcases hr with (h | h | h) | h <;> simp [hb, ht, hd, h])]
  rfl

/-- One weak bit after its pulses, waiting no more. -/
def repulsed (p : PulseEnv) (i : Nat) (s : State) : State :=
  s.onOtp fun o => { o.repulse p (i / 32) (BitVec.ofNat 32 (2 ^ (i % 32))) with weak := o.weak.filter (· != i) }

theorem repulseBit_alarmed (p : PulseEnv) (cls : FaultClass) (i : Nat) (s : State) : Alarmed (repulsed p i s) (repulseBit p cls i s) := by
  unfold repulseBit
  dsimp only
  split
  · exact Alarmed.refl _
  · exact otpAlarm_alarmed ..

/-- A bit that its pulses leave weak is an alarm of its region. -/
theorem repulseBit_alarm {p : PulseEnv} {i : Nat} {s : State} (hi : i < 65536)
    (hw : ((repulsed p i s).otp.fuse (i / 32)).weakBits &&& BitVec.ofNat 32 (2 ^ (i % 32)) ≠ 0) (cls : FaultClass) :
    bit (repulseBit p cls i s).otp.alarm (i / 32 / 128) = true := by
  have alarms : repulseBit p cls i s = otpAlarm cls (i / 32 / 128) (repulsed p i s) := if_neg hw
  rw [alarms]
  exact otpAlarm_sets cls (by omega) _

/-- A re-pulse completes the tight margin of its bit, and leaves every other word. -/
theorem repulsed_fuse (p : PulseEnv) (i a : Nat) {s : State} (h : Sparse.wf {} s.otp.w = true) : (repulsed p i s).otp.fuse a =
    if a = i / 32 then
      { s.otp.fuse a with t := (s.otp.fuse a).t ||| (BitVec.ofNat 32 (2 ^ (i % 32)) &&& (s.otp.fuse a).n &&& ~~~p.weak) }
    else s.otp.fuse a := by
  refine (Sparse.get_put h).trans ?_
  split
  next same => rw [same]
  next => rfl

/-- Settles O39: each service by its equation; what its reports and alarms leave of the array is `Alarmed`. -/
theorem otpServices : Obligations.OtpServices := by
  intro d p i rest s
  refine ⟨?_, fun h => exec_repulse_waits h p, fun hb ht hr wf hi hw hd hm => ?_, fun hw ht hc hl => exec_repulse_idle hw ht hc hl p⟩
  · have alarmed := reread_alarmed d s
    refine ⟨_, exec_fuseReread d s, onlyOtp_trans (onlyOtp_trans (drifted_only d s) alarmed.only) (onlyOtp_onOtp (fun _ => rfl) _),
      alarmed.words, alarmed.tapN.trans (drifted_tapN d s), fun r hr => ?_, fun i hi => (mem_weakWaiting.mp hi).1,
      fun i hi hm => mem_weakWaiting.mpr ⟨hm, .inr hi⟩, fun r hr hc => reread_alarms hr hc⟩
    exact (congrArg (bit · r) alarmed.incomplete).trans (drifted_incomplete d hr s)
  · let b := repulseBegun (i :: rest.filter (stillMeant s.otp)) s
    have alarmed := repulseBit_alarmed p .counted i b
    have pulsed : onlyOtp s (repulsed p i b) := onlyOtp_trans (onlyOtp_onOtp (fun _ => rfl) s) (onlyOtp_onOtp (fun _ => rfl) b)
    refine ⟨_, exec_repulse_weak hb ht hr hd hw hm p, onlyOtp_trans pulsed alarmed.only, ?_, ?_, alarmed.repulseAt, fun a ha => ?_,
      fun weak => ?_⟩
    · rw [alarmed.fuse, repulsed_fuse p i _ (s := b) wf, if_pos rfl]; rfl
    · rw [alarmed.weak]
      simp [repulsed]
    · rw [alarmed.fuse, repulsed_fuse p i a (s := b) wf, if_neg ha]; rfl
    · exact repulseBit_alarm hi (by rw [← alarmed.fuse]; exact weak) .counted

end Sys2Proof.Machine
end

section
/-! PROOFS. Re-evaluation (O42): what the clear decisions and the start of INIT leave alone, the state in which CROSS starts, and each
    end of a re-evaluation. -/
namespace Sys2Proof.Machine

/-! ## The start of INIT (R75, R77, R198, R207) -/

/-- A step of the inputs that leaves channel B too. -/
structure StartStep (s u : State) : Prop extends InStep s u where
  hld : u.hld = s.hld

theorem StartStep.refl (s : State) : StartStep s s := ⟨InStep.refl s, rfl⟩

theorem StartStep.trans {s t u : State} (h : StartStep s t) (g : StartStep t u) : StartStep s u :=
  ⟨h.toInStep.trans g.toInStep, g.hld.trans h.hld⟩

theorem StartStep.onEng (f : EngS → EngS) (s : State) : StartStep s (s.onEng f) :=
  ⟨⟨⟨rfl, rfl, rfl, rfl, rfl, rfl, rfl, rfl⟩, rfl, rfl⟩, rfl⟩

theorem StartStep.onTmr (f : TmrS → TmrS) (s : State) : StartStep s (s.onTmr f) := ⟨⟨FieldKept.onTmr f s, rfl, rfl⟩, rfl⟩

theorem each_startStep {α : Type} {l : List α} {f : α → State → State} (hf : ∀ a s, StartStep s (f a s)) (s : State) :
    StartStep s (each l f s) :=
  each_keeps (P := StartStep s) (fun a u h => h.trans (hf a u)) (StartStep.refl s)

/-- A decision on a connection leaves the engines as well. -/
structure DecideStep (s u : State) : Prop extends StartStep s u where
  eng : u.eng = s.eng

theorem DecideStep.refl (s : State) : DecideStep s s := ⟨StartStep.refl s, rfl⟩

theorem DecideStep.trans {s t u : State} (h : DecideStep s t) (g : DecideStep t u) : DecideStep s u :=
  ⟨h.toStartStep.trans g.toStartStep, g.eng.trans h.eng⟩

theorem each_decideStep {α : Type} {l : List α} {f : α → State → State} (hf : ∀ a s, DecideStep s (f a s)) (s : State) :
    DecideStep s (each l f s) :=
  each_keeps (P := DecideStep s) (fun a u h => h.trans (hf a u)) (DecideStep.refl s)

theorem DecideStep.onI (n : Fin 32) (f : InA → InA) (s : State) : DecideStep s (s.onI n f) := ⟨⟨InStep.onI n f s, rfl⟩, rfl⟩

theorem DecideStep.setSlot (g : SinS → Tab SlotA 8) (s : State) : DecideStep s (s.onSin fun x => { x with slot := g x }) :=
  ⟨⟨⟨FieldKept.onSin _ s, rfl, rfl⟩, rfl⟩, rfl⟩

theorem onConn_decideStep (n : Fin 32) (f : ConnA → ConnA) (s : State) : DecideStep s (onConn n f s) :=
  ⟨⟨InStep.onPair _ _ s, rfl⟩, rfl⟩

theorem presentEdge_decideStep (n : Fin 32) (lvl : Bool) (s : State) : DecideStep s (presentEdge n lvl s) := by
  refine ⟨⟨presentEdge_inStep n lvl s, ?_⟩, ?_⟩ <;> unfold presentEdge <;> dsimp only <;> split <;> rfl

theorem clearConn_decideStep (n : Fin 32) (s : State) : DecideStep s (clearConn n s) :=
  (onConn_decideStep n _ s).trans (each_decideStep (fun m u => (DecideStep.onI m _ u).trans (presentEdge_decideStep ..)) _)

theorem clearDecide_decideStep (n : Fin 32) (s : State) : DecideStep s (clearDecide n s) := by
  have decided := onConn_decideStep n (fun c =>
    let rel := (connOf s.sin n).clearRel && past s (connOf s.sin n).relAt 50
    let safe := (connOf s.sin n).clearSafe && past s (connOf s.sin n).safeAt 50
    { c with clearRel := c.clearRel && !rel, clearSafe := c.clearSafe && !safe }) s
  unfold clearDecide
  dsimp only
  split_ifs
  · exact decided
  · exact decided.trans (onConn_decideStep ..)
  · exact decided.trans (clearConn_decideStep ..)
  · exact decided.trans (clearConn_decideStep ..)
  · exact decided

theorem decideDue_decideStep (s : State) : DecideStep s (decideDue s) :=
  each_decideStep (fun _ u => each_decideStep (fun n v => clearDecide_decideStep n v) u) s

theorem latchPorts_startStep (c : Fin 4) (s : State) : StartStep s (latchPorts c s) :=
  ((decideDue_decideStep s).toStartStep.trans (StartStep.onEng _ _)).trans
    (DecideStep.setSlot (fun x => x.slot.map fun y =>
      if bit y.due c.val && decide (usec 50 ≤ since (decideDue s) y.accepted) then { y with due := setBit y.due c.val false } else y) _).toStartStep

theorem startInit_startStep (c : Fin 4) (s : State) : StartStep s (startInit c s) :=
  ((StartStep.onEng _ s).trans (StartStep.onEng _ _)).trans (latchPorts_startStep c _)

theorem unlockOwned_startStep (e : Nat) (s : State) : StartStep s (unlockOwned e s) := StartStep.onTmr _ s

/-- A core executes and its INIT has not ended. -/
def inits (c : Fin 4) (s : State) : Prop := (s.eng.e[engOf c]).on = true ∧ (s.eng.c[c]).initDone = false

theorem onE_get (e g : Fin 24) (f : Engine → Engine) (s : State) :
    (s.onE e f).eng.e[g] = if e = g then f s.eng.e[e] else s.eng.e[g] := by
  show (s.eng.e.upd e f)[g.val] = _
  rw [Tab.upd_get]
  exact if_congr Fin.ext_iff.symm rfl rfl

theorem onC_get (c d : Fin 4) (f : Core → Core) (s : State) :
    (s.onC c f).eng.c[d] = if c = d then f s.eng.c[c] else s.eng.c[d] := by
  show (s.eng.c.upd c f)[d.val] = _
  rw [Tab.upd_get]
  exact if_congr Fin.ext_iff.symm rfl rfl

theorem engOf_injective {c d : Fin 4} (h : engOf c = engOf d) : c = d := by
  have number : (engOf c).val = (engOf d).val := congrArg Fin.val h
  exact Fin.ext number

theorem latchPorts_inits (c d : Fin 4) (s : State) : inits d (latchPorts c s) ↔ inits d s := by
  have kept := (decideDue_decideStep s).eng
  have engines : (latchPorts c s).eng.e = s.eng.e := by
    show (decideDue s).eng.e = _
    rw [kept]
  have core : ((latchPorts c s).eng.c[d]).initDone = (s.eng.c[d]).initDone := by
    show (((decideDue s).onC c _).eng.c[d]).initDone = _
    rw [onC_get, kept]
    split
    next same => rw [same]
    next => rfl
  rw [inits, inits, engines, core]

/-- The start of INIT on one core, and what it leaves of every other. -/
theorem startInit_inits (c d : Fin 4) (s : State) (h : c = d ∨ inits d s) : inits d (startInit c s) := by
  unfold startInit
  dsimp only
  rw [latchPorts_inits, inits, onC_get]
  show ((s.onE _ _).eng.e[engOf d]).on = true ∧ _
  rw [onE_get]
  by_cases hc : c = d
  · rw [if_pos (congrArg engOf hc), if_pos hc]
    exact ⟨rfl, rfl⟩
  · rw [if_neg (mt engOf_injective hc), if_neg hc]
    exact h.resolve_left hc

/-! ## CROSS (R39, R77, R168, R257) -/

/-- The cores that host. -/
def hostingCores (s : State) : List (Fin 4) := (List.finRange 4).filter fun c => bit s.sout.hosting c.val

/-- A core starts INIT with its capture locks ended. -/
def startCore (c : Fin 4) (s : State) : State := startInit c (unlockOwned c.val s)

/-- Every hosting core starts INIT. -/
def startCores (s : State) : State := each (hostingCores s) startCore s

theorem startCore_startStep (c : Fin 4) (s : State) : StartStep s (startCore c s) :=
  (unlockOwned_startStep c.val s).trans (startInit_startStep c _)

theorem startCore_inits (c d : Fin 4) (s : State) (h : c = d ∨ inits d s) : inits d (startCore c s) :=
  startInit_inits c d (unlockOwned c.val s) h

theorem startCores_startStep (s : State) : StartStep s (startCores s) := each_startStep startCore_startStep s

theorem startCores_inits {c : Fin 4} {s : State} (h : bit s.sout.hosting c.val = true) : inits c (startCores s) :=
  each_establishes (Q := inits) (fun c u => startCore_inits c c u (.inl rfl))
    (fun c d u h => startCore_inits c d u (.inr h)) (by simp [hostingCores, h]) s

/-- The stage CROSS begins to count. -/
def crossStage (s : State) : State :=
  s.onSys fun x => { x with stage := .cross, crossGood := 0, crossCores := 0, crossAt := s.t.cyc }

theorem startCross_eq (s : State) : startCross s = armMonitor (startCores (crossStage s)) := rfl

/-- CROSS starts every hosting core at INIT; but for the stage, it leaves the run state, and channel B's latches. -/
theorem startCross_spec (s : State) : (startCross s).sys = (crossStage s).sys ∧ (startCross s).hld.h = s.hld.h ∧
    (startCross s).hld.devFault = s.hld.devFault ∧ (startCross s).mem = s.mem ∧ (startCross s).sout = s.sout ∧
    (startCross s).otp = s.otp ∧ ∀ c : Fin 4, bit s.sout.hosting c.val = true → inits c (startCross s) := by
  have kept := startCores_startStep (crossStage s)
  rw [startCross_eq]
  have held : (startCores (crossStage s)).hld.h = s.hld.h := by rw [kept.hld]; rfl
  have latch : (startCores (crossStage s)).hld.devFault = s.hld.devFault := by rw [kept.hld]; rfl
  exact ⟨kept.sys, held, latch, kept.mem, kept.sout, kept.otp, fun c hc => startCores_inits (s := crossStage s) hc⟩

theorem Fab.inits {s u : State} {c : Fin 4} (h : Fab s u) (hs : inits c s) : inits c u := by
  rw [Machine.inits, h.on, h.core]; exact hs

/-! ## A fatal fault of channel B (R164, R47) -/

theorem Aside.onHld {s u : State} (h : Aside s u) (f : HldS → HldS) : Aside (s.onHld f) (u.onHld f) :=
  ⟨h.pwr, h.link, congrArg f h.hld, h.t, h.csl, h.csc⟩

theorem drainB_aside (s : State) : Aside (s.onHld fun h => { h with queue := [] }) (drainB s) :=
  (each_fab _ _ (fun _ u => report_fab _ u) _).aside

/-- An entry to HALT drains channel B's queue and changes nothing else of it. -/
theorem haltState_aside {s : State} (h : s.sys.runState ≠ .halt) (code : Half) :
    Aside (s.onHld fun h => { h with queue := [] }) (haltState code s) := by
  simp only [haltState, beq_iff_eq, h, if_false]
  generalize hv : State.onUpd _ _ = v
  have noted : Aside s v := by subst hv; exact ⟨rfl, rfl, rfl, rfl, rfl, rfl⟩
  exact ((noted.onHld _).trans (drainB_aside v)).trans
    ((demandsOff_aside _).trans ((holdAll_aside _).trans ((sourcesOff_aside _).trans (setRun_aside ..))))

theorem haltEntry_aside {s : State} (h : s.sys.runState ≠ .halt) (code : Half) :
    Aside (s.onHld fun h => { h with queue := [] }) (haltEntry code s) := by
  simp only [haltEntry, beq_iff_eq, h, if_false]
  exact (haltState_aside h code).trans (archiveLog_fab _).aside

theorem bReport_hld (code : Byte) (cell : Nat) (s : State) :
    (bReport code cell s).hld = { s.hld with queue := (bReport code cell s).hld.queue, dropped := (bReport code cell s).hld.dropped } := by
  simp only [bReport, State.onHld_hld]
  split <;> rfl

/-- The first fatal fault latches, and the device enters HALT. -/
theorem bFatal_halted {s : State} (h : s.sys.runState ≠ .halt) (hf : s.hld.fatal = false) (code : Byte) :
    halted (code.zeroExtend 16) (bFatal code s) ∧ (bFatal code s).hld.fatal = true ∧ (bFatal code s).mem = s.mem := by
  simp only [bFatal, hf, Bool.false_eq_true, if_false]
  generalize hv : State.onHld _ (bReport code 0 s) = v
  have latched : v.sys = s.sys ∧ v.mem = s.mem ∧ v.hld.fatal = true := by subst hv; exact ⟨rfl, rfl, rfl⟩
  obtain ⟨sys, mem, fatal⟩ := latched
  have run : v.sys.runState ≠ .halt := by rw [sys]; exact h
  obtain ⟨halts, vmem, -⟩ := haltEntry_halted (code.zeroExtend 16) run
  exact ⟨halts, (congrArg HldS.fatal (haltEntry_aside run _).hld).trans fatal, vmem.trans mem⟩

/-! ## The steps of a re-evaluation (R52, Table 2-4) -/

/-- A re-evaluation under way: fault line A is no longer asserted. -/
def reevalBegun (service : Bool) (s : State) : State :=
  (s.onSys fun x => { x with reeval := true, fromService := service, stage := .verify, lineA := false }).onHld
    fun h => { h with releaseSeen := false }

theorem reevaluate_changedCode {s : State} (h : codeIntact s = false) (service : Bool) (env : ReevalEnv) :
    reevaluate service env s = devFault (devRep 0x4B 10 0x0E) (reevalBegun service s) := by
  have changed : codeIntact (reevalBegun service s) = false := h
  unfold reevaluate
  exact if_pos (by rw [Bool.not_eq_true']; exact changed)

/-- What follows a code memory that is intact. -/
theorem reevaluate_intact {s : State} (h : codeIntact s = true) (service : Bool) (env : ReevalEnv) : reevaluate service env s =
    let s2 := noteSwatch (swatchFails env.swatch) (reevalBegun service s)
    if !(swatchFails env.swatch).isEmpty then stageHalt .swatch s2
    else if !(env.storeOk && crcWords s2.hld.store.dropLast == s2.hld.loadCrc) then bFatal 0x10 s2
    else startCross ((s2.onHld patternAgain).onSin slotsFresh) := by
  have intact : codeIntact (reevalBegun service s) = true := h
  unfold reevaluate
  exact if_neg (by rw [Bool.not_eq_true', Bool.not_eq_false]; exact intact)

theorem reevaluate_swatchFailed {s : State} {env : ReevalEnv} (h : codeIntact s = true) (hs : swatchFails env.swatch ≠ [])
    (service : Bool) : reevaluate service env s = stageHalt .swatch (noteSwatch (swatchFails env.swatch) (reevalBegun service s)) :=
  (reevaluate_intact h service env).trans (if_pos (by simp [hs]))

theorem reevaluate_corrupt {s : State} {env : ReevalEnv} (h : codeIntact s = true) (hs : swatchFails env.swatch = [])
    (ho : env.storeOk = false) (service : Bool) : reevaluate service env s = bFatal 0x10 (noteSwatch [] (reevalBegun service s)) := by
  rw [reevaluate_intact h, hs, ho]
  rfl

/-- The state in which the CROSS of a re-evaluation starts. -/
def reevalCross (service : Bool) (s : State) : State :=
  ((noteSwatch [] (reevalBegun service s)).onHld patternAgain).onSin slotsFresh

theorem reevaluate_passed {s : State} {env : ReevalEnv} (h : codeIntact s = true) (hs : swatchFails env.swatch = [])
    (ho : env.storeOk = true) (hc : crcWords s.hld.store.dropLast = s.hld.loadCrc) (service : Bool) :
    reevaluate service env s = startCross (reevalCross service s) := by
  have same : crcWords (noteSwatch [] (reevalBegun service s)).hld.store.dropLast = (noteSwatch [] (reevalBegun service s)).hld.loadCrc := hc
  rw [reevaluate_intact h, hs, ho]
  dsimp only
  rw [if_neg (by decide), if_neg (by rw [same]; simp)]
  rfl

/-! ## The commands that re-evaluate (R51, R52) -/

theorem ctrlExit_reevaluates {s : State} (h : s.sys.runState = .service) (hr : s.sys.reeval = false) (env : ReevalEnv) :
    ctrlExit env s = reevaluate true env (ctrlResult 1 s) := by simp [ctrlExit, h, hr]

theorem ctrlRelease_unpermitted {s : State} (h : s.sys.runState = .lockout) (hr : s.sys.reeval = false)
    (hp : bit (s.upd.hdr.getN 3 0) 1 = false ∨ bit (s.hld.hdr.getN 3 0) 3 = false) (env : ReevalEnv) :
    ctrlRelease env s = ctrlResult 5 s := by
  unfold ctrlRelease
  rw [h, hr, if_neg (by decide), if_pos (by rcases hp with hp | hp <;> rw [hp] <;> simp)]

theorem ctrlRelease_reevaluates {s : State} (h : s.sys.runState = .lockout) (hr : s.sys.reeval = false)
    (h1 : bit (s.upd.hdr.getN 3 0) 1 = true) (h2 : bit (s.hld.hdr.getN 3 0) 3 = true) (hd : s.sys.devPending = false)
    (env : ReevalEnv) : ctrlRelease env s = reevaluate false env (ctrlResult 1 s) := by
  unfold ctrlRelease
  rw [h, hr, h1, h2, hd]
  rfl

theorem exec_serviceExit {s : State} (hs : ctrlServed s = true) (h : s.sys.runState = .service) (hr : s.sys.reeval = false)
    (env : ReevalEnv) : ∃ u, exec (.serviceExit 0x6A5C env) s = .next u ∧ Fab (reevaluate true env (answered 4 1 s)) u := by
  have runs : sysCmd 0x6A5C 4 (ctrlExit env) s = reevaluate true env (answered 4 1 s) :=
    (sysCmd_accepted hs 4 _).trans (ctrlExit_reevaluates (s := s.onSys fun x => { x with lastCmd := 4 }) h hr env)
  exact ⟨_, rfl, runs ▸ noting_fab ..⟩

theorem exec_devRelease {s : State} (hs : ctrlServed s = true) (h : s.sys.runState = .lockout) (hr : s.sys.reeval = false)
    (h1 : bit (s.upd.hdr.getN 3 0) 1 = true) (h2 : bit (s.hld.hdr.getN 3 0) 3 = true) (hd : s.sys.devPending = false)
    (env : ReevalEnv) : ∃ u, exec (.devRelease 0x6A5C env) s = .next u ∧ Fab (reevaluate false env (answered 6 1 s)) u := by
  have runs : sysCmd 0x6A5C 6 (ctrlRelease env) s = reevaluate false env (answered 6 1 s) :=
    (sysCmd_accepted hs 6 _).trans (ctrlRelease_reevaluates (s := s.onSys fun x => { x with lastCmd := 6 }) h hr h1 h2 hd env)
  exact ⟨_, rfl, runs ▸ noting_fab ..⟩

/-- What a re-evaluation that passes its checks leads to. -/
def crossing (s u : State) : Prop :=
  u.sys.runState = s.sys.runState ∧ u.sys.stage = .cross ∧ u.sys.reeval = true ∧ u.sys.result = 1 ∧ u.sys.lineA = false ∧
    u.hld.devFault = false ∧ u.hld.h = true ∧
    (∀ c : Fin 4, bit s.sout.hosting c.val = true → (u.eng.e[(engOf c)]).on = true ∧ (u.eng.c[c]).initDone = false) ∧
    u.mem = s.mem ∧ u.sout = s.sout ∧ u.otp = s.otp

theorem crossing_of_passed {s u : State} {service : Bool} {cmd : Byte}
    (h : Fab (startCross (reevalCross service (answered cmd 1 s))) u) : crossing s u := by
  obtain ⟨sys, held, latch, mem, sout, otp, cores⟩ := startCross_spec (reevalCross service (answered cmd 1 s))
  rw [crossing, h.sys, h.hld, h.mem, h.sout, h.otp, sys, held, latch]
  exact ⟨rfl, rfl, rfl, rfl, rfl, rfl, rfl, fun c hc => h.inits (cores c hc), mem, sout, otp⟩

/-- Settles O42: each accepted command is a re-evaluation and its events; each end of a re-evaluation is one equation. -/
theorem reevaluation : Obligations.Reevaluation := by
  intro env s hs hr enters
  refine ⟨fun h => ⟨fun hi hw ho hc => ?_, fun hi hw => ?_, fun hi => ?_, fun hi hw ho hf => ?_⟩, fun h => ⟨fun hp => ?_, ?_⟩⟩
  · obtain ⟨u, run, fab⟩ := exec_serviceExit hs h hr env
    rw [reevaluate_passed (s := answered 4 1 s) hi hw ho hc] at fab
    exact ⟨u, run, crossing_of_passed fab⟩
  · obtain ⟨u, run, fab⟩ := exec_serviceExit hs h hr env
    rw [reevaluate_swatchFailed (s := answered 4 1 s) hi hw] at fab
    let v := noteSwatch (swatchFails env.swatch) (reevalBegun true (answered 4 1 s))
    have notHalt : v.sys.runState ≠ .halt := by rw [show v.sys.runState = .service from h]; decide
    obtain ⟨halts, mem, -⟩ := stageHalt_halted .swatch notHalt
    exact ⟨u, run, fab.halted halts, fab.mem.trans mem⟩
  · obtain ⟨u, run, fab⟩ := exec_serviceExit hs h hr env
    rw [reevaluate_changedCode (s := answered 4 1 s) hi] at fab
    obtain ⟨locked, -, mem, -⟩ := devFault_live (s := reevalBegun true (answered 4 1 s)) (.inr (.inr h)) (devRep 0x4B 10 0x0E)
    exact ⟨u, run, fab.lockedOut locked, fab.mem.trans mem⟩
  · obtain ⟨u, run, fab⟩ := exec_serviceExit hs h hr env
    rw [reevaluate_corrupt (s := answered 4 1 s) hi hw ho] at fab
    let v := noteSwatch [] (reevalBegun true (answered 4 1 s))
    have notHalt : v.sys.runState ≠ .halt := by rw [show v.sys.runState = .service from h]; decide
    obtain ⟨halts, fatal, mem⟩ := bFatal_halted notHalt hf 0x10
    exact ⟨u, run, fab.halted halts, (congrArg HldS.fatal fab.hld).trans fatal, fab.mem.trans mem⟩
  · exact congrArg Host.Outcome.next (noting_sysCmd (cmd := 6) hs
      (ctrlRelease_unpermitted (s := s.onSys fun x => { x with lastCmd := 6 }) h hr hp env) rfl)
  · intro h1 h2 hd hi hw ho hc
    obtain ⟨u, run, fab⟩ := exec_devRelease hs h hr h1 h2 hd env
    rw [reevaluate_passed (s := answered 6 1 s) hi hw ho hc] at fab
    exact ⟨u, run, crossing_of_passed fab⟩

end Sys2Proof.Machine
end

section
/-! PROOFS. DORMANT (O45): what the end of the sessions and the start of the field side leave alone, the state at entry, a wake whose
    checks pass, one whose checks fail, and the sources that wake. -/
namespace Sys2Proof.Machine

/-! ## Steps that retain what DORMANT is about -/

/-- A step that leaves timebase A, the run state, the supplies, the memories and the fuses, and channel B's line level. -/
structure Retained (s u : State) : Prop where
  t : u.t = s.t
  sys : u.sys = s.sys
  pwr : u.pwr = s.pwr
  mem : u.mem = s.mem
  otp : u.otp = s.otp
  held : u.hld.h = s.hld.h

theorem Retained.refl (s : State) : Retained s s := ⟨rfl, rfl, rfl, rfl, rfl, rfl⟩

theorem Retained.trans {s t u : State} (h : Retained s t) (g : Retained t u) : Retained s u :=
  ⟨g.t.trans h.t, g.sys.trans h.sys, g.pwr.trans h.pwr, g.mem.trans h.mem, g.otp.trans h.otp, g.held.trans h.held⟩

theorem Fab.retained {s u : State} (h : Fab s u) : Retained s u := ⟨h.t, h.sys, h.pwr, h.mem, h.otp, congrArg HldS.h h.hld⟩

theorem FieldKept.retained {s u : State} (h : FieldKept s u) (hh : u.hld.h = s.hld.h) : Retained s u :=
  ⟨h.t, h.sys, h.pwr, h.mem, h.otp, hh⟩

theorem StartStep.retained {s u : State} (h : StartStep s u) : Retained s u := h.toFieldKept.retained (congrArg HldS.h h.hld)

theorem Retained.onCsl (f : CslS → CslS) (s : State) : Retained s (s.onCsl f) := ⟨rfl, rfl, rfl, rfl, rfl, rfl⟩
theorem Retained.onLink (f : LinkS → LinkS) (s : State) : Retained s (s.onLink f) := ⟨rfl, rfl, rfl, rfl, rfl, rfl⟩
theorem Retained.onSin (f : SinS → SinS) (s : State) : Retained s (s.onSin f) := ⟨rfl, rfl, rfl, rfl, rfl, rfl⟩
theorem Retained.onSout (f : SoutS → SoutS) (s : State) : Retained s (s.onSout f) := ⟨rfl, rfl, rfl, rfl, rfl, rfl⟩
theorem Retained.onTmr (f : TmrS → TmrS) (s : State) : Retained s (s.onTmr f) := ⟨rfl, rfl, rfl, rfl, rfl, rfl⟩
theorem Retained.onCvu (f : CvuS → CvuS) (s : State) : Retained s (s.onCvu f) := ⟨rfl, rfl, rfl, rfl, rfl, rfl⟩
theorem Retained.onAlp (f : AlpS → AlpS) (s : State) : Retained s (s.onAlp f) := ⟨rfl, rfl, rfl, rfl, rfl, rfl⟩
theorem Retained.onEng (f : EngS → EngS) (s : State) : Retained s (s.onEng f) := ⟨rfl, rfl, rfl, rfl, rfl, rfl⟩

theorem each_retained {α : Type} {l : List α} {f : α → State → State} (hf : ∀ a s, Retained s (f a s)) (s : State) :
    Retained s (each l f s) :=
  each_keeps (P := Retained s) (fun a u h => h.trans (hf a u)) (Retained.refl s)

/-! ## The end of every session (R307, R312) -/

theorem sessSet_retained (n : Fin 256) (f : Sess → Sess) (s : State) : Retained s (sessSet n f s) := by
  have changed : Retained s (s.onS n f) := Retained.onCsl _ s
  unfold sessSet
  dsimp only
  split
  · exact changed
  · exact changed.trans (raise_fab ..).retained

theorem sendTele_retained (n : Fin 256) (bs : List Byte) (s : State) : Retained s (sendTele n bs s) := by
  unfold sendTele
  dsimp only
  split
  · exact Retained.refl s
  · split
    · exact Retained.onLink _ s
    · exact Retained.onLink _ s
    · split
      · exact (Retained.onCsl _ s).trans (raise_fab ..).retained
      · exact Retained.refl s
    · exact Retained.refl s

theorem sendNext_retained (ty : Nat) (n : Fin 256) (pl : List Byte) (s : State) : Retained s (sendNext ty n pl s) :=
  (Retained.onCsl _ s).trans (sendTele_retained ..)

theorem addCause_retained (k : Fin 16) (c : OutCause) (p : Fin 16) (s : State) : Retained s (addCause k c p s) :=
  ⟨rfl, rfl, rfl, rfl, rfl, rfl⟩

theorem applyRemote_retained (s : State) : Retained s (applyRemote s) := by
  refine each_retained (fun k u => ?_) s
  split
  · exact addCause_retained ..
  · exact (Retained.onSout _ u).trans (Retained.onSout _ _)

theorem linkLock_retained (n : Fin 256) (f : Nat → Bool) (s : State) : Retained s (linkLock n f s) := by
  unfold linkLock
  dsimp only
  split
  · exact ((Retained.onCsl _ s).trans (applyRemote_retained _)).trans (raise_fab ..).retained
  · exact Retained.refl s

theorem leaveRunSess_retained (n : Fin 256) (st : SessSt) (pend : Bool) (s : State) : Retained s (leaveRunSess n st pend s) :=
  (sessSet_retained ..).trans (linkLock_retained ..)

theorem closeAll_retained (s : State) : Retained s (closeAll s) := by
  refine each_retained (fun n u => ?_) s
  split
  · exact (sendNext_retained ..).trans (leaveRunSess_retained ..)
  · split
    · exact sessSet_retained ..
    · exact Retained.refl u

theorem dmaFail_retained (code : BitVec 4) (d : Fin 16) (s : State) : Retained s (dmaFail code d s) :=
  (Retained.onCvu _ s).trans ((report_fab ..).trans (raise_fab ..)).retained

theorem dmaDormant_retained (s : State) : Retained s (dmaDormant s) := each_retained (dmaFail_retained 5) s

theorem stopFree_retained (s : State) : Retained s (stopFree s) := Retained.onTmr _ s

/-- Sessions, DMA and FREE timers end. -/
def unitsEnd (s : State) : State := stopFree (dmaDormant (closeAll s))

theorem unitsEnd_retained (s : State) : Retained s (unitsEnd s) :=
  ((closeAll_retained s).trans (dmaDormant_retained _)).trans (stopFree_retained _)

/-! ## Entry (R466 to R468, Table 18-5) -/

/-- The FREE timers that run. -/
def freeRunning (s : State) : Word := maskOf 32 fun n => let c := s.tmr.ch.getN n {}; c.mode == 1 && c.run

/-- What switches off with its domain: inputs and readbacks, the network, the current loops. -/
def domainsOff (s : State) : State :=
  (((s.onSin inputsRestart).onSout fun x => { x with o := x.o.map fun o => { o with rb := false, pulse := none, test := false } }).onLink
    LinkS.unpowered).onAlp fun x => { x with ch := x.ch.map AlpCh.restart }

/-- The supplies in DORMANT, with the bank checks of the memories `m` and the latched timebase A. -/
def PwrS.dormant (m : MemS) (now : DWord) (free : Word) (p : PwrS) : PwrS :=
  { p with
    domains := p.domains &&& 0x037, bankSums := Machine.bankSums m, lost := 0, dormantA := now, freeRun := free
    entries := satInc p.entries, above := 0, raised := false, pllLock := false, supplyEv := false }

/-- Channel B in DORMANT: its line is high, every switch B open and every gate shut. -/
def HldS.dormant (h : HldS) : HldS :=
  { h with
    h := true, exchArmed := false, inbox := [], waiting := [], mon := h.mon.map fun m => { m with armed := false }
    out := h.out.map fun c => { c with closed := false }, gate := h.gate.map fun g => { g with tx := false } }

/-- All that entry does between the end of the units and the change of RUN_STATE. -/
def asleep (now : DWord) (free : Word) (s : State) : State :=
  (((domainsOff s).onPwr (PwrS.dormant s.mem now free)).onHld HldS.dormant).onSys fun x =>
    { x with sleeping := false, holding := false, result := if x.result = 1 then 0 else x.result }

/-- The rest of entry once the units have ended. -/
def fallAsleep (now : DWord) (free : Word) (s : State) : State :=
  (setRun .dormant 5 (holdAll (asleep now free s))).onT fun t => { t with runA := false }

theorem dormantEnter_eq (s : State) : dormantEnter s = fallAsleep s.t.tbA (freeRunning s) (ceOff (unitsEnd s)) := rfl

theorem asleep_closed (now : DWord) (free : Word) (s : State) (k : Fin 16) : ((asleep now free s).hld.out[k]).closed = false :=
  (congrArg OutCell.closed (Tab.map_get _ _ k.val k.isLt)).trans rfl

theorem asleep_test (now : DWord) (free : Word) (s : State) (k : Fin 16) : ((asleep now free s).sout.o[k]).test = false :=
  (congrArg OutA.test (Tab.map_get _ _ k.val k.isLt)).trans rfl

theorem holdAll_opens {s : State} (h : ∀ k : Fin 16, (s.sout.o[k]).test = false) (k : Fin 16) : ((holdAll s).sout.o[k]).swa = false := by
  have held : (s.onSout fun x => { x with o := x.o.map fun o => { o with hold := true } }).sout.o[k] = { s.sout.o[k] with hold := true } :=
    Tab.map_get _ _ k.val k.isLt
  rw [holdAll, driveA_get, held]
  simpa [OutA.drive, OutA.wantA, OutA.asked] using h k

theorem SameCore.onT (f : TimeS → TimeS) (s : State) : SameCore s (s.onT f) := ⟨rfl, rfl, rfl, rfl, rfl⟩

theorem Aside.onT {s u : State} (h : Aside s u) (f : TimeS → TimeS) : Aside (s.onT f) (u.onT f) :=
  ⟨h.pwr, h.link, h.hld, congrArg f h.t, h.csl, h.csc⟩

theorem fallAsleep_sameCore (now : DWord) (free : Word) (s : State) :
    SameCore ((holdAll (asleep now free s)).onSys fun x => { x with runState := .dormant }) (fallAsleep now free s) :=
  (setRun_sameCore ..).trans (SameCore.onT _ _)

theorem holdAll_mem (s : State) : (holdAll s).mem = s.mem := rfl
theorem holdAll_otp (s : State) : (holdAll s).otp = s.otp := rfl
theorem asleep_mem (now : DWord) (free : Word) (s : State) : (asleep now free s).mem = s.mem := by simp [asleep, domainsOff]
theorem asleep_otp (now : DWord) (free : Word) (s : State) : (asleep now free s).otp = s.otp := by simp [asleep, domainsOff]

theorem fallAsleep_mem (now : DWord) (free : Word) (s : State) : (fallAsleep now free s).mem = s.mem := by
  rw [(fallAsleep_sameCore now free s).mem, State.onSys_mem, holdAll_mem, asleep_mem]

theorem fallAsleep_otp (now : DWord) (free : Word) (s : State) : (fallAsleep now free s).otp = s.otp := by
  rw [(fallAsleep_sameCore now free s).otp, State.onSys_otp, holdAll_otp, asleep_otp]

theorem fallAsleep_aside (now : DWord) (free : Word) (s : State) :
    Aside ((asleep now free s).onT fun t => { t with runA := false }) (fallAsleep now free s) :=
  ((holdAll_aside (asleep now free s)).trans (setRun_aside ..)).onT _

theorem ceOff_own (e : Fin 16) (s : State) : (ceOff s).mem.own[e] = if e = 12 ∨ e = 13 then [] else s.mem.own[e] := by
  show ((s.mem.own.upd 12 fun _ => []).upd 13 fun _ => [])[e.val] = _
  rw [Tab.upd_get, Tab.upd_get]
  simp only [Fin.ext_iff]
  grind

/-- What entry to DORMANT leads to. -/
structure Dormant (s u : State) : Prop where
  t : u.t = { s.t with runA := false }
  runState : u.sys.runState = .dormant
  sleeping : u.sys.sleeping = false
  pwr : u.pwr = s.pwr.dormant u.mem s.t.tbA (freeRunning s)
  held : u.hld.h = true
  closed : ∀ k : Fin 16, (u.hld.out[k]).closed = false
  swa : ∀ k : Fin 16, (u.sout.o[k]).swa = false
  own : ∀ e : Fin 16, u.mem.own[e] = if e = 12 ∨ e = 13 then [] else s.mem.own[e]
  shared : u.mem.shared = s.mem.shared
  keyStore : u.mem.keyStore = s.mem.keyStore
  otp : u.otp = s.otp

theorem Fab.dormant {s u v : State} (h : Fab u v) (d : Dormant s u) : Dormant s v := by
  refine ⟨?_, ?_, ?_, ?_, ?_, ?_, ?_, ?_, ?_, ?_, ?_⟩
  · rw [h.t, d.t]
  · rw [h.sys, d.runState]
  · rw [h.sys, d.sleeping]
  · rw [h.pwr, h.mem, d.pwr]
  · rw [h.hld, d.held]
  · rw [h.hld]; exact d.closed
  · rw [h.sout]; exact d.swa
  · rw [h.mem]; exact d.own
  · rw [h.mem, d.shared]
  · rw [h.mem, d.keyStore]
  · rw [h.otp, d.otp]

theorem fallAsleep_dormant {s v : State} (h : Retained s v) : Dormant s (fallAsleep s.t.tbA (freeRunning s) (ceOff v)) := by
  obtain ⟨t, -, pwr, mem, otp, -⟩ := h
  obtain ⟨sys', -, -, sout', -⟩ := fallAsleep_sameCore s.t.tbA (freeRunning s) (ceOff v)
  obtain ⟨pwr', -, hld', t', -, -⟩ := fallAsleep_aside s.t.tbA (freeRunning s) (ceOff v)
  have memory := fallAsleep_mem s.t.tbA (freeRunning s) (ceOff v)
  refine ⟨?_, ?_, ?_, ?_, ?_, fun k => ?_, fun k => ?_, fun e => ?_, ?_, ?_, ?_⟩
  · rw [t', ← t]; rfl
  · rw [sys']; rfl
  · rw [sys']; rfl
  · rw [pwr', memory, ← pwr]; rfl
  · rw [hld']; rfl
  · rw [hld']; exact asleep_closed _ _ (ceOff v) k
  · rw [sout']; exact holdAll_opens (asleep_test _ _ (ceOff v)) k
  · rw [memory, ← mem]; exact ceOff_own e v
  · rw [memory, ← mem]; rfl
  · rw [memory, ← mem]; rfl
  · exact (fallAsleep_otp _ _ (ceOff v)).trans otp

theorem dormantEnter_dormant (s : State) : Dormant s (dormantEnter s) := by
  rw [dormantEnter_eq]
  exact fallAsleep_dormant (unitsEnd_retained s)

/-! ## The field side and the current loops begin (R17, R218, R276) -/

theorem each_hld {α : Type} {l : List α} {f : α → State → State} (hf : ∀ a s, (f a s).hld = s.hld) (s : State) :
    (each l f s).hld = s.hld :=
  each_keeps (P := fun u => u.hld = s.hld) (fun a u h => (hf a u).trans h) rfl

theorem when_captureEdge_hld (b : Bool) (src : Nat) (falling : Bool) (s : State) : (when b (captureEdge src falling) s).hld = s.hld := by
  unfold when
  split <;> rfl

theorem onI_hld (n : Fin 32) (f : InA → InA) (s : State) : (s.onI n f).hld = s.hld := rfl
theorem tpLock_hld (n : Fin 32) (s : State) : (tpLock n s).hld = s.hld := rfl
theorem followTp_hld (j : Fin 8) (s : State) : (followTp j s).hld = s.hld := rfl
theorem trackOuts_hld (s : State) : (trackOuts s).hld = s.hld := rfl

theorem judgeOwn_hld (j : Fin 8) (s : State) : (judgeOwn j s).hld = s.hld := by
  refine (each_hld (fun n u => ?_) _).trans rfl
  dsimp only
  split
  · split
    · split
      · exact (tpLock_hld ..).trans ((report_hld ..).trans (onI_hld ..))
      · exact onI_hld ..
    · exact onI_hld ..
  · rfl

theorem tpPresent_hld (j : Fin 8) (lvl : Bool) (s : State) : (tpPresent j lvl s).hld = s.hld := by
  unfold tpPresent
  split
  · rfl
  · split
    · exact (followTp_hld ..).trans (judgeOwn_hld j s)
    · rfl

theorem sample_hld (n : Fin 32) (lvl : Bool) (s : State) : (sample n lvl s).hld = s.hld := by
  unfold sample
  dsimp only
  split
  · exact when_captureEdge_hld ..
  · split
    · rfl
    · exact (presentEdge_decideStep ..).hld

theorem readbackA_hld (k : Fin 16) (lvl : Bool) (s : State) : (readbackA k lvl s).hld = s.hld := by
  unfold readbackA
  split <;> rfl

theorem fieldBegin_hld (s : State) : (fieldBegin s).hld = s.hld := by
  have started : (when (!stopped s) sourcesOn (s.onSin fun x => { x with i := x.i.map InA.startSampling })).hld = s.hld := by
    unfold when
    split
    · exact (each_hld followTp_hld _).trans rfl
    · rfl
  have readbacks (v : State) : (trackOuts (each (List.finRange 16) (fun k s => readbackA k s.sout.o[k].raw s) v)).hld = v.hld :=
    (trackOuts_hld _).trans (each_hld (fun k u => readbackA_hld ..) v)
  unfold fieldBegin
  dsimp only
  split
  · exact (each_hld (fun n u => sample_hld ..) _).trans <| (each_hld (fun n u => (presentEdge_decideStep ..).hld) _).trans <|
      (readbacks _).trans <| (each_hld (fun j u => tpPresent_hld ..) _).trans started
  · exact started

theorem fieldBegin_retained (s : State) : Retained s (fieldBegin s) :=
  (fieldBegin_beginStep s).toFieldKept.retained (congrArg HldS.h (fieldBegin_hld s))

theorem bankLock_retained (k : Fin 16) (s : State) : Retained s (bankLock k s) := by
  unfold bankLock
  split
  · exact addCause_retained ..
  · exact Retained.refl s

theorem bankFail_retained (n : Fin 2) (s : State) : Retained s (bankFail n s) := by
  rw [bankFail_eq]
  exact ((Retained.onSout _ s).trans (report_fab ..).retained).trans (each_retained bankLock_retained _)

theorem bankBegin_retained (s : State) : Retained s (bankBegin s) := by
  refine each_retained (fun n u => ?_) s
  split
  · split
    · exact Retained.onSout _ u
    · exact bankFail_retained n u
  · split
    · exact Retained.onSout _ u
    · exact bankFail_retained n u

theorem Retained.onA (n : Fin 8) (f : AlpCh → AlpCh) (s : State) : Retained s (s.onA n f) := Retained.onAlp _ s

theorem alpFault_retained (c : AlpCause) (n : Fin 8) (s : State) : Retained s (alpFault c n s) := by
  unfold alpFault
  exact (report_fab _ s).retained.trans (Retained.onA n _ _)

theorem gaugeEnd_retained (n : Fin 8) (m : GaugeMeas) (s : State) : Retained s (gaugeEnd n m s) := by
  unfold gaugeEnd
  dsimp only
  split
  · exact Retained.refl s
  · split
    · exact (Retained.onAlp _ s).trans (Retained.onAlp _ _)
    · exact ((Retained.onAlp _ s).trans (Retained.onAlp _ _)).trans (alpFault_retained ..)

theorem gaugeAll_retained (ms : List GaugeMeas) (s : State) : Retained s (gaugeAll ms s) := by
  unfold gaugeAll
  split
  · exact each_retained (fun n u => (Retained.onAlp _ u).trans (gaugeEnd_retained n _ _)) s
  · exact Retained.refl s

/-! ## A wake whose checks pass (R471 to R473, Table 18-6) -/

/-- The supplies after a wake: the core rail at 0.95 V, and the domains on again. -/
def PwrS.woken (p : PwrS) : PwrS :=
  { p with
    setpoint := 28, tensionMax := true, supplyEv := false
    domains := maskOf 10 fun i => if i = 6 then true else if i = 7 then p.vf1 || p.vf2 else if i = 8 then p.van else bit p.domains i }

/-- Engines restart with no task. -/
def enginesRestart (s : State) : State :=
  s.onEng fun x => { x with e := Tab.gen 24 fun e => if 4 ≤ e.val then engineRestart x.e[e] else x.e[e] }

/-- Channel B's cells at their initial states, its line high. -/
def HldS.woken (h : HldS) : HldS := { h.initCells with h := true, line := .hold, linePrev := .hold, skipNext := true }

/-- Timers, engines and cells as a wake finds them. -/
def unitsWake (s : State) : State := (enginesRestart (each (List.range 24) unlockOwned (resumeFree (s.onPwr PwrS.woken)))).onSin slotsFresh

/-- The safety cores `l` start at INIT, and the field side, the banks and the current loops begin. -/
def fieldWakes (l : List (Fin 4)) (g : List GaugeMeas) (s : State) : State :=
  gaugeAll g (bankBegin (fieldBegin (armMonitor (each l startInit s))))

/-- The entry to SAFE-HOLD, with its record and events. -/
def wakeHold (cause : BitVec 3) (s : State) : State := quarAll (raise 127 (setRun .safeHold (0x80 + cause.zeroExtend 32) s))

/-- SAFE-HOLD begins. -/
def wakeEnds (s : State) : State := s.onSys fun x => { x with stage := .none, holdReason := (startUnmet s).getD 7 }

theorem wakeUp_eq (cause : BitVec 3) (w : WakeEnv) (s : State) : wakeUp cause w s =
    wakeEnds (wakeHold cause (fieldWakes (hostingCores (wakeEvents s)) w.gauge ((unitsWake (wakeEvents s)).onHld HldS.woken))) := rfl

theorem wakeEvents_fab (s : State) : Fab s (wakeEvents s) := by
  have changed : Fab s (when s.pwr.supplyEv (raise 124) s) := by
    unfold when
    split
    · exact raise_fab ..
    · exact Fab.refl s
  exact (changed.trans (raise_fab ..)).trans (raise_fab ..)

theorem unitsWake_retained (s : State) : Retained (s.onPwr PwrS.woken) (unitsWake s) := by
  have units := (Retained.onTmr _ (s.onPwr PwrS.woken)).trans
    (each_retained (l := List.range 24) (fun e u => (unlockOwned_startStep e u).retained) (resumeFree (s.onPwr PwrS.woken)))
  exact (units.trans (Retained.onEng _ _)).trans (Retained.onSin _ _)

theorem armMonitor_retained (s : State) : Retained s (armMonitor s) := ⟨rfl, rfl, rfl, rfl, rfl, rfl⟩

theorem fieldWakes_retained (l : List (Fin 4)) (g : List GaugeMeas) (s : State) : Retained s (fieldWakes l g s) := by
  have started := each_retained (l := l) (fun c u => (startInit_startStep c u).retained) s
  exact (((started.trans (armMonitor_retained _)).trans (fieldBegin_retained _)).trans (bankBegin_retained _)).trans
    (gaugeAll_retained g _)

theorem quarAll_retained (s : State) : Retained s (quarAll s) := by
  unfold quarAll
  dsimp only
  split
  · exact (Retained.onCsl _ s).trans (raise_fab ..).retained
  · exact Retained.onCsl _ s

theorem setRun_retained (new : RunState) (cause : Word) (s : State) :
    Retained (s.onSys fun x => { x with runState := new }) (setRun new cause s) := by
  obtain ⟨sys, mem, otp, -, -⟩ := setRun_sameCore new cause s
  obtain ⟨pwr, -, hld, t, -, -⟩ := setRun_aside new cause s
  exact ⟨t, sys, pwr, mem, otp, congrArg HldS.h hld⟩

theorem wakeHold_retained (cause : BitVec 3) (s : State) : Retained (s.onSys fun x => { x with runState := .safeHold }) (wakeHold cause s) :=
  ((setRun_retained ..).trans (raise_fab ..).retained).trans (quarAll_retained _)

/-- SAFE-HOLD after a wake from `s`. -/
structure Woken (s u : State) : Prop where
  runState : u.sys.runState = .safeHold
  stage : u.sys.stage = .none
  t : u.t = s.t
  pwr : u.pwr = s.pwr.woken
  held : u.hld.h = true
  mem : u.mem = s.mem
  otp : u.otp = s.otp

theorem Fab.woken {s u v : State} (h : Fab u v) (w : Woken s u) : Woken s v := by
  refine ⟨?_, ?_, ?_, ?_, ?_, ?_, ?_⟩
  · rw [h.sys, w.runState]
  · rw [h.sys, w.stage]
  · rw [h.t, w.t]
  · rw [h.pwr, w.pwr]
  · rw [h.hld, w.held]
  · rw [h.mem, w.mem]
  · rw [h.otp, w.otp]

theorem wakeHold_runState (cause : BitVec 3) (s : State) : (wakeHold cause s).sys.runState = .safeHold := by
  rw [(wakeHold_retained cause s).sys]
  rfl

/-- A state before the field side begins leads to SAFE-HOLD. -/
theorem woken_of_ready {s v : State} (h : Retained (s.onPwr PwrS.woken) v) (cause : BitVec 3) (l : List (Fin 4)) (g : List GaugeMeas) :
    Woken s (wakeEnds (wakeHold cause (fieldWakes l g (v.onHld HldS.woken)))) := by
  obtain ⟨t, -, pwr, mem, otp, -⟩ := h
  obtain ⟨t', -, pwr', mem', otp', held'⟩ := fieldWakes_retained l g (v.onHld HldS.woken)
  generalize fieldWakes l g (v.onHld HldS.woken) = f at *
  have runState := wakeHold_runState cause f
  obtain ⟨t'', -, pwr'', mem'', otp'', held''⟩ := wakeHold_retained cause f
  generalize wakeHold cause f = u at *
  exact ⟨runState, rfl, t''.trans (t'.trans t), pwr''.trans (pwr'.trans pwr), held''.trans held', mem''.trans (mem'.trans mem),
    otp''.trans (otp'.trans otp)⟩

theorem wakeUp_woken (cause : BitVec 3) (w : WakeEnv) (s : State) : Woken s (wakeUp cause w s) := by
  have events := wakeEvents_fab s
  obtain ⟨runState, stage, t, pwr, held, mem, otp⟩ :=
    woken_of_ready (unitsWake_retained (wakeEvents s)) cause (hostingCores (wakeEvents s)) w.gauge
  rw [wakeUp_eq]
  refine ⟨runState, stage, t.trans events.t, ?_, held, mem.trans events.mem, otp.trans events.otp⟩
  rw [pwr, events.pwr]

/-! ## A wake (R470, R471) -/

/-- A device in DORMANT that is supplied and out of reset: a source wakes it. -/
structure Wakeable (s : State) : Prop where
  runState : s.sys.runState = .dormant
  good : s.pwr.good = true
  resetN : s.pwr.resetN = false

/-- What a wake notes before its checks end: the memories as they read, the cause, the clocks, timebase A gone on. -/
def waking (cause : BitVec 3) (w : WakeEnv) (s : State) : State :=
  ((s.onMem (upsetMem w.upset)).onPwr fun p =>
    { p with wakeCause := cause, pllLock := w.clocksOk, dormantMs := BitVec.ofNat 32 (min 0xFFFFFFFF (w.periods * 1000 / 32768)) }).onT
    fun t => { t with runA := w.clocksOk, tbA := s.pwr.dormantA + BitVec.ofNat 64 (w.periods * 390625 / 64) }

/-- The checks of a wake pass, the words that DORMANT has changed in the memories. -/
def wakePasses (w : WakeEnv) (s : State) : Bool := wakeOk w (s.onMem (upsetMem w.upset))

theorem wake_eq {s : State} (h : Wakeable s) (cause : BitVec 3) (w : WakeEnv) : wake cause w s =
    if wakePasses w s then wakeUp (wakeCode cause w s) w (waking (wakeCode cause w s) w s)
    else resetDevice causeWake (waking (wakeCode cause w s) w s) := by
  have wakes : (s.sys.runState != .dormant || !s.pwr.good || s.pwr.resetN) = false := by rw [h.runState, h.good, h.resetN]; rfl
  unfold wake
  rw [if_neg (by rw [wakes]; exact Bool.false_ne_true)]
  rfl

/-- Outside DORMANT no source wakes anything (R479). -/
theorem wake_elsewhere {s : State} (h : s.sys.runState ≠ .dormant) (cause : BitVec 3) (w : WakeEnv) : wake cause w s = s := by
  unfold wake
  exact if_pos (by simp [h])

theorem wake_passed {s : State} {w : WakeEnv} (h : Wakeable s) (hp : wakePasses w s = true) (cause : BitVec 3) :
    Woken (waking (wakeCode cause w s) w s) (wake cause w s) := by
  rw [wake_eq h, if_pos hp]
  exact wakeUp_woken ..

theorem wake_failed {s : State} {w : WakeEnv} (h : Wakeable s) (hp : wakePasses w s = false) (cause : BitVec 3) :
    wake cause w s = resetDevice causeWake (waking (wakeCode cause w s) w s) := by
  rw [wake_eq h, if_neg (by rw [hp]; exact Bool.false_ne_true)]

theorem clocksOk_of_wakePasses {s : State} {w : WakeEnv} (h : wakePasses w s = true) : w.clocksOk = true := by
  simp only [wakePasses, wakeOk, Bool.and_eq_true] at h
  obtain ⟨⟨⟨⟨⟨clocks, -⟩, -⟩, -⟩, -⟩, -⟩ := h
  exact clocks

/-- A row that wakes: the wake of `v`, its events and no report of a held device. -/
structure Wakes (cause : BitVec 3) (w : WakeEnv) (v u : State) : Prop where
  fab : Fab (wake cause w v) u
  diag : rctTakes (wake cause w v) = false → u.diag = { (wake cause w v).diag with result := u.diag.result }

theorem noting_wakes {f : State → State} {cause : BitVec 3} {w : WakeEnv} {s v : State} (h : f s = wake cause w v) :
    Wakes cause w v (noting f s) := by
  have fab := noting_fab f s
  have diag := noting_diag (f := f) (s := s)
  rw [h] at fab diag
  exact ⟨fab, diag⟩

/-- The active sources, and what is known of CK-32K. -/
def sourced (on : Tab (Option WakeEnv) 6) (run drift : Bool) (s : State) : State :=
  s.onPwr fun p => { p with wakeOn := on, k32Run := run, ck32Drift := drift }

theorem codeIntact_congr {s u : State} (mem : u.mem = s.mem) (secs : u.upd.secs = s.upd.secs) (domains : u.pwr.domains = s.pwr.domains) :
    codeIntact u = codeIntact s := by
  have looked : codeSection u = codeSection s := by funext x; simp only [codeSection, mem, domains]
  have hashes : secOk u = secOk s := by funext x; simp only [secOk, mem]
  rw [codeIntact, codeIntact, secs, looked, hashes]

theorem wakePasses_sourced (w : WakeEnv) (on : Tab (Option WakeEnv) 6) (run drift : Bool) (s : State) :
    wakePasses w (sourced on run drift s) = wakePasses w s := by
  have code : codeIntact ((sourced on run drift s).onMem (upsetMem w.upset)) = codeIntact (s.onMem (upsetMem w.upset)) :=
    codeIntact_congr rfl rfl rfl
  rw [wakePasses, wakePasses, wakeOk, wakeOk, code]
  rfl

theorem Wakeable.sourced {s : State} (h : Wakeable s) (on : Tab (Option WakeEnv) 6) (run drift : Bool) :
    Wakeable (sourced on run drift s) := ⟨h.runState, h.good, h.resetN⟩

/-- Two states agree in the run state record, the fuses, the archive, the link, the stores and the queue. -/
structure Agree (s v : State) : Prop where
  sys : v.sys = s.sys
  otp : v.otp = s.otp
  diag : v.diag = s.diag
  link : v.link = s.link
  upd : v.upd = s.upd
  pending : v.pending = s.pending

theorem Agree.noted (f g : PwrS → PwrS) (m : MemS → MemS) (t : TimeS → TimeS) (s : State) :
    Agree s ((((s.onPwr f).onMem m).onPwr g).onT t) := ⟨rfl, rfl, rfl, rfl, rfl, rfl⟩

/-- What a wake notes leaves all of these. -/
theorem waking_agree (cause : BitVec 3) (w : WakeEnv) (on : Tab (Option WakeEnv) 6) (run drift : Bool) (s : State) :
    Agree s (waking cause w (sourced on run drift s)) := Agree.noted ..

/-- What a reset keeps is the same of two states that agree. -/
theorem heldReset_of_agree {s v u : State} (h : Agree s v) (hr : heldReset v u) : heldReset s u := by
  rw [heldReset, h.otp, h.diag, h.link, h.upd, h.pending] at hr
  exact hr

/-- A wake whose checks pass. -/
theorem Wakes.passed {cause : BitVec 3} {w : WakeEnv} {s u : State} {on : Tab (Option WakeEnv) 6} {run drift : Bool} (h : Wakeable s)
    (hu : Wakes cause w (sourced on run drift s) u) (hp : wakePasses w s = true) :
    u.sys.runState = .safeHold ∧ u.sys.stage = .none ∧ u.pwr.wakeCause = wakeCode cause w s ∧
      u.t.tbA = s.pwr.dormantA + BitVec.ofNat 64 (w.periods * 390625 / 64) ∧ u.t.runA = true ∧ u.pwr.setpoint = 28 ∧
      u.hld.h = true ∧ u.mem = upsetMem w.upset s.mem ∧ u.otp = s.otp := by
  rw [← wakePasses_sourced w on run drift s] at hp
  obtain ⟨runState, stage, t, pwr, held, mem, otp⟩ := hu.fab.woken (wake_passed (h.sourced on run drift) hp cause)
  refine ⟨runState, stage, ?_, ?_, ?_, ?_, held, mem, otp.trans (waking_agree ..).otp⟩
  · rw [pwr]; rfl
  · rw [t]; rfl
  · rw [t]; exact clocksOk_of_wakePasses hp
  · rw [pwr]; rfl

theorem resetDevice_wakeCause (causes : BitVec 7) (s : State) : (resetDevice causes s).pwr.wakeCause = s.pwr.wakeCause := rfl

theorem resetDevice_rctTakes (causes : BitVec 7) (s : State) : rctTakes (resetDevice causes s) = false := rfl

/-- One whose checks fail. -/
theorem Wakes.failed {cause : BitVec 3} {w : WakeEnv} {s u : State} {on : Tab (Option WakeEnv) 6} {run drift : Bool} (h : Wakeable s)
    (hu : Wakes cause w (sourced on run drift s) u) (hp : wakePasses w s = false) :
    heldReset s u ∧ u.sys.cause = s.sys.cause ||| 0x40 ∧ u.sys.clockWait = true ∧ u.pwr.wakeCause = wakeCode cause w s := by
  rw [← wakePasses_sourced w on run drift s] at hp
  obtain ⟨fab, diag⟩ := hu
  rw [wake_failed (h.sourced on run drift) hp] at fab diag
  have agree := waking_agree (wakeCode cause w (sourced on run drift s)) w on run drift s
  have noted : (waking (wakeCode cause w (sourced on run drift s)) w (sourced on run drift s)).pwr.wakeCause = wakeCode cause w s := rfl
  generalize waking (wakeCode cause w (sourced on run drift s)) w (sourced on run drift s) = v at *
  obtain ⟨held, waits, causes⟩ := resetDevice_held causeWake v
  refine ⟨heldReset_of_agree agree (heldReset_fab held fab (diag (resetDevice_rctTakes ..))), ?_, ?_, ?_⟩
  · rw [fab.sys, causes, agree.sys]; rfl
  · rw [fab.sys, waits]
  · rw [fab.pwr, resetDevice_wakeCause, noted]

/-! ## The cause that is recorded (R469, R470) -/

/-- The lowest of a cause and the causes of a list. -/
theorem foldl_lowest (l : List (BitVec 3)) (c : BitVec 3) :
    let m := l.foldl (fun a b => if b < a then b else a) c
    m ≤ c ∧ (∀ x ∈ l, m ≤ x) ∧ (m = c ∨ m ∈ l) := by
  induction l generalizing c with
  | nil => exact ⟨BitVec.le_refl c, fun x hx => (List.not_mem_nil hx).elim, .inl rfl⟩
  | cons b l ih =>
    obtain ⟨first, members, among⟩ := ih (if b < c then b else c)
    dsimp only
    rw [List.foldl_cons]
    generalize l.foldl (fun a b => if b < a then b else a) (if b < c then b else c) = m at *
    grind

theorem wakeEnabled_congr {s u : State} (cfg : u.pwr.wakeCfg = s.pwr.wakeCfg) (timer : u.pwr.wakeTimer = s.pwr.wakeTimer) :
    wakeEnabled u = wakeEnabled s := by
  funext c
  rw [wakeEnabled, wakeEnabled, cfg, timer]

theorem wakeCode_congr {s u : State} (cfg : u.pwr.wakeCfg = s.pwr.wakeCfg) (timer : u.pwr.wakeTimer = s.pwr.wakeTimer) (cause : BitVec 3)
    (w : WakeEnv) : wakeCode cause w u = wakeCode cause w s := by
  rw [wakeCode, wakeCode, wakeEnabled_congr cfg timer]

theorem wakeCode_lowest (cause : BitVec 3) (w : WakeEnv) (s : State) : wakeCode cause w s ≤ cause ∧
    (∀ x ∈ w.also, wakeEnabled s x = true → wakeCode cause w s ≤ x) ∧
    (wakeCode cause w s = cause ∨ wakeCode cause w s ∈ w.also.filter (wakeEnabled s)) := by
  obtain ⟨first, members, among⟩ := foldl_lowest (w.also.filter (wakeEnabled s)) cause
  exact ⟨first, fun x hx he => members x (List.mem_filter.mpr ⟨hx, he⟩), among⟩

/-! ## The sources (R469, R474, R479) -/

/-- A source with a level becomes active, or is active no more. -/
def levelled (c : Fin 6) (w : WakeEnv) (s : State) : State :=
  s.onPwr fun p => { p with wakeOn := p.wakeOn.upd c fun _ => if w.ends then none else some w }

theorem levelled_active {w : WakeEnv} (hw : w.ends = false) (c : Fin 6) (s : State) :
    levelled c w s = s.onPwr fun p => { p with wakeOn := p.wakeOn.upd c fun _ => some w } := by
  simp only [levelled, hw, Bool.false_eq_true, if_false]

theorem wakeSource_eq (cause : BitVec 3) (w : WakeEnv) (s : State) : wakeSource cause w s =
    if w.ends || !wakeEnabled s cause then levelled (Fin.ofNat 6 cause.toNat) w s
    else wake cause w (levelled (Fin.ofNat 6 cause.toNat) w s) := rfl

theorem wakeSource_wakes {w : WakeEnv} {s : State} {cause : BitVec 3} (hw : w.ends = false) (he : wakeEnabled s cause = true) :
    wakeSource cause w s = wake cause w (levelled (Fin.ofNat 6 cause.toNat) w s) := by
  rw [wakeSource_eq, hw, he, if_neg (by decide)]

theorem wakeSource_still {w : WakeEnv} {s : State} {cause : BitVec 3}
    (h : w.ends = true ∨ s.sys.runState ≠ .dormant ∨ wakeEnabled s cause = false) :
    wakeSource cause w s = levelled (Fin.ofNat 6 cause.toNat) w s := by
  rw [wakeSource_eq]
  split
  next => rfl
  next active =>
    refine wake_elsewhere ?_ cause w
    rcases h with h | h | h
    · simp [h] at active
    · exact h
    · simp [h] at active

/-- A row of a level that wakes nothing. -/
theorem noting_wakeSource_still {w : WakeEnv} {s : State} {cause : BitVec 3}
    (h : w.ends = true ∨ s.sys.runState ≠ .dormant ∨ wakeEnabled s cause = false) :
    noting (wakeSource cause w) s = levelled (Fin.ofNat 6 cause.toNat) w s := noting_onPwr (wakeSource_still h) rfl

theorem report_unreported {d : DiagS} {s : State} (h : Unreported d s) (r : Rep) : Unreported d (report r s) := by
  unfold report
  rw [reportCore_unreported h]
  exact raiseList_unreported h ..

/-- The events and the report that follow the loss of CK-32K. -/
theorem Wakes.reported {cause : BitVec 3} {w : WakeEnv} {v u : State} (h : Wakes cause w v u) (c : Bool) (ev : Nat) (r : Rep) :
    Wakes cause w v (report r (if c then raise ev u else u)) := by
  refine ⟨h.fab.trans ((raiseIf_fab ..).trans (report_fab ..)), fun held => ?_⟩
  have quiet : rctTakes u = false := by rw [rctTakes, h.fab.sys]; exact held
  obtain ⟨same, -⟩ := report_unreported (raiseIf_unreported c ev ⟨rfl, quiet⟩) r
  rw [same]
  exact h.diag held

theorem exec_wakePin_wakes {w : WakeEnv} (hw : w.ends = false) (s : State) :
    ∃ u, exec (.wakePin w) s = .next u ∧ Wakes 1 w (levelled 1 w s) u :=
  ⟨_, rfl, noting_wakes (wakeSource_wakes hw rfl)⟩

theorem exec_canWake_wakes {w : WakeEnv} {s : State} (hw : w.ends = false) (he : bit s.pwr.wakeCfg 2 = true) :
    ∃ u, exec (.canWake w) s = .next u ∧ Wakes 4 w (levelled 4 w s) u :=
  ⟨_, rfl, noting_wakes (wakeSource_wakes hw he)⟩

/-- CK-32K is known to be lost. -/
def k32Gone (s : State) : State := s.onPwr fun p => { p with k32Run := false, ck32Drift := true }

theorem exec_k32Lost_wakes {w : WakeEnv} {s : State} (hw : w.ends = false) (hr : s.sys.runState = .dormant) :
    ∃ u, exec (.k32Lost w) s = .next u ∧ Wakes 5 w (levelled 5 w (k32Gone s)) u := by
  have row : exec (.k32Lost w) s = .next (report (cntRep 0xAC 0 0)
      (if s.pwr.k32Run then raise 126 (noting (wakeSource 5 w) (k32Gone s)) else noting (wakeSource 5 w) (k32Gone s))) := by
    show execK32Lost w s = _
    unfold execK32Lost
    rw [hw, hr]
    rfl
  exact ⟨_, row, (noting_wakes (wakeSource_wakes hw rfl)).reported ..⟩

theorem exec_k32Lost_ends {w : WakeEnv} (hw : w.ends = true) (s : State) : exec (.k32Lost w) s = .next (levelled 5 w s) := by
  show execK32Lost w s = _
  unfold execK32Lost
  rw [if_pos hw]
  exact congrArg Host.Outcome.next (wakeSource_still (.inl hw))

theorem exec_k32Lost_elsewhere {w : WakeEnv} {s : State} (hw : w.ends = false) (hr : s.sys.runState ≠ .dormant) :
    ∃ u, exec (.k32Lost w) s = .next u ∧ Fab (levelled 5 w (s.onPwr fun p => { p with k32Run := false })) u := by
  have still : wakeSource 5 w (s.onPwr fun p => { p with k32Run := false }) = levelled 5 w (s.onPwr fun p => { p with k32Run := false }) :=
    wakeSource_still (.inr (.inl hr))
  refine ⟨_, ?_, raiseIf_fab (s.pwr.k32Run && s.pwr.good) 126 _⟩
  show execK32Lost w s = _
  unfold execK32Lost
  rw [if_neg (by rw [hw]; exact Bool.false_ne_true), if_neg hr]
  dsimp only
  rw [still]

/-- The wake timer is enabled, and its periods have been counted. -/
def timerDue (w : WakeEnv) (s : State) : Bool :=
  bit s.pwr.wakeCfg 0 && s.pwr.wakeTimer != 0 && decide (s.pwr.wakeTimer.toNat ≤ w.periods)

theorem timerDue_iff {w : WakeEnv} {s : State} : timerDue w s = true ↔
    bit s.pwr.wakeCfg 0 = true ∧ s.pwr.wakeTimer ≠ 0 ∧ s.pwr.wakeTimer.toNat ≤ w.periods := by
  simp only [timerDue, Bool.and_eq_true, bne_iff_ne, decide_eq_true_eq, and_assoc]

theorem exec_wakeTimer_wakes {w : WakeEnv} {s : State} (h : timerDue w s = true) :
    ∃ u, exec (.wakeTimer w) s = .next u ∧ Wakes 2 w s u :=
  ⟨_, congrArg Host.Outcome.next (if_pos h), noting_wakes rfl⟩

theorem exec_wakeTimer_early {w : WakeEnv} {s : State} (h : w.periods < s.pwr.wakeTimer.toNat) : exec (.wakeTimer w) s = .next s :=
  congrArg Host.Outcome.next (if_neg (by simp [h]))

theorem exec_wakeTimer_elsewhere {s : State} (h : s.sys.runState ≠ .dormant) (w : WakeEnv) : exec (.wakeTimer w) s = .next s := by
  have still : noting (wake 2 w) s = s := noting_onPwr (g := id) (wake_elsewhere h 2 w) rfl
  show execWakeTimer w s = _
  unfold execWakeTimer
  rw [still, ite_self]

theorem exec_retentionSupplyDip {s : State} (h : s.sys.runState = .dormant) (d : Fin 10) : exec (.retentionSupplyDip d) s =
    .next (s.onPwr fun p => { p with lost := setBit p.lost d.val true }) := congrArg Host.Outcome.next (if_pos h)

theorem exec_retentionSupplyDip_elsewhere {s : State} (h : s.sys.runState ≠ .dormant) (d : Fin 10) :
    exec (.retentionSupplyDip d) s = .next s := congrArg Host.Outcome.next (if_neg h)

/-! ## DORMANT_ENTRY (R50, R288, R466, R467) -/

/-- SLEEP waits, and the scans of the hosting cores have ended. -/
structure EntryDue (s : State) : Prop where
  sleeping : s.sys.sleeping = true
  ended : scansEnded s = true
  runState : s.sys.runState = .safeHold ∨ s.sys.runState = .run

/-- Entry, with the wake of a source that is active then. -/
def enterDormant (s : State) : State :=
  match activeSource s with
  | some q => wake q.1 q.2 (dormantEnter s)
  | none => dormantEnter s

theorem exec_dormantEntry_idle {s : State} (h : s.sys.sleeping = false ∨ scansEnded s = false) : exec .dormantEntry s = .next s :=
  congrArg Host.Outcome.next (if_pos (by rcases h with h | h <;> simp [h]))

theorem exec_dormantEntry {s : State} (h : EntryDue s) : exec .dormantEntry s = .next (match sleepBar s with
    | some r => sleepRefuse 3 r (s.onSys fun x => { x with sleeping := false })
    | none => if closeFails (Config.writeEnv s.fresh).agree s then noting (checked false id) s.takeFree.2
      else noting enterDormant s.takeFree.2) := by
  obtain ⟨sleeping, ended, runState⟩ := h
  refine congrArg Host.Outcome.next (if_neg ?_)
  rw [sleeping, ended]
  rcases runState with h | h <;> rw [h] <;> decide

theorem exec_dormantEntry_barred {s : State} (h : EntryDue s) {r : BitVec 4} (hr : sleepBar s = some r) : exec .dormantEntry s = .next
    { s with sys := { s.sys with sleeping := false, result := 3 }, pwr := { s.pwr with refuse := r } } := by
  rw [exec_dormantEntry h, hr]
  rfl

theorem exec_dormantEntry_differs {s : State} (h : EntryDue s) (hb : sleepBar s = none)
    (hd : closeFails (Config.writeEnv s.fresh).agree s = true) : exec .dormantEntry s = .next (noting (checked false id) s.takeFree.2) := by
  rw [exec_dormantEntry h, hb, hd]
  rfl

theorem exec_dormantEntry_enters {s : State} (h : EntryDue s) (hb : sleepBar s = none)
    (hd : closeFails (Config.writeEnv s.fresh).agree s = false) : exec .dormantEntry s = .next (noting enterDormant s.takeFree.2) := by
  rw [exec_dormantEntry h, hb, hd]
  rfl

theorem dormantEnter_takeFree (s : State) : Dormant s (dormantEnter s.takeFree.2) := by
  have drawn : Retained s s.takeFree.2 := ⟨rfl, rfl, rfl, rfl, rfl, rfl⟩
  rw [dormantEnter_eq]
  exact fallAsleep_dormant (drawn.trans (unitsEnd_retained _))

theorem enterDormant_sleeps {s : State} (h : activeSource s = none) : Dormant s (enterDormant s.takeFree.2) := by
  have none : activeSource s.takeFree.2 = none := h
  unfold enterDormant
  rw [none]
  exact dormantEnter_takeFree s

theorem enterDormant_wakes {s : State} {q : BitVec 3 × WakeEnv} (h : activeSource s = some q) :
    enterDormant s.takeFree.2 = wake q.1 q.2 (dormantEnter s.takeFree.2) := by
  have active : activeSource s.takeFree.2 = some q := h
  unfold enterDormant
  rw [active]

/-- A supplied device that has entered DORMANT can be woken. -/
theorem Dormant.wakeable {s u : State} (h : Dormant s u) (hg : s.pwr.good = true) (hr : s.pwr.resetN = false) : Wakeable u :=
  ⟨h.runState, by rw [h.pwr]; exact hg, by rw [h.pwr]; exact hr⟩

theorem checked_disagree (f : State → State) (s : State) : checked false f s = devFault (devRep 0x45 0 0) s :=
  if_neg Bool.false_ne_true

/-- Whatever its checks find, a wake records its cause, and leads to SAFE-HOLD or to a cast-on. -/
theorem wake_recorded {s : State} (h : Wakeable s) (cause : BitVec 3) (w : WakeEnv) :
    (wake cause w s).pwr.wakeCause = wakeCode cause w s ∧
      ((wake cause w s).sys.runState = .safeHold ∨ (wake cause w s).sys.clockWait = true) := by
  have noted : (waking (wakeCode cause w s) w s).pwr.wakeCause = wakeCode cause w s := rfl
  cases hp : wakePasses w s with
  | true =>
    have woken := wake_passed h hp cause
    refine ⟨?_, .inl woken.runState⟩
    rw [woken.pwr]
    exact noted
  | false =>
    rw [wake_failed h hp, resetDevice_wakeCause, noted]
    exact ⟨rfl, .inr (resetDevice_held ..).2.1⟩

/-- Entry with no source active, and its events. -/
theorem noting_enterDormant_sleeps {s : State} (h : activeSource s = none) : Dormant s (noting enterDormant s.takeFree.2) :=
  (noting_fab ..).dormant (enterDormant_sleeps h)

/-- Entry with a source active, and its events. -/
theorem noting_enterDormant_wakes {s : State} {q : BitVec 3 × WakeEnv} (h : activeSource s = some q) (hg : s.pwr.good = true)
    (hr : s.pwr.resetN = false) :
    let u := noting enterDormant s.takeFree.2
    u.pwr.wakeCause = wakeCode q.1 q.2 s ∧ (u.sys.runState = .safeHold ∨ u.sys.clockWait = true) := by
  have entered := dormantEnter_takeFree s
  have fab := noting_fab enterDormant s.takeFree.2
  obtain ⟨cause, ends⟩ := wake_recorded (entered.wakeable hg hr) q.1 q.2
  have code : wakeCode q.1 q.2 (dormantEnter s.takeFree.2) = wakeCode q.1 q.2 s :=
    wakeCode_congr (by rw [entered.pwr]; rfl) (by rw [entered.pwr]; rfl) ..
  rw [enterDormant_wakes h] at fab
  dsimp only
  rw [fab.pwr, fab.sys, cause, code]
  exact ⟨rfl, ends⟩

/-- The rows of the two sources that need no enabling. -/
theorem exec_level_wakes {w : WakeEnv} {s : State} (hw : w.ends = false) (hr : s.sys.runState = .dormant) :
    ∀ q ∈ [((1 : BitVec 3), Instr.wakePin w), (5, .k32Lost w)],
      ∃ u on run drift, exec q.2 s = .next u ∧ Wakes q.1 w (sourced on run drift s) u := by
  intro q hq
  rcases List.mem_pair.mp hq with rfl | rfl
  · obtain ⟨u, row, wakes⟩ := exec_wakePin_wakes hw s
    exact ⟨u, _, _, _, row, wakes⟩
  · obtain ⟨u, row, wakes⟩ := exec_k32Lost_wakes hw hr
    exact ⟨u, _, _, _, row, wakes⟩

/-- Settles O45: entry by the state it leads to, each source by the wake it makes, and a wake by whether its checks pass. -/
theorem dormancy : Obligations.Dormancy := by
  intro w d s
  refine ⟨fun hs he hr => ?_, exec_dormantEntry_idle, fun hw => ?_, fun c => wakeCode_lowest c w s, fun hr hg hn hw => ?_,
    exec_wakeTimer_early, fun h => ⟨exec_wakeTimer_elsewhere h w, exec_retentionSupplyDip_elsewhere h d⟩⟩
  · have due : EntryDue s := ⟨hs, he, hr⟩
    refine ⟨fun hb => ?_, fun r => exec_dormantEntry_barred due⟩
    cases hd : closeFails (Config.writeEnv s.fresh).agree s with
    | true =>
      refine ⟨_, exec_dormantEntry_differs due hb hd, fun _ live => ?_, fun h => (by cases h), fun _ h => (by cases h)⟩
      obtain ⟨locked, -, mem, -⟩ := noting_devFault (f := checked false id) (s := s.takeFree.2) (checked_disagree ..) live
      exact ⟨locked, mem⟩
    | false =>
      refine ⟨_, exec_dormantEntry_enters due hb hd, fun h => (by cases h), fun _ ha => ?_,
        fun q _ ha hg hn => noting_enterDormant_wakes ha hg hn⟩
      obtain ⟨t, runState, sleeping, pwr, held, closed, swa, own, shared, keyStore, otp⟩ := noting_enterDormant_sleeps ha
      refine ⟨runState, sleeping, ?_, ?_, ?_, ?_, held, fun k => ⟨closed k, swa k⟩, own, shared, keyStore, ?_, ?_, otp⟩
      · rw [t]
      · rw [t]
      · rw [pwr]; rfl
      · rw [pwr]; rfl
      · exact congrArg PwrS.bankSums pwr
      · rw [pwr]; rfl
  · have still (cause : BitVec 3) : noting (wakeSource cause w) s = levelled (Fin.ofNat 6 cause.toNat) w s :=
      noting_wakeSource_still (hw.imp_right .inl)
    refine ⟨congrArg Host.Outcome.next (still 1), congrArg Host.Outcome.next (still 4), fun h => exec_k32Lost_ends h s, fun h => ?_⟩
    have elsewhere : s.sys.runState ≠ .dormant := hw.resolve_left (by rw [h]; decide)
    obtain ⟨u, run, fab⟩ := exec_k32Lost_elsewhere h elsewhere
    exact ⟨u, run, fab.pwr, fab.sys, fab.mem, fab.hld, fab.sout⟩
  · have wakeable : Wakeable s := ⟨hr, hg, hn⟩
    refine ⟨fun q hq => ?_, fun hp h0 ht hd => ?_, fun hp h2 => ?_, fun h2 => ?_, exec_retentionSupplyDip hr d⟩
    · obtain ⟨u, on, run, drift, row, wakes⟩ := exec_level_wakes hw hr q hq
      exact ⟨fun hp => ⟨u, row, wakes.passed wakeable hp⟩, fun hp => ⟨u, row, wakes.failed wakeable hp⟩⟩
    · obtain ⟨u, run, wakes⟩ := exec_wakeTimer_wakes (w := w) (s := s) (timerDue_iff.mpr ⟨h0, ht, hd⟩)
      obtain ⟨runState, -, cause, -, -, -, -, mem, -⟩ := Wakes.passed (s := s) wakeable wakes hp
      exact ⟨u, run, runState, cause, mem⟩
    · obtain ⟨u, run, wakes⟩ := exec_canWake_wakes hw h2
      obtain ⟨runState, -, cause, -, -, -, -, mem, -⟩ := Wakes.passed (s := s) wakeable wakes hp
      exact ⟨u, run, runState, cause, mem⟩
    · have still := noting_wakeSource_still (w := w) (cause := 4) (.inr (.inr h2))
      rw [levelled_active hw] at still
      exact congrArg Host.Outcome.next still

end Sys2Proof.Machine
end

section
/-! PROOFS. What an instruction with nothing in its way comes to (file 04): it completes with one result, or it traps. -/

namespace Sys2Proof.Machine

/-! ## What the fabric leaves of a running task -/

theorem Fab.taskOf {s u : State} (h : Fab s u) (e : Fin 24) : taskOf u e = taskOf s e := by
  have hr : SameRegs s.eng.e[e] u.eng.e[e] := h.regs e.val e.isLt
  unfold Machine.taskOf
  rw [hr]

theorem Fab.rbank {s u : State} (h : Fab s u) (e : Fin 24) : rbank u e = rbank s e := by
  have hr : SameRegs s.eng.e[e] u.eng.e[e] := h.regs e.val e.isLt
  unfold Machine.rbank bankIsT
  rw [h.taskOf, hr]

theorem Fab.wGet {s u : State} (h : Fab s u) (e : Fin 24) : wGet u e = wGet s e := by
  funext r; unfold Machine.wGet; rw [h.rbank]

theorem Fab.pGet {s u : State} (h : Fab s u) (e : Fin 24) : pGet u e = pGet s e := by
  funext p; unfold Machine.pGet; rw [h.rbank]

theorem Fab.setW {s u : State} (h : Fab s u) (e : Fin 24) (d : WReg) (v : Word) : setW u e d v = setW s e d v := by
  funext r; unfold Machine.setW; rw [h.wGet]

theorem fetchReport_setW (i : Issue) (s : State) (e : Fin 24) (d : WReg) (v : Word) : setW (fetchReport i s) e d v = setW s e d v := by
  funext r; unfold setW; rw [fetchReport_wGet]

/-! ## Completion and traps -/

theorem fetchReport_purlPcOf (i : Issue) (s : State) (e : Fin 24) : purlPcOf (fetchReport i s) e = purlPcOf s e := by
  have h : (fetchReport i s).eng.e[e].purlPc = s.eng.e[e].purlPc := by rw [fetchReport_regs i s e]
  simp only [purlPcOf, fetchReport_taskOf, h]

/-- On a safety core with nothing in its way both passes stand at the same address after the fetch (R124). -/
theorem tslClear.purlPc {i : Issue} {word : Word} {lo hi : Nat} {rs : List WReg} {ps : List PReg} {s : State}
    (h : tslClear i word lo hi rs ps s) (ht : twin i.eng = true) :
    purlPcOf (fetchReport i s) i.eng = ~~~(pcOf (fetchReport i s) i.eng) := by
  obtain ⟨-, -, -, -, -, -, passes⟩ := h
  rw [fetchReport_purlPcOf, fetchReport_pcOf]
  exact (passes ht).2

/-- What TEST may still spend on an instruction, it may spend on its first step. -/
theorem testFull_one {i : Issue} {n : Nat} {s : State} (hn : 0 < n) (h : testFull s i.eng (stepsOf i n n) = false) :
    testFull s i.eng (stepsOf i 1 1) = false := by
  have fewer : stepsOf i 1 1 ≤ stepsOf i n n := by
    unfold stepsOf
    exact Nat.mul_le_mul_left _ (by omega)
  simp only [testFull, Bool.and_eq_false_iff, decide_eq_false_iff_not, not_lt] at h ⊢
  exact h.imp_right fun room => by omega

section
variable {row : Instr} {word : Word} {i : Issue} {n : Nat} {rs : List WReg} {ps : List PReg} {work : Work} {s b : State}
  {cmp : List Field} {d : WReg} {v : Word}

theorem exec_completes (hx : exec row s = run word i n n rs ps work s) (h : tslClear i word n n rs ps s)
    (hb : work ⟨wGet s i.eng, pGet s i.eng⟩ (purlRegs s i.eng) (fetchReport i s) = .ok b none cmp)
    (hc : twin i.eng = true → ∀ f ∈ cmp, f.off = false) :
    exec row s = .next (complete i.eng (taskOf s i.eng) (pcOf s i.eng) (stepsOf i n n) none b) :=
  hx.trans (congrArg Host.Outcome.next (tsl_clear h hb hc (by simp)))

theorem exec_traps {c : Cause} (hx : exec row s = run word i n n rs ps work s) (h : tslClear i word n n rs ps s) (hn : 0 < n)
    (hb : work ⟨wGet s i.eng, pGet s i.eng⟩ (purlRegs s i.eng) (fetchReport i s) = .trap c) (hc : c ≠ .illegal) :
    exec row s = .next (trapNow i.eng c (stepsOf i n n) (fetchReport i s)) := by
  have full : testFull s i.eng (stepsOf i n n) = false := by obtain ⟨-, -, -, -, -, full, -⟩ := h; exact full
  have trap := tsl_trap h hb (testFull_one hn full)
  rw [if_neg hc] at trap
  exact hx.trans (congrArg Host.Outcome.next trap)

/-- An instruction whose work leaves `b` and writes W[d]. -/
theorem givesW_of_ok (hx : exec row s = run word i n n rs ps work s) (h : tslClear i word n n rs ps s)
    (hb : work ⟨wGet s i.eng, pGet s i.eng⟩ (purlRegs s i.eng) (fetchReport i s) = .ok (wPut i.eng d v b) none cmp)
    (hc : twin i.eng = true → ∀ f ∈ cmp, f.off = false) (ht : taskOf b i.eng = taskOf s i.eng) :
    givesW row i (stepsOf i n n) d v b s := by
  refine ⟨_, exec_completes hx h hb hc, ?_⟩
  rw [← ht]
  exact ran_wPut i _ (pcOf s i.eng) none d v b

/-- An instruction whose work leaves `b` and writes no register. -/
theorem givesN_of_ok (hx : exec row s = run word i n n rs ps work s) (h : tslClear i word n n rs ps s)
    (hb : work ⟨wGet s i.eng, pGet s i.eng⟩ (purlRegs s i.eng) (fetchReport i s) = .ok b none cmp)
    (hc : twin i.eng = true → ∀ f ∈ cmp, f.off = false) (ht : taskOf b i.eng = taskOf s i.eng) :
    givesN row i (stepsOf i n n) (nextPc s i) b s := by
  refine ⟨_, exec_completes hx h hb hc, ?_⟩
  rw [← ht]
  exact ran_none i _ (pcOf s i.eng) none b

/-- An instruction that forms W[d] in both passes: the passes agree on what it forms, and that is `v`. -/
theorem givesW_of_putW {w pw : Word} (hx : exec row s = run word i n n rs ps work s) (h : tslClear i word n n rs ps s)
    (hb : work ⟨wGet s i.eng, pGet s i.eng⟩ (purlRegs s i.eng) (fetchReport i s) = putW i.eng d w pw (fetchReport i s))
    (agree : pw = ~~~w) (value : w = v) : givesW row i (stepsOf i n n) d v (fetchReport i s) s := by
  subst value
  exact givesW_of_ok hx h hb (fun _ => laneReg_agrees agree) (fetchReport_taskOf i s i.eng)

/-- An instruction that samples `v` for W[d] in the knit pass and leaves `b` (R128). -/
theorem givesW_of_replay {w : Word} (hx : exec row s = run word i n n rs ps work s) (h : tslClear i word n n rs ps s)
    (hb : work ⟨wGet s i.eng, pGet s i.eng⟩ (purlRegs s i.eng) (fetchReport i s) = replay i.eng d w (fetchReport i s) b)
    (value : w = v) (ht : taskOf b i.eng = taskOf s i.eng) : givesW row i (stepsOf i n n) d v b s := by
  subst value
  refine givesW_of_ok hx h hb (fun twin f hf => ?_) ht
  rcases List.mem_append.mp hf with hf | hf
  · exact laneSample_agrees (fetchReport_samples i s) f hf
  · exact lanePort_agrees (h.purlPc twin) f hf

end

end Sys2Proof.Machine
end

section
/-! PROOFS. The integer instructions (O1, O2): what their values come to in the words of Tables 4-2 to 4-4, and CLZ by halves. -/

namespace Sys2Proof.Machine

/-! ## Values in the words of Tables 4-2 to 4-4 -/

theorem rol_eq {n : Nat} (x : Word) (h : n < 32) : rol x n = (x <<< n) ||| (x >>> (32 - n)) := by
  rw [rol, BitVec.rotateLeft_def, Nat.mod_eq_of_lt h]

theorem minS_eq (x y : Word) : minS x y = BitVec.ofInt 32 (min x.toInt y.toInt) := by
  rw [min_def_lt, apply_ite (BitVec.ofInt 32), BitVec.ofInt_toInt, BitVec.ofInt_toInt]
  simp only [minS, BitVec.slt_iff_toInt_lt]

theorem maxS_eq (x y : Word) : maxS x y = BitVec.ofInt 32 (max x.toInt y.toInt) := by
  rw [max_comm, max_def_lt, apply_ite (BitVec.ofInt 32), BitVec.ofInt_toInt, BitVec.ofInt_toInt]
  simp only [maxS, BitVec.slt_iff_toInt_lt]

theorem minU_eq (x y : Word) : minU x y = BitVec.ofNat 32 (min x.toNat y.toNat) := by
  rw [min_def_lt, apply_ite (BitVec.ofNat 32), BitVec.ofNat_toNat, BitVec.ofNat_toNat]
  simp only [minU, BitVec.ult_iff_toNat_lt, BitVec.setWidth_eq]

theorem maxU_eq (x y : Word) : maxU x y = BitVec.ofNat 32 (max x.toNat y.toNat) := by
  rw [max_comm, max_def_lt, apply_ite (BitVec.ofNat 32), BitVec.ofNat_toNat, BitVec.ofNat_toNat]
  simp only [maxU, BitVec.ult_iff_toNat_lt, BitVec.setWidth_eq]

/-- Saturation clamps to the range of a signed word. -/
theorem satS_eq (x : Int) : satS x = BitVec.ofInt 32 (max (-2147483648) (min 2147483647 x)) := by
  unfold satS
  split
  next low => rw [max_eq_left (by omega)]; rfl
  next above =>
    split
    next high => rw [min_eq_left (by omega)]; rfl
    next below => rw [min_eq_right (by omega), max_eq_right (by omega)]

/-- The immediate of LUI stands above 16 bits of 0. -/
theorem lui_eq (imm : Half) : imm.zeroExtend 32 <<< 16 = imm ++ (0 : Half) := (append_zero 16 16 imm).symm

/-- SHI by its kind, in the words of Table 3-9. -/
theorem shiftKind_eq (k : BitVec 2) (n : BitVec 5) (x : Word) : shiftKind k n.toNat x =
    if k = 0 then x <<< n.toNat else if k = 1 then x >>> n.toNat else if k = 2 then x.sshiftRight n.toNat
      else (x <<< n.toNat) ||| (x >>> (32 - n.toNat)) := by
  rw [shiftKind, rol_eq x n.isLt]
  rfl

/-- The upper word of a number as 64 bits hold it. -/
theorem extractLsb'_ofInt (z : Int) : (BitVec.ofInt 64 z).extractLsb' 32 32 = BitVec.ofInt 32 (z / 4294967296) := by
  apply BitVec.eq_of_toNat_eq
  rw [BitVec.extractLsb'_toNat, BitVec.toNat_ofInt, BitVec.toNat_ofInt, Nat.shiftRight_eq_div_pow]
  omega

/-- MULH: the upper word of the signed product. -/
theorem mulHi_eq (x y : Word) : mulHi x y = (BitVec.signExtend 64 x * BitVec.signExtend 64 y).extractLsb' 32 32 := by
  rw [BitVec.signExtend, BitVec.signExtend, ← BitVec.ofInt_mul, extractLsb'_ofInt]; rfl

/-- MULHU: the upper word of the unsigned product. -/
theorem mulHiU_eq (x y : Word) : mulHiU x y = (BitVec.zeroExtend 64 x * BitVec.zeroExtend 64 y).extractLsb' 32 32 := by
  have wide : ∀ z : Word, BitVec.zeroExtend 64 z = BitVec.ofInt 64 z.toNat := fun z => by
    rw [BitVec.ofInt_natCast]; exact (BitVec.ofNat_toNat ..).symm
  rw [wide, wide, ← BitVec.ofInt_mul, extractLsb'_ofInt]
  exact (BitVec.ofInt_natCast ..).symm

/-- The one quotient that does not fit into a signed word. -/
theorem divS_eq (x y : Word) :
    divS x y = if x = 0x80000000 ∧ y = 0xFFFFFFFF then 0x80000000 else BitVec.ofInt 32 (x.toInt.tdiv y.toInt) := by
  split
  next h => obtain ⟨rfl, rfl⟩ := h; decide
  next => rfl

theorem remS_eq (x y : Word) :
    remS x y = if x = 0x80000000 ∧ y = 0xFFFFFFFF then 0 else BitVec.ofInt 32 (x.toInt.tmod y.toInt) := by
  split
  next h => obtain ⟨rfl, rfl⟩ := h; decide
  next => rfl

theorem divU_eq (x y : Word) : divU x y = BitVec.ofNat 32 (x.toNat / y.toNat) := by
  rw [← BitVec.toNat_udiv, BitVec.ofNat_toNat, BitVec.setWidth_eq]; rfl

theorem remU_eq (x y : Word) : remU x y = BitVec.ofNat 32 (x.toNat % y.toNat) := by
  rw [← BitVec.toNat_umod, BitVec.ofNat_toNat, BitVec.setWidth_eq]; rfl

/-! ## CLZ by halves (Table 5-2) -/

/-- The upper `n` bits of `x` are 0, and no more. -/
def Leading (n : Nat) (x : Word) : Prop :=
  n ≤ 32 ∧ (∀ j < n, x.getLsbD (31 - j) = false) ∧ (n < 32 → x.getLsbD (31 - n) = true)

/-- CLZ finds the first bit that is 1. -/
theorem exists_leading (x : Word) : ∃ n, Leading n x ∧ clz x = BitVec.ofNat 32 n := by
  unfold clz
  cases hf : (List.range 32).find? fun i => x.getLsbD (31 - i) with
  | none =>
    rw [List.find?_range_eq_none] at hf
    exact ⟨32, ⟨le_refl _, fun j hj => by simpa using hf j hj, by simp⟩, rfl⟩
  | some n =>
    rw [List.find?_range_eq_some] at hf
    obtain ⟨one, mem, zeros⟩ := hf
    have hn : n < 32 := List.mem_range.mp mem
    exact ⟨n, ⟨hn.le, fun j hj => by simpa using zeros j hj, fun _ => one⟩, rfl⟩

theorem Leading.shift {n : Nat} {x : Word} (h : Leading n x) : x >>> (32 - n) = 0 := by
  obtain ⟨bound, zeros, -⟩ := h
  apply BitVec.eq_of_getLsbD_eq
  intro j hj
  rw [BitVec.getLsbD_ushiftRight, BitVec.ofNat_eq_ofNat, BitVec.getLsbD_zero]
  by_cases inside : 32 - n + j < 32
  · have z := zeros (31 - (32 - n + j)) (by omega)
    rwa [show 31 - (31 - (32 - n + j)) = 32 - n + j by omega] at z
  · exact BitVec.getLsbD_of_ge _ _ (by omega)

/-- The upper `k` bits of a word are all 1. -/
theorem topOnes_iff {k : Nat} (hk : k ≤ 32) (y : Word) :
    y >>> (32 - k) = BitVec.allOnes 32 >>> (32 - k) ↔ ∀ j < k, y.getLsbD (31 - j) = true := by
  constructor
  · intro h j hj
    have hb := congrArg (fun w : Word => w.getLsbD (k - 1 - j)) h
    have place : 32 - k + (k - 1 - j) = 31 - j := by omega
    simpa [-BitVec.reduceAllOnes, BitVec.getLsbD_ushiftRight, place, show 31 - j < 32 by omega] using hb
  · intro h
    apply BitVec.eq_of_getLsbD_eq
    intro j hj
    rw [BitVec.getLsbD_ushiftRight, BitVec.getLsbD_ushiftRight, BitVec.getLsbD_allOnes]
    by_cases inside : 32 - k + j < 32
    · have one := h (31 - (32 - k + j)) (by omega)
      rw [show 31 - (31 - (32 - k + j)) = 32 - k + j by omega] at one
      rw [one, decide_eq_true inside]
    · rw [decide_eq_false inside, BitVec.getLsbD_of_ge _ _ (by omega)]

/-- After a shift by `c` of its leading zeros, the complement of `x` begins with `k` ones where `x` has `k` zeros more. -/
theorem Leading.half {n c k : Nat} {x : Word} (h : Leading n x) (hc : c ≤ n) (hk : c + k ≤ 32) :
    (~~~x <<< c) >>> (32 - k) = BitVec.allOnes 32 >>> (32 - k) ↔ c + k ≤ n := by
  obtain ⟨bound, zeros, one⟩ := h
  have top : ∀ j < k, (~~~x <<< c).getLsbD (31 - j) = !x.getLsbD (31 - (c + j)) := fun j hj => by
    simp [show 31 - j < 32 by omega, show ¬ 31 - j < c by omega, show 31 - j - c = 31 - (c + j) by omega,
      show 31 - (c + j) < 32 by omega]
  rw [topOnes_iff (by omega)]
  constructor
  · intro ones
    by_contra few
    have bit := ones (n - c) (by omega)
    rw [top _ (by omega), show c + (n - c) = n by omega, one (by omega)] at bit
    cases bit
  · intro many j hj
    rw [top j hj, zeros _ (by omega)]; rfl

/-- What a step of the purl CLZ does with the count and the shifted operand. -/
def clzStep (p : Nat × Word) (k : Nat) : Nat × Word :=
  if p.2 >>> (32 - k) == BitVec.allOnes 32 >>> (32 - k) then (p.1 + k, p.2 <<< k) else p

theorem purlClz_eq (y : Word) : purlClz y =
    ~~~(BitVec.ofNat 32 (([16, 8, 4, 2, 1].foldl clzStep (0, y)).1 + if y == BitVec.allOnes 32 then 1 else 0)) := rfl

/-- The count falls short of the leading zeros, of which the halves reach 31 at most, by less than `m`; the operand is shifted by it. -/
def Counted (n m : Nat) (x : Word) (p : Nat × Word) : Prop :=
  p.1 ≤ min n 31 ∧ min n 31 < p.1 + m ∧ p.1 + m ≤ 32 ∧ p.2 = ~~~x <<< p.1

theorem Leading.step {n k : Nat} {x : Word} {p : Nat × Word} (h : Leading n x) (hp : Counted n (2 * k) x p) :
    Counted n k x (clzStep p k) := by
  obtain ⟨least, most, fits, shifted⟩ := hp
  have half := h.half (c := p.1) (k := k) (by omega) (by omega)
  rw [← shifted] at half
  unfold clzStep
  split
  next ones =>
    have more : p.1 + k ≤ n := half.mp (beq_iff_eq.mp ones)
    exact ⟨by dsimp only; omega, by dsimp only; omega, by dsimp only; omega, by rw [shifted, BitVec.shiftLeft_add]⟩
  next zero =>
    have few : ¬ p.1 + k ≤ n := fun more => zero (beq_iff_eq.mpr (half.mpr more))
    exact ⟨least, by omega, by omega, shifted⟩

/-- The complement of 0 is the one operand that the halves do not count through. -/
theorem Leading.allOnes_iff {n : Nat} {x : Word} (h : Leading n x) : ~~~x = BitVec.allOnes 32 ↔ n = 32 := by
  have bound := h.1
  have top := h.half (c := 0) (k := 32) (Nat.zero_le n) (le_refl 32)
  rw [Nat.sub_self, BitVec.shiftLeft_zero, BitVec.ushiftRight_zero, BitVec.ushiftRight_zero] at top
  rw [top]
  omega

/-- The halves of 16, 8, 4, 2 and 1 count the leading zeros, 31 at most, and the last step tells 32 from 31. -/
theorem purlClz_not (x : Word) : purlClz (~~~x) = ~~~(clz x) := by
  obtain ⟨n, lead, value⟩ := exists_leading x
  have bound := lead.1
  have start : Counted n (2 * 16) x (0, ~~~x) := ⟨Nat.zero_le _, by omega, by simp, by simp⟩
  obtain ⟨least, most, -⟩ := lead.step (k := 1) (lead.step (k := 2) (lead.step (k := 4) (lead.step (k := 8) (lead.step start))))
  have count : ([16, 8, 4, 2, 1].foldl clzStep (0, ~~~x)).1 = min n 31 := le_antisymm least (Nat.le_of_lt_succ most)
  rw [purlClz_eq, value, count]
  congr 2
  simp only [beq_iff_eq, lead.allOnes_iff]
  split <;> omega

/-! ## Register shifts in the purl pass (R100, R126) -/

theorem purlShl_purlCount (x y : Word) : purlShl (~~~x) (purlCount (~~~y)) = ~~~(shl x (shCount y)) := by
  rw [purlCount_not, purlShl_not]

theorem purlShr_purlCount (x y : Word) : purlShr (~~~x) (purlCount (~~~y)) = ~~~(shr x (shCount y)) := by
  rw [purlCount_not, purlShr_not]

theorem purlSar_purlCount (x y : Word) : purlSar (~~~x) (purlCount (~~~y)) = ~~~(sar x (shCount y)) := by
  rw [purlCount_not, purlSar_not]

theorem purlRol_purlCount (x y : Word) : purlRol (~~~x) (purlCount (~~~y)) = ~~~(rol x (shCount y)) := by
  rw [purlCount_not, purlRol_not]

/-! ## The obligations -/

/-- Settles O1: each instruction's passes agree, and its value is that of the tables. -/
theorem integerResults : Obligations.IntegerResults := by
  refine ⟨fun i d a b s => ⟨?_, ?_, ?_, ?_, ?_, ?_, ?_, ?_, ?_, ?_, ?_, ?_, ?_, ?_, ?_, ?_⟩,
    fun i d a b p s h => ?_, fun i d imm s h => ?_, fun i d a imm k n s => ⟨?_, ?_, ?_, ?_, ?_, ?_, ?_, ?_⟩⟩
  · exact fun h => givesW_of_putW rfl h rfl (purlAdd_not ..) rfl
  · exact fun h => givesW_of_putW rfl h rfl (purlSub_not ..) rfl
  · exact fun h => givesW_of_putW rfl h rfl (purlAnd_not ..) rfl
  · exact fun h => givesW_of_putW rfl h rfl (purlOr_not ..) rfl
  · exact fun h => givesW_of_putW rfl h rfl (purlXor_not ..) rfl
  · exact fun h => givesW_of_putW rfl h rfl (purlAndn_not ..) rfl
  · exact fun h => givesW_of_putW rfl h rfl (purlShl_purlCount ..) rfl
  · exact fun h => givesW_of_putW rfl h rfl (purlShr_purlCount ..) rfl
  · exact fun h => givesW_of_putW rfl h rfl (purlSar_purlCount ..) rfl
  · exact fun h => givesW_of_putW rfl h rfl (purlRol_purlCount ..) (rol_eq _ (Nat.mod_lt _ (by decide)))
  · exact fun h => givesW_of_putW rfl h rfl (purlMin_not ..) (minS_eq ..)
  · exact fun h => givesW_of_putW rfl h rfl (purlMax_not ..) (maxS_eq ..)
  · exact fun h => givesW_of_putW rfl h rfl (purlMinu_not ..) (minU_eq ..)
  · exact fun h => givesW_of_putW rfl h rfl (purlMaxu_not ..) (maxU_eq ..)
  · exact fun h => givesW_of_putW rfl h rfl (purlAdds_not ..) (satS_eq _)
  · exact fun h => givesW_of_putW rfl h rfl (purlSubs_not ..) (satS_eq _)
  · exact givesW_of_putW rfl h rfl (purlSel_not ..) rfl
  · exact givesW_of_putW rfl h rfl (purlLui_not imm) (lui_eq imm)
  · obtain ⟨z, lead, value⟩ := exists_leading (wGet s i.eng a)
    obtain ⟨bound, -, one⟩ := id lead
    exact ⟨z, bound, fun h => givesW_of_putW rfl h rfl (purlClz_not _) value, lead.shift, one⟩
  · exact fun h => givesW_of_putW rfl h rfl (purlSextb_not _) rfl
  · exact fun h => givesW_of_putW rfl h rfl (purlSexth_not _) rfl
  · exact fun h => givesW_of_putW rfl h rfl (purlAddi_not ..) rfl
  · exact fun h => givesW_of_putW rfl h rfl (purlAndi_not ..) rfl
  · exact fun h => givesW_of_putW rfl h rfl (purlOri_not ..) rfl
  · exact fun h => givesW_of_putW rfl h rfl (purlXori_not ..) rfl
  · exact fun h => givesW_of_putW rfl h rfl (purlShift_not ..) (shiftKind_eq k n _)

/-- Settles O2: each instruction's passes agree, and its value is that of Table 4-4; a divisor of 0 traps. -/
theorem mulDivResults : Obligations.MulDivResults := by
  refine fun i d a b s => ⟨?_, ?_, ?_, ?_, fun hy => ⟨?_, ?_, ?_, ?_⟩, fun hy => ⟨?_, ?_, ?_, ?_⟩⟩
  · exact fun h => givesW_of_putW rfl h rfl (purlMul_not ..) rfl
  · exact fun h => givesW_of_putW rfl h rfl (purlMulh_not ..) (mulHi_eq ..)
  · exact fun h => givesW_of_putW rfl h rfl (purlMulhu_not ..) (mulHiU_eq ..)
  · exact fun h => givesW_of_putW rfl h rfl (purlMulq_not ..) (satS_eq _)
  · exact fun h => givesW_of_putW rfl h (if_neg hy) (purlDivu_not hy) (divU_eq ..)
  · exact fun h => givesW_of_putW rfl h (if_neg hy) (purlRemu_not hy) (remU_eq ..)
  · exact fun h => givesW_of_putW rfl h (if_neg hy) (purlDiv_not ..) (divS_eq ..)
  · exact fun h => givesW_of_putW rfl h (if_neg hy) (purlRem_not ..) (remS_eq ..)
  all_goals exact fun h => exec_traps rfl h (by decide) (if_pos hy) (by decide)

end Sys2Proof.Machine
end

section
/-! PROOFS. The check-value instructions (O8): whom a unit serves, what an operation leaves of it, and each instruction. -/

namespace Sys2Proof.Machine

/-! ## Units -/

theorem fetchReport_units (i : Issue) (s : State) : (fetchReport i s).cvu.u = s.cvu.u := by
  have begun : (issue i.eng s).cvu.u = s.cvu.u := by unfold issue; split <;> rfl
  exact (fetchReport_fab i s).units.trans begun

theorem onUnit_fab (u : Fin 4) (f : Cvu → Cvu) (s : State) :
    Fab (s.onCvu fun x => { x with u := x.u.upd u f }) (onUnit u f s) := raiseIf_fab ..

theorem cvuTake_agreed (u : Fin 4) (absorbs : Cvu → Bool) (f : Cvu → Cvu) (s : State) :
    cvuTake u true absorbs f s = onUnit u f s := by simp [cvuTake, cvuCheck]

/-- A unit serves its owner alone (R114). -/
theorem unitOther_iff (i : Issue) (u : Fin 4) (s : State) :
    ((fetchReport i s).cvu.u[u].owner != i.eng.val) = true ↔ fld s.cvu.u[u].cfg 20 16 ≠ i.eng.val := by
  rw [fetchReport_units, bne_iff_ne]
  rfl

/-- Every operation but READ is barred from a unit that a DMA channel feeds too (R114). -/
theorem unitBar_iff (i : Issue) (u : Fin 4) (s : State) :
    ((fetchReport i s).cvu.u[u].owner != i.eng.val || (fetchReport i s).cvu.u[u].dmaFed) = true ↔
      fld s.cvu.u[u].cfg 20 16 ≠ i.eng.val ∨ bit s.cvu.u[u].cfg 3 = true := by
  rw [Bool.or_eq_true, unitOther_iff, fetchReport_units]
  rfl

section
variable {row : Instr} {word : Word} {i : Issue} {n : Nat} {u : Fin 4} {rs : List WReg} {ps : List PReg} {work : Work} {s : State}

/-- An operation whose implementations agree changes its unit; beside it only events follow. -/
theorem unit_of_ok {absorbs : Cvu → Bool} {f : Cvu → Cvu} {y : Cvu} {v pv : Word} (hx : exec row s = run word i n n rs ps work s)
    (h : tslClear i word n n rs ps s)
    (hb : work ⟨wGet s i.eng, pGet s i.eng⟩ (purlRegs s i.eng) (fetchReport i s) =
      .ok (noting (cvuTake u true absorbs f) (fetchReport i s)) none (portCmp (fetchReport i s) i.eng v pv))
    (agree : pv = ~~~v) (value : f s.cvu.u[u] = y) :
    ∃ g t, Fab ((fetchReport i s).onCvu fun z => { z with u := z.u.upd u fun _ => y }) g ∧ exec row s = .next t ∧
      Ran i (stepsOf i n n) (nextPc s i) (wGet s i.eng) (pGet s i.eng) g t := by
  have units : (fetchReport i s).cvu.u.upd u f = (fetchReport i s).cvu.u.upd u fun _ => y := by
    rw [← value, ← fetchReport_units i s]; rfl
  have fab : Fab ((fetchReport i s).onCvu fun z => { z with u := z.u.upd u fun _ => y })
      (noting (cvuTake u true absorbs f) (fetchReport i s)) := by
    have noted := noting_fab (cvuTake u true absorbs f) (fetchReport i s)
    rw [cvuTake_agreed] at noted
    simpa only [State.onCvu, units] using (onUnit_fab u f (fetchReport i s)).trans noted
  have task := (fab.taskOf i.eng).trans (fetchReport_taskOf i s i.eng)
  obtain ⟨t, exec_eq, ran⟩ := givesN_of_ok hx h hb (fun twin => portCmp_agrees (h.purlPc twin) agree) task
  refine ⟨_, t, fab, exec_eq, ran.congr (fun r => ?_) fun p => ?_⟩
  · rw [fab.wGet]; exact fetchReport_wGet i s i.eng r
  · rw [fab.pGet]; exact fetchReport_pGet i s i.eng p

end

/-- READ by the owner under agreement: the value that the unit shows, and at most events beside it (R349, R352). -/
theorem exec_cvuRead_owner {i : Issue} {d : WReg} {u : Fin 4} {s : State} (own : fld s.cvu.u[u].cfg 20 16 = i.eng.val)
    (h : tslClear i (encX 0x25 d 0 2 (BitVec.ofNat 12 u.val)) 1 1 [] [] s) :
    ∃ g t, Fab (fetchReport i s) g ∧ exec (.cvuRead i d u true) s = .next t ∧
      Ran i (stepsOf i 1 1) (nextPc s i) (setW s i.eng d (Cvu.read s.cvu.u[u])) (pGet s i.eng) g t := by
  have fab : Fab (fetchReport i s) (noting (cvuCheck u true) (fetchReport i s)) := noting_fab (cvuCheck u true) _
  have task := (fab.taskOf i.eng).trans (fetchReport_taskOf i s i.eng)
  have shown : Cvu.read (fetchReport i s).cvu.u[u] = Cvu.read s.cvu.u[u] := by rw [fetchReport_units]
  have free := mt (unitOther_iff i u s).mp (not_not_intro own)
  obtain ⟨t, exec_eq, ran⟩ := givesW_of_replay (row := .cvuRead i d u true) rfl h (if_neg free) shown task
  rw [fab.setW, fetchReport_setW, fab.pGet] at ran
  exact ⟨_, t, fab, exec_eq, ran.congr (fun _ => rfl) fun p => fetchReport_pGet i s i.eng p⟩

/-- Settles O8: the owner's operation changes its unit, READ samples the value that the unit shows, and PORT bars the rest. -/
theorem checkValueResults : Obligations.CheckValueResults := by
  refine fun i u a d s => ⟨fun own unfed => ?_, fun own h => ?_, fun other agree h => ?_, fun bar agree => ?_⟩
  · have free := mt (unitBar_iff i u s).mp (not_or.mpr ⟨not_not_intro own, Bool.eq_false_iff.mp unfed⟩)
    refine ⟨fun h => ?_, fun h => ?_, fun h => ?_, fun h => ?_⟩
    all_goals exact unit_of_ok rfl h (if_neg free) rfl rfl
  · exact exec_cvuRead_owner own h
  · exact exec_traps rfl h (by decide) (if_pos ((unitOther_iff i u s).mpr other)) (by decide)
  · have barred := (unitBar_iff i u s).mpr bar
    refine ⟨fun h => ?_, fun h => ?_, fun h => ?_, fun h => ?_⟩
    all_goals exact exec_traps rfl h (by decide) (if_pos barred) (by decide)

end Sys2Proof.Machine
end

section
/-! PROOFS. The timer and event instructions (O9): the captures that precede a read of the capture pair, what a lock reaches, and each
instruction. -/

namespace Sys2Proof.Machine

/-! ## Captures stay within the event fabric (R253 to R256) -/

theorem Fab.onTc (n : Fin 32) (f : TmrCh → TmrCh) (s : State) : Fab s (s.onTc n f) := Fab.onTmr _ s

theorem tmrEvent_fab (n : Fin 32) (b : Nat) (s : State) : Fab s (tmrEvent n b s) := by
  unfold tmrEvent
  split
  · exact (Fab.onTc ..).trans (raise_fab ..)
  · exact Fab.refl s

theorem captureAs_fab (n : Fin 32) (falling : Bool) (v : Nat) (s : State) : Fab s (captureAs n falling v s) := by
  have one : ∀ (k : Fin 32) (b : Nat) (f : TmrCh → TmrCh) (s : State), Fab s (tmrEvent k b (s.onTc k f)) :=
    fun k b f s => (Fab.onTc k f s).trans (tmrEvent_fab ..)
  unfold captureAs
  dsimp only
  split
  · exact Fab.refl s
  · split
    · exact (one ..).trans (one ..)
    · exact one ..

theorem captureDue_fab (n : Fin 32) (falling : Bool) (lag : Nat) (s : State) : Fab s (captureDue n falling lag s) := by
  unfold captureDue
  split
  · split
    · exact (Fab.onTc ..).trans (captureAs_fab ..)
    · exact Fab.refl s
  · exact Fab.refl s

theorem captureEach_fab (n : Fin 32) (lag k : Nat) (s : State) : Fab s (captureEach n lag k s) := by
  induction k generalizing s with
  | zero => exact Fab.refl s
  | succ k ih => exact ((captureDue_fab ..).trans (captureDue_fab ..)).trans (ih _)

theorem captures_fab (n : Fin 32) (s : State) : Fab s (captures n s) :=
  (((captureEach_fab ..).trans (Fab.onTmr _ _)).trans (each_fab _ _ (fun _ s => captureAs_fab _ _ _ s) _)).trans (captureEach_fab ..)

theorem noting_captures_fab (n : Fin 32) (s : State) : Fab s (noting (captures n) s) :=
  (captures_fab n s).trans (noting_fab (captures n) s)

/-! ## What a lock and a write of CMP reach -/

/-- An entry after a rewrite, in terms of the entry before. -/
theorem upd_entry {α : Type} {n : Nat} (t : Tab α n) (i : Fin n) (f : α → α) (k : Nat) (hk : k < n) :
    (t.upd i f)[k] = if k = i.val then f t[k] else t[k] := by
  rw [Tab.upd_get]
  by_cases at_i : k = i.val
  · subst at_i; simp
  · rw [if_neg at_i, if_neg (Ne.symm at_i)]

/-- A lock or unlock by channel `n` reaches it unless it is an odd half, and with an even half the odd one (R249). -/
theorem onLock_eq (n : Fin 32) (f : TmrCh → TmrCh) (s : State) :
    onLock n f s = s.onTmr fun x => { x with
      ch := Tab.gen 32 fun m =>
        if m = n ∧ oddHalf x n = false ∨ m.val = n.val + 1 ∧ n.val % 2 = 0 ∧ linked x n = true then f x.ch[m] else x.ch[m] } := by
  have table : ∀ ch ch' : Tab TmrCh 32, (∀ (k : Nat) (hk : k < 32), ch[k] = ch'[k]) →
      s.onTmr (fun x => { x with ch := ch }) = s.onTmr fun x => { x with ch := ch' } :=
    fun ch ch' h => congrArg (fun ch => s.onTmr fun x => { x with ch := ch }) (Vector.ext h)
  unfold onLock oddHalf
  cases hl : linked s.tmr n with
  | false =>
    refine table (s.tmr.ch.upd n f) _ fun k hk => ?_
    simp [upd_entry, hl, Fin.ext_iff, -Tab.upd_get]
  | true =>
    rcases Nat.mod_two_eq_zero_or_one n.val with even | odd
    · rw [even]
      refine table ((s.tmr.ch.upd n f).upd (oddCh n) f) _ fun k hk => ?_
      have odd_half : (oddCh n).val = n.val + 1 := by simp [oddCh, even]
      by_cases at_n : k = n.val <;> simp [upd_entry, hl, at_n, odd_half, Fin.ext_iff, -Tab.upd_get]
    · rw [odd]
      refine table s.tmr.ch _ fun k hk => ?_
      simp [hl]

theorem writeCmp_eng (n : Fin 32) (v : Word) (s : State) : (writeCmp n v s).eng = s.eng := by
  unfold writeCmp
  dsimp only
  split_ifs <;> rfl

/-! ## An instruction that completes with its task ended -/

theorem complete_mem (e : Fin 24) (t : Fin 16) (pc : Word) (n : Nat) (hop : Option Hop) (b : State) :
    (complete e t pc n hop b).mem = b.mem := by
  unfold complete spend
  dsimp only
  split <;> rfl

theorem onE_engine (e : Fin 24) (f : Engine → Engine) (s : State) : (s.onE e f).eng.e[e] = f s.eng.e[e] := by
  simp [State.onE, State.onEng]

/-- A change of the engine that leaves its running task. -/
theorem onE_taskOf {e : Fin 24} {f : Engine → Engine} {s : State} (h : (f s.eng.e[e]).task = s.eng.e[e].task) :
    taskOf (s.onE e f) e = taskOf s e := by
  rw [taskOf, onE_engine, h]; rfl

theorem complete_engine (e : Fin 24) (t : Fin 16) (pc : Word) (n : Nat) (hop : Option Hop) (b : State) :
    ∃ purl steps, (complete e t pc n hop b).eng.e[e] =
      { b.eng.e[e] with pc := b.eng.e[e].pc.upd t fun _ => nextAddr pc hop, purlPc := purl, steps := steps } := by
  unfold complete spend
  dsimp only
  split <;> exact ⟨_, _, (onE_engine ..).trans (by rw [onE_engine])⟩

theorem onE_congr {e : Fin 24} {f g : Engine → Engine} {s : State} (h : f s.eng.e[e] = g s.eng.e[e]) : s.onE e f = s.onE e g := by
  simp only [State.onE, State.onEng, Tab.upd, h]

theorem fetchReport_mem (i : Issue) (s : State) : (fetchReport i s).mem = s.mem := by
  have begun : (issue i.eng s).mem = s.mem := by unfold issue; split <;> rfl
  exact (fetchReport_fab i s).mem.trans begun

/-- The running task `t` waits for an event and leaves the engine free (R117). -/
def Engine.awaits (t : Fin 16) (ev : BitVec 7) (x : Engine) : Engine :=
  { x with waiting := x.waiting.upd t fun _ => some ev, task := none }

/-- What EVWAIT of the running task `t` does to its engine: it takes a flag that is pending, and otherwise waits. -/
def Engine.evwait (t : Fin 16) (ev : BitVec 7) (x : Engine) : Engine :=
  if bit x.flags ev.toNat then { x with flags := setBit x.flags ev.toNat false } else x.awaits t ev

/-! ## The rows -/

section
variable {i : Issue} {d a : WReg} {n : Fin 32} {ev : BitVec 7} {s : State}

/-- The state that a read of the capture pair sees: the captures of its tick have been made (R116, Table 9-3). -/
def capSeen (i : Issue) (n : Fin 32) (s : State) : State := noting (captures n) (fetchReport i s)

theorem capSeen_taskOf (i : Issue) (n : Fin 32) (s : State) : taskOf (capSeen i n s) i.eng = taskOf s i.eng :=
  ((noting_captures_fab n (fetchReport i s)).taskOf i.eng).trans (fetchReport_taskOf i s i.eng)

theorem onLock_taskOf (n : Fin 32) (f : TmrCh → TmrCh) (s : State) (e : Fin 24) : taskOf (onLock n f s) e = taskOf s e := by
  rw [onLock_eq]; rfl

theorem exec_rdcapr_owner (h : tslClear i (encX 0x26 d 0 4 (BitVec.ofNat 12 n.val)) 1 1 [] [] s)
    (own : tmrOwner (fetchReport i s).tmr n = i.eng.val) :
    givesW (.rdcapr i d n) i (stepsOf i 1 1) d (capSeen i n s).tmr.ch[n].capr
      (onLock n (fun c => { c with lock := true }) ((capSeen i n s).onTc n fun c => { c with caprf := false })) s :=
  givesW_of_replay rfl h (if_pos (beq_iff_eq.mpr own)) rfl ((onLock_taskOf ..).trans (capSeen_taskOf i n s))

/-- RDCAPF of a pair that is locked or not, as the read finds it. -/
theorem exec_rdcapf_owner (h : tslClear i (encX 0x26 d 0 5 (BitVec.ofNat 12 n.val)) 1 1 [] [] s)
    (own : tmrOwner (fetchReport i s).tmr n = i.eng.val) :
    givesW (.rdcapf i d n) i (stepsOf i 1 1) d (capSeen i n s).tmr.ch[n].capf
      (if (capSeen i n s).tmr.ch[n].lock then onLock n TmrCh.unlock ((capSeen i n s).onTc n fun c => { c with capff := false })
        else capSeen i n s) s := by
  refine givesW_of_replay rfl h (if_pos (beq_iff_eq.mpr own)) rfl ?_
  split
  · exact (onLock_taskOf ..).trans (capSeen_taskOf i n s)
  · exact capSeen_taskOf i n s

theorem exec_wrcmp_owner (h : tslClear i (encX 0x26 0 a 3 (BitVec.ofNat 12 n.val)) 1 1 [a] [] s) (single : twin i.eng = false)
    (own : tmrOwner (fetchReport i s).tmr n = i.eng.val) :
    givesN (.wrcmp i n a) i (stepsOf i 1 1) (nextPc s i) (writeCmp n (wGet s i.eng a) (fetchReport i s)) s := by
  refine givesN_of_ok (cmp := []) rfl h ((if_neg (Bool.eq_false_iff.mp single)).trans (if_pos (beq_iff_eq.mpr own))) (by simp) ?_
  rw [taskOf, writeCmp_eng]
  exact fetchReport_taskOf i s i.eng

theorem exec_evclr_single (h : tslClear i (encX 0x27 0 0 3 ((0 : BitVec 5) ++ ev)) 1 1 [] [] s) (single : twin i.eng = false) :
    givesN (.evclr i ev) i (stepsOf i 1 1) (nextPc s i)
      ((fetchReport i s).onE i.eng fun x => { x with flags := setBit x.flags ev.toNat false }) s :=
  givesN_of_ok (cmp := []) rfl h (if_neg (Bool.eq_false_iff.mp single)) (by simp)
    ((onE_taskOf rfl).trans (fetchReport_taskOf i s i.eng))

/-- EVWAIT takes a flag that is pending (R117). -/
theorem exec_evwait_pending (h : tslClear i (encX 0x27 0 0 1 ((0 : BitVec 5) ++ ev)) 1 1 [] [] s) (single : twin i.eng = false)
    (pending : bit (fetchReport i s).eng.e[i.eng].flags ev.toNat = true) :
    givesN (.evwait i ev) i (stepsOf i 1 1) (nextPc s i)
      ((fetchReport i s).onE i.eng fun x => { x with flags := setBit x.flags ev.toNat false }) s :=
  givesN_of_ok (cmp := []) rfl h ((if_neg (Bool.eq_false_iff.mp single)).trans (congrArg okay (onE_congr (if_pos pending)))) (by simp)
    ((onE_taskOf rfl).trans (fetchReport_taskOf i s i.eng))

/-- EVWAIT of a flag that is not pending leaves the engine free, and the task waits behind the instruction (R117). -/
theorem exec_evwait_waits (h : tslClear i (encX 0x27 0 0 1 ((0 : BitVec 5) ++ ev)) 1 1 [] [] s) (single : twin i.eng = false)
    (idle : bit (fetchReport i s).eng.e[i.eng].flags ev.toNat = false) :
    ∃ u purl steps, exec (.evwait i ev) s = .next u ∧ u.mem = s.mem ∧ u.eng.e[i.eng] =
      { (fetchReport i s).eng.e[i.eng].awaits (taskOf s i.eng) ev with
        pc := (fetchReport i s).eng.e[i.eng].pc.upd (taskOf s i.eng) fun _ => nextPc s i, purlPc := purl, steps := steps } := by
  have waits : (fetchReport i s).onE i.eng (Engine.evwait (taskOf (fetchReport i s) i.eng) ev) =
      (fetchReport i s).onE i.eng (Engine.awaits (taskOf (fetchReport i s) i.eng) ev) := onE_congr (if_neg (Bool.eq_false_iff.mp idle))
  have done := exec_completes (row := .evwait i ev) (cmp := []) rfl h
    ((if_neg (Bool.eq_false_iff.mp single)).trans (congrArg okay waits)) (by simp)
  rw [fetchReport_taskOf] at done
  obtain ⟨purl, steps, engine⟩ := complete_engine i.eng (taskOf s i.eng) (pcOf s i.eng) (stepsOf i 1 1) none
    ((fetchReport i s).onE i.eng (Engine.awaits (taskOf s i.eng) ev))
  rw [onE_engine] at engine
  exact ⟨_, purl, steps, done, (complete_mem ..).trans (fetchReport_mem i s), engine⟩

end

/-- Settles O9: the owner's reads sample what the channel shows and leave it as the row says, PORT bars every other engine, and the
event instructions act on the flags of a single-pass engine alone. -/
theorem timerInstructions : Obligations.TimerInstructions := by
  refine ⟨fun i d a n g s => ⟨fun own => ?_, fun other => ?_, fun h => ⟨fun own => ?_, fun other => ?_⟩,
    fun h => ⟨fun ht => ?_, fun ht own => ?_, fun ht other => ?_⟩⟩,
    fun i d k ev s => ⟨fun h => ?_, fun ht => ⟨fun h => ?_, fun h => ?_⟩,
      fun ht => ⟨fun h => ?_, fun h => ⟨fun hp => ?_, fun hp => ?_⟩⟩⟩⟩
  · have task := fetchReport_taskOf i s i.eng
    have mine := beq_iff_eq.mpr own
    refine ⟨fun h => ?_, fun h => ?_, fun locked h => ?_, fun free h => ?_, fun h => ?_⟩
    · exact givesW_of_replay rfl h (if_pos mine) rfl task
    · have reads := exec_rdcapr_owner h own
      rw [onLock_eq] at reads
      exact reads
    · have reads := exec_rdcapf_owner h own
      rw [if_pos (show (capSeen i n s).tmr.ch[n].lock = true from locked), onLock_eq] at reads
      exact reads
    · have reads := exec_rdcapf_owner h own
      rw [if_neg (show ¬ (capSeen i n s).tmr.ch[n].lock = true from Bool.eq_false_iff.mp free)] at reads
      exact reads
    · exact givesW_of_replay rfl h (if_pos mine) rfl task
  · have barred := mt beq_iff_eq.mp other
    refine ⟨fun h => ?_, fun h => ?_, fun h => ?_, fun h => ?_⟩
    all_goals exact exec_traps rfl h (by decide) (if_neg barred) (by decide)
  · exact givesN_of_ok rfl h (if_pos (beq_iff_eq.mpr own)) (fun twin => lanePort_agrees (h.purlPc twin)) (fetchReport_taskOf i s i.eng)
  · exact exec_traps rfl h (by decide) (if_neg (mt beq_iff_eq.mp other)) (by decide)
  · exact exec_traps rfl h (by decide) (if_pos ht) (by decide)
  · exact exec_wrcmp_owner h ht own
  · exact exec_traps rfl h (by decide) ((if_neg (Bool.eq_false_iff.mp ht)).trans (if_neg (mt beq_iff_eq.mp other))) (by decide)
  · exact givesW_of_replay rfl h rfl rfl (fetchReport_taskOf i s i.eng)
  · exact exec_traps rfl h (by decide) (if_pos ht) (by decide)
  · exact exec_traps rfl h (by decide) (if_pos ht) (by decide)
  · exact exec_evclr_single h ht
  · exact exec_evwait_pending h ht hp
  · obtain ⟨u, purl, steps, done, mem, engine⟩ := exec_evwait_waits h ht hp
    refine ⟨u, done, ?_⟩
    rw [engine]
    simp [Engine.awaits, mem]

end Sys2Proof.Machine
end

section
/-! PROOFS. The tension loop and the clock check (O36): what an update and an emergency raise leave of the supplies, and what a clock
check notes. -/

namespace Sys2Proof.Machine

/-- A change of the supplies, with the events that follow, leaves the run state, the memories, both channels and timebase A. -/
theorem Fab.onPwr_rest {g : PwrS → PwrS} {s u : State} (h : Fab (s.onPwr g) u) :
    u.sys = s.sys ∧ u.mem = s.mem ∧ u.sin = s.sin ∧ u.sout = s.sout ∧ u.hld = s.hld ∧ u.t = s.t :=
  ⟨h.sys, h.mem, h.sin, h.sout, h.hld, h.t⟩

/-! ## The setpoint (R464) -/

theorem putSetpoint_setpoint (n : Nat) (p : PwrS) : (putSetpoint n p).setpoint.toNat = min 28 n := by
  have fits : min 28 n < 2 ^ 5 := by omega
  exact (BitVec.toNat_ofNat ..).trans (Nat.mod_eq_of_lt fits)

/-- The rate that the loop holds: TARGET, and at least 270 M steps/s (R464). -/
def tensionTarget (p : PwrS) : Nat := max 270 (fld p.tensionCfg 8 0)

section
variable {rate : BitVec 9} {p : PwrS} (sensor : BitVec 3)

theorem tensionStep_rises (free : p.raised = false) (low : rate.toNat < tensionTarget p) :
    (tensionStep rate sensor p).setpoint.toNat = min 28 (p.setpoint.toNat + 1) := by
  refine (putSetpoint_setpoint ..).trans (congrArg (min 28) ?_)
  exact (if_neg (by simp [free])).trans (if_pos low)

theorem tensionStep_holds (free : p.raised = false) (low : tensionTarget p ≤ rate.toNat) (high : rate.toNat ≤ tensionTarget p + 15) :
    (tensionStep rate sensor p).setpoint.toNat = min 28 p.setpoint.toNat ∧ (tensionStep rate sensor p).above = 0 := by
  have above : (tensionStep rate sensor p).above = 0 := if_neg (Nat.not_lt.mpr high)
  refine ⟨(putSetpoint_setpoint ..).trans (congrArg (min 28) ?_), above⟩
  have counts : ¬ (tensionStep rate sensor p).above = 8 := by rw [above]; decide
  exact (if_neg (by simp [free])).trans ((if_neg (Nat.not_lt.mpr low)).trans (if_neg counts))

theorem tensionStep_falls (free : p.raised = false) (high : tensionTarget p + 15 < rate.toNat) (seven : p.above = 7) :
    (tensionStep rate sensor p).setpoint.toNat = min 28 (p.setpoint.toNat - 1) := by
  have eighth : (tensionStep rate sensor p).above = 8 := (if_pos high).trans (by rw [seven]; decide)
  have low : ¬ rate.toNat < tensionTarget p := by omega
  refine (putSetpoint_setpoint ..).trans (congrArg (min 28) ?_)
  exact (if_neg (by simp [free])).trans ((if_neg low).trans (if_pos eighth))

end

/-! ## The rows of the loop (R464, R465, R142) -/

/-- The temperatures of both dies, as an update takes them. -/
def tempsTaken (proc hld : Byte) (p : PwrS) : PwrS := { p with tempProc := proc, tempHld := hld }

theorem exec_tensionUpdate_idle {s : State} (h : tensionRuns s = false) (rate : BitVec 9) (sensor : BitVec 3) (proc hld : Byte) :
    exec (.tensionUpdate rate sensor proc hld) s = .next (s.onPwr (tempsTaken proc hld)) := by
  exact congrArg Host.Outcome.next (if_pos (by simp [h]))

theorem exec_tensionUpdate_runs {s : State} (h : tensionRuns s = true) (rate : BitVec 9) (sensor : BitVec 3) (proc hld : Byte) :
    ∃ u, exec (.tensionUpdate rate sensor proc hld) s = .next u ∧
      Fab (s.onPwr fun p => tensionStep rate sensor (tempsTaken proc hld p)) u := by
  refine ⟨_, congrArg Host.Outcome.next (if_neg (by simp [h])), ?_⟩
  dsimp only
  split
  · exact raise_fab ..
  · exact Fab.refl _

/-- An emergency raise: two setpoint steps, counted, and the next update adds none (R142, R465). -/
def emergencyRaise (p : PwrS) : PwrS := putSetpoint (p.setpoint.toNat + 2) { p with emergency := satInc p.emergency, raised := true }

section
variable {rate : BitVec 9} {s : State} (c : Fin 4)

theorem exec_stepRateRaise_idle (h : tensionRuns s = false ∨ 260 ≤ rate.toNat) : exec (.stepRateRaise c rate) s = .next s := by
  refine congrArg Host.Outcome.next (if_pos ?_)
  rcases h with h | h <;> simp [h]

theorem exec_stepRateRaise_raises (runs : tensionRuns s = true) (low : rate.toNat < 260) (room : s.pwr.setpoint ≠ 28) :
    exec (.stepRateRaise c rate) s = .next (raise 125 (s.onPwr emergencyRaise)) :=
  congrArg Host.Outcome.next ((if_neg (by simp [runs, low])).trans (if_neg room))

theorem exec_stepRateRaise_atTop (runs : tensionRuns s = true) (low : rate.toNat < 260) (top : s.pwr.setpoint = 28) :
    exec (.stepRateRaise c rate) s = .next (noting (devFault (devRep 0x43 1 c.val)) s) :=
  congrArg Host.Outcome.next ((if_neg (by simp [runs, low])).trans (if_pos top))

end

/-! ## The clock check (R474, Table 14-3) -/

/-- Clock checks run: the device has its clocks, outside CAST-ON and DORMANT. -/
def clockChecked (s : State) : Prop :=
  s.pwr.good = true ∧ s.sys.clockWait = false ∧ s.sys.runState ≠ .dormant ∧ s.sys.runState ≠ .castOn

/-- What a check records of CK-32K. -/
def k32Taken (dev : Byte) (run : Bool) (p : PwrS) : PwrS :=
  { p with
    k32Run := run, k32Dev := dev, ck32Drift := !run || k32Off dev
    wakeOn := if run then p.wakeOn.upd 5 fun _ => none else p.wakeOn }

theorem when_fab {f : State → State} (hf : ∀ s, Fab s (f s)) (b : Bool) (s : State) : Fab s (when b f s) := by
  cases b
  · exact Fab.refl s
  · exact hf s

/-- A check records CK-32K and makes its reports; without PLL lock it is a device fault. -/
theorem clockCheck_notes (dev : Byte) (run : Bool) (s : State) : ∃ v, Fab (s.onPwr (k32Taken dev run)) v ∧
    clockCheck dev run s = if s.pwr.pllLock then v else lockoutEntry 0x49 v := by
  refine ⟨_, ?_, rfl⟩
  refine Fab.trans ?_ ((when_fab (report_fab _) _ _).trans (when_fab (report_fab _) _ _))
  exact when_fab (raise_fab 126) (s.pwr.k32Run != run || k32Off s.pwr.k32Dev != k32Off dev) (s.onPwr (k32Taken dev run))

theorem exec_clockCheck {s : State} (h : clockChecked s) (dev : Byte) (run : Bool) :
    exec (.clockCheck dev run) s = .next (noting (clockCheck dev run) s) := by
  obtain ⟨good, clocks, woken, past⟩ := h
  exact congrArg Host.Outcome.next (if_pos (by simp [good, clocks, woken, past]))

theorem exec_clockCheck_unchecked {s : State}
    (h : s.pwr.good = false ∨ s.sys.clockWait = true ∨ s.sys.runState = .dormant ∨ s.sys.runState = .castOn) (dev : Byte) (run : Bool) :
    exec (.clockCheck dev run) s = .next s := by
  refine congrArg Host.Outcome.next (if_neg ?_)
  rcases h with h | h | h | h <;> simp [h]

theorem noting_clockCheck_locked {s : State} (lock : s.pwr.pllLock = true) (dev : Byte) (run : Bool) :
    Fab (s.onPwr (k32Taken dev run)) (noting (clockCheck dev run) s) := by
  obtain ⟨v, fab, checked⟩ := clockCheck_notes dev run s
  rw [if_pos lock] at checked
  exact (checked ▸ fab).trans (noting_fab ..)

theorem noting_clockCheck_unlocked {s : State} (lock : s.pwr.pllLock = false) (live : s.live) (dev : Byte) (run : Bool) :
    lockedOut 0x49 (noting (clockCheck dev run) s) ∧ (noting (clockCheck dev run) s).mem = s.mem := by
  obtain ⟨v, fab, checked⟩ := clockCheck_notes dev run s
  rw [if_neg (by simp [lock])] at checked
  obtain ⟨locked, -, mem, -⟩ := lockoutEntry_lockedOut (s := v) (by rw [State.live, fab.sys]; exact live) 0x49
  have events := noting_fab (clockCheck dev run) s
  rw [checked] at events
  exact ⟨events.lockedOut locked, events.mem.trans (mem.trans fab.mem)⟩

/-- Settles O36: each row by its equation, an update by what its step makes of the setpoint. -/
theorem tensionAndClocks : Obligations.TensionAndClocks := by
  intro rate sensor proc hld dev run c s p t same
  refine ⟨?_, fun runs low => ⟨fun room => ?_, fun top live => ?_⟩, exec_stepRateRaise_idle c,
    fun good clocks woken past => ⟨fun lock => ?_, fun lock live => ?_⟩, fun h => exec_clockCheck_unchecked h dev run⟩
  · cases runs : tensionRuns s
    case false =>
      exact ⟨_, exec_tensionUpdate_idle runs rate sensor proc hld, (Fab.refl _).onPwr_rest, rfl, rfl, fun _ => rfl, nofun⟩
    case true =>
      obtain ⟨u, next, fab⟩ := exec_tensionUpdate_runs runs rate sensor proc hld
      have pwr : u.pwr = tensionStep rate sensor (tempsTaken proc hld p) := fab.pwr
      refine ⟨u, next, fab.onPwr_rest, ?_⟩
      rw [pwr]
      exact ⟨rfl, rfl, nofun, fun _ => ⟨rfl, rfl, tensionStep_rises sensor, tensionStep_holds sensor, tensionStep_falls sensor⟩⟩
  · have fab := raise_fab 125 (s.onPwr emergencyRaise)
    refine ⟨_, exec_stepRateRaise_raises c runs low room, fab.onPwr_rest, ?_, ?_⟩
    · rw [raise_pwr]; exact putSetpoint_setpoint ..
    · rw [raise_pwr]; rfl
  · obtain ⟨locked, -, mem, -⟩ := noting_devFault (f := devFault (devRep 0x43 1 c.val)) rfl live
    exact ⟨_, exec_stepRateRaise_atTop c runs low top, locked, mem⟩
  · have fab := noting_clockCheck_locked lock dev run
    refine ⟨_, exec_clockCheck ⟨good, clocks, woken, past⟩ dev run, fab.onPwr_rest, ?_, ?_, ?_⟩ <;> rw [fab.pwr] <;> rfl
  · exact ⟨_, exec_clockCheck ⟨good, clocks, woken, past⟩ dev run, noting_clockCheck_unlocked lock live dev run⟩

end Sys2Proof.Machine
end

section
/-! PROOFS. Connections and release inputs (O18): what an operation on one connection leaves alone, each decision as a change of that
connection, and the end of a release input's stuck state. -/
namespace Sys2Proof.Machine

/-! ## The connection of a pair (R191, R193) -/

theorem pairOf_evenIn (k : Fin 16) : pairOf (evenIn k) = k := Fin.ext (Nat.mul_div_cancel_left k.val (by decide))

theorem evenIn_even (k : Fin 16) : (evenIn k).val % 2 = 0 := Nat.mul_mod_right 2 k.val

theorem onPair_get (k j : Fin 16) (f : PairA → PairA) (s : State) :
    (s.onPair k f).sin.pair[j] = if k = j then f s.sin.pair[k] else s.sin.pair[j] := by
  simp [State.onPair, State.onSin, Fin.ext_iff]

/-- The even input names the two-input connection of its pair, or the first of two singles (R191). -/
theorem onConn_evenIn (k : Fin 16) (f : ConnA → ConnA) (s : State) :
    onConn (evenIn k) f s = s.onPair k fun p => { p with lo := f p.lo } := by
  simp [onConn, pairOf_evenIn, evenIn_even]

theorem onConn_evenIn_lo (k : Fin 16) (f : ConnA → ConnA) (s : State) :
    ((onConn (evenIn k) f s).sin.pair[k]).lo = f (s.sin.pair[k]).lo := by
  rw [onConn_evenIn, onPair_get, if_pos rfl]

theorem onConn_evenIn_two (k : Fin 16) (f : ConnA → ConnA) (s : State) :
    ((onConn (evenIn k) f s).sin.pair[k]).two = (s.sin.pair[k]).two := by
  rw [onConn_evenIn, onPair_get, if_pos rfl]; rfl

theorem onConn_i (n : Fin 32) (f : ConnA → ConnA) (s : State) : (onConn n f s).sin.i = s.sin.i := rfl

theorem connOf_evenIn (x : SinS) (k : Fin 16) : connOf x (evenIn k) = x.pair[k].lo := by
  simp [connOf, pairOf_evenIn, evenIn_even]

theorem two_conn {p : PairA} (h : p.two = true) : p.conn ≠ 0 ∧ p.conn ≠ 1 := by
  simp only [PairA.two, Bool.and_eq_true, decide_eq_true_eq] at h
  omega

theorem connInputs_evenIn {x : SinS} {k : Fin 16} (h : x.pair[k].two = true) : connInputs x (evenIn k) = [evenIn k, oddIn k] := by
  obtain ⟨h0, h1⟩ := two_conn h
  simp [connInputs, pairOf_evenIn, h0, h1, -Fin.getElem_fin]

theorem pairConns_two {x : SinS} {k : Fin 16} (h : x.pair[k].two = true) : pairConns x k = [evenIn k] := by
  obtain ⟨h0, h1⟩ := two_conn h
  simp [pairConns, h0, h1, -Fin.getElem_fin]

/-! ## What an operation on one connection leaves alone -/

/-- A step of the inputs that changes no pair but `k`, and no test-pulse source. -/
structure PairStep (k : Fin 16) (s u : State) : Prop extends StartStep s u where
  others : ∀ j : Fin 16, j ≠ k → u.sin.pair[j] = s.sin.pair[j]
  tp : u.sin.tp = s.sin.tp

section
variable {k : Fin 16} {s t u : State}

theorem PairStep.refl (k : Fin 16) (s : State) : PairStep k s s := ⟨StartStep.refl s, fun _ _ => rfl, rfl⟩

theorem PairStep.trans (h : PairStep k s t) (g : PairStep k t u) : PairStep k s u :=
  ⟨h.toStartStep.trans g.toStartStep, fun j hj => (g.others j hj).trans (h.others j hj), g.tp.trans h.tp⟩

theorem Fab.pairStep (h : Fab s u) : PairStep k s u := ⟨⟨h.inStep, h.hld⟩, fun _ _ => by rw [h.sin], by rw [h.sin]⟩

theorem PairStep.onPair (f : PairA → PairA) (s : State) : PairStep k s (s.onPair k f) :=
  ⟨⟨InStep.onPair k f s, rfl⟩, fun j hj => by rw [onPair_get, if_neg hj.symm], rfl⟩

theorem PairStep.onConn (f : ConnA → ConnA) (s : State) : PairStep k s (onConn (evenIn k) f s) := by
  rw [onConn_evenIn]; exact PairStep.onPair _ s

theorem each_pairStep {α : Type} {l : List α} {f : α → State → State} (hf : ∀ a s, PairStep k s (f a s)) (s : State) :
    PairStep k s (each l f s) :=
  each_keeps (P := PairStep k s) (fun a u h => h.trans (hf a u)) (PairStep.refl k s)

/-- A row that runs an operation on connection `k`: its events change no input, and its frame is that of the operation. -/
theorem PairStep.noted {f : State → State} (h : PairStep k s (f s)) : ∃ u, (Host.Outcome.next (noting f s) : Outc) = .next u ∧
    u.sin = (f s).sin ∧ (∀ j : Fin 16, j ≠ k → u.sin.pair[j] = s.sin.pair[j]) ∧ u.mem = s.mem ∧ u.sys = s.sys ∧ u.sout = s.sout ∧
    u.hld = s.hld ∧ u.sin.tp = s.sin.tp := by
  have noted := h.trans (noting_fab f s).pairStep
  exact ⟨_, rfl, (noting_fab f s).sin, noted.others, noted.mem, noted.sys, noted.sout, noted.hld, noted.tp⟩

end

/-! ## DISCREPANCY_TIMEOUT, GUARD_DELAY_END and BAND_WAIT_END (R195 to R197) -/

/-- A connection in an ordinary DISCREPANCY lockout (R197). -/
def ConnA.discLocked (c : ConnA) : ConnA :=
  { c with
    st := .locked, disc := true, band := false, guardPend := false, guardRun := false, clearRel := false, clearSafe := false }

/-- The record of a check that timed out: a free value for d (R195). -/
def timeoutRecorded (k : Fin 16) (s : State) : State :=
  s.takeFree.2.onPair k fun p =>
    { p with
      d01 := BitVec.ofNat 16 (min ((Config.freeWord s.fresh).toNat % 2 ^ 24 / 100) 0xFFFF)
      lastd := at_ ((Config.freeWord s.fresh).toNat % 2 ^ 24) 0 ||| flag true 24 ||| flag (s.sin.pair[k].lo.st == .waitOff) 27 }

section
variable {k : Fin 16} {s : State}

/-- The other input of the connection has a change in its filter that began by e1 + T (R195). -/
def changePending (k : Fin 16) (s : State) : Prop :=
  let p := s.sin.pair[k]
  let o := s.sin.i[if p.lo.firstB then evenIn k else oddIn k]
  o.running = true ∧ (p.lo.e1 + BitVec.ofNat 64 p.disc - o.edge).toNat < 2 ^ 63

theorem discTimeout_passed (two : s.sin.pair[k].two = true) (waits : s.sin.pair[k].lo.st = .waitOn ∨ s.sin.pair[k].lo.st = .waitOff)
    (free : s.sin.pair[k].lo.locked = false) (begun : come s s.sin.pair[k].lo.e1 = true)
    (late : s.sin.pair[k].disc < since s s.sin.pair[k].lo.e1) (still : ¬ changePending k s) : discTimeout k s =
    onConn (evenIn k) (fun c => { c with unclassed := true }) (discLock (evenIn k) (timeoutRecorded k s)) := by
  have waits' : (s.sin.pair[k].lo.st == .waitOn || s.sin.pair[k].lo.st == .waitOff) = true := by simpa using waits
  have still' : (s.sin.i[if s.sin.pair[k].lo.firstB then evenIn k else oddIn k].running &&
      decide ((s.sin.pair[k].lo.e1 + BitVec.ofNat 64 s.sin.pair[k].disc -
        s.sin.i[if s.sin.pair[k].lo.firstB then evenIn k else oddIn k].edge).toNat < 2 ^ 63)) = false := by
    rw [Bool.eq_false_iff, ne_eq, Bool.and_eq_true, decide_eq_true_eq]; exact still
  unfold discTimeout
  dsimp only
  rw [two, waits', free, begun, still', decide_eq_true late]
  rfl

theorem timeoutRecorded_step (k : Fin 16) (s : State) : PairStep k s (timeoutRecorded k s) :=
  (⟨⟨⟨⟨rfl, rfl, rfl, rfl, rfl, rfl, rfl, rfl⟩, rfl, rfl⟩, rfl⟩, fun _ _ => rfl, rfl⟩ : PairStep k s s.takeFree.2).trans
    (PairStep.onPair _ _)

theorem timeoutRecorded_lo (k : Fin 16) (s : State) : ((timeoutRecorded k s).sin.pair[k]).lo = s.sin.pair[k].lo := by
  rw [timeoutRecorded, onPair_get, if_pos rfl]; rfl

theorem timeoutRecorded_i (k : Fin 16) (s : State) : (timeoutRecorded k s).sin.i = s.sin.i := rfl

theorem discLock_step (k : Fin 16) (s : State) : PairStep k s (discLock (evenIn k) s) := (PairStep.onConn _ s).trans (report_fab ..).pairStep

theorem discLock_lo (k : Fin 16) (s : State) : ((discLock (evenIn k) s).sin.pair[k]).lo = (s.sin.pair[k].lo).discLocked := by
  rw [discLock, report_sin, onConn_evenIn_lo]; rfl

theorem discLock_i (k : Fin 16) (s : State) : (discLock (evenIn k) s).sin.i = s.sin.i := by rw [discLock, report_sin, onConn_i]

/-- A connection whose check has timed out, its operation whole. -/
theorem timedOut_spec (k : Fin 16) (s : State) :
    let u := onConn (evenIn k) (fun c => { c with unclassed := true }) (discLock (evenIn k) (timeoutRecorded k s))
    PairStep k s u ∧ (u.sin.pair[k]).lo = { (s.sin.pair[k].lo).discLocked with unclassed := true } ∧ u.sin.i = s.sin.i := by
  refine ⟨((timeoutRecorded_step k s).trans (discLock_step k _)).trans (PairStep.onConn _ _), ?_, ?_⟩
  · rw [onConn_evenIn_lo, discLock_lo, timeoutRecorded_lo]
  · rw [onConn_i, discLock_i, timeoutRecorded_i]

theorem noteSafe_step (k : Fin 16) (s : State) : PairStep k s (noteSafe (evenIn k) s) := by
  unfold noteSafe
  dsimp only
  split
  · exact PairStep.onConn _ s
  · exact PairStep.refl k s

/-- A connection that stands at its safe level is noted in `clearSafe` and `safeAt` alone. -/
theorem noteSafe_lo (k : Fin 16) (s : State) : ∃ x t, ((noteSafe (evenIn k) s).sin.pair[k]).lo =
    { s.sin.pair[k].lo with clearSafe := x, safeAt := t } := by
  unfold noteSafe
  dsimp only
  split
  · exact ⟨_, _, onConn_evenIn_lo ..⟩
  · exact ⟨_, _, rfl⟩

theorem noteSafe_i (n : Fin 32) (s : State) : (noteSafe n s).sin.i = s.sin.i := by unfold noteSafe; dsimp only; split <;> rfl

/-- What a band wait becomes where it stands at its end (R197). -/
def ConnA.bandDecided (s : State) (c : ConnA) : ConnA :=
  if c.bandWait && past s c.bandAt 100 then { c with bandWait := false, band := !c.reported } else c

/-! ## CLEAR_DECISION (R198, R206) -/

/-- The decision of a connection is taken: what asked for it asks no more. -/
def decisionTaken (n : Fin 32) (s : State) : State :=
  let c := connOf s.sin n
  onConn n (fun x => { x with
    clearRel := x.clearRel && !(c.clearRel && past s c.relAt 50), clearSafe := x.clearSafe && !(c.clearSafe && past s c.safeAt 50) }) s

theorem decisionTaken_step (k : Fin 16) (s : State) : PairStep k s (decisionTaken (evenIn k) s) := by
  unfold decisionTaken
  exact PairStep.onConn _ s

theorem decisionTaken_i (n : Fin 32) (s : State) : (decisionTaken n s).sin.i = s.sin.i := rfl

theorem decisionTaken_lo (rel : s.sin.pair[k].lo.clearRel = true) (due : past s s.sin.pair[k].lo.relAt 50 = true) :
    ∃ x, ((decisionTaken (evenIn k) s).sin.pair[k]).lo = { s.sin.pair[k].lo with clearRel := false, clearSafe := x } := by
  refine ⟨s.sin.pair[k].lo.clearSafe && !(s.sin.pair[k].lo.clearSafe && past s s.sin.pair[k].lo.safeAt 50), ?_⟩
  rw [decisionTaken, onConn_evenIn_lo, connOf_evenIn, rel, due]
  rfl

/-- CLEAR_DECISION of a two-input pair decides on its one connection. -/
theorem exec_clearDecision {v : State} (two : s.sin.pair[k].two = true) (decided : clearDecide (evenIn k) s = v) (step : PairStep k s v) :
    ∃ u, exec (.clearDecision k) s = .next u ∧ u.sin = v.sin ∧ (∀ j : Fin 16, j ≠ k → u.sin.pair[j] = s.sin.pair[j]) ∧ u.mem = s.mem ∧
      u.sys = s.sys ∧ u.sout = s.sout ∧ u.hld = s.hld ∧ u.sin.tp = s.sin.tp := by
  have run : each (pairConns s.sin k) clearDecide s = v := by rw [pairConns_two two]; exact decided
  rw [← run] at step ⊢
  exact step.noted

/-- Channel B's mirror cell holds a lockout: channel A keeps its own as an ordinary one (R198). -/
theorem clearDecide_mirrorLocked (locked : s.sin.pair[k].lo.locked = true) (rel : s.sin.pair[k].lo.clearRel = true)
    (due : past s s.sin.pair[k].lo.relAt 50 = true) (mirror : (s.hld.ev[mirrorOf s.sin (evenIn k)]).lock = true) :
    clearDecide (evenIn k) s = onConn (evenIn k) (fun c => { c with band := false }) (decisionTaken (evenIn k) s) := by
  simp only [clearDecide, decisionTaken, connOf_evenIn, locked, rel, due, mirror, Bool.and_true, Bool.true_or, Bool.not_true,
    Bool.or_false, Bool.false_eq_true, if_false, if_true]

/-- Without one, a release event clears an ordinary lockout exactly where both inputs are safe and its conditions have ended (R206). -/
theorem clearDecide_ordinary (locked : s.sin.pair[k].lo.locked = true) (rel : s.sin.pair[k].lo.clearRel = true)
    (due : past s s.sin.pair[k].lo.relAt 50 = true) (mirror : (s.hld.ev[mirrorOf s.sin (evenIn k)]).lock = false)
    (plain : s.sin.pair[k].lo.band = false) : clearDecide (evenIn k) s =
    if connSafe s.sin (evenIn k) && connEnded s.sin (evenIn k) then clearConn (evenIn k) (decisionTaken (evenIn k) s)
    else decisionTaken (evenIn k) s := by
  simp only [clearDecide, decisionTaken, connOf_evenIn, locked, rel, due, mirror, plain, Bool.and_true, Bool.true_or, Bool.not_true,
    Bool.or_false, Bool.false_eq_true, if_false, Bool.true_and, Bool.false_and]

theorem connSafe_evenIn {x : SinS} (two : x.pair[k].two = true) : connSafe x (evenIn k) = true ↔
    ∀ n ∈ [evenIn k, oddIn k], enSide x n (counted x n) = false := by
  simp [connSafe, connInputs_evenIn two]

theorem connEnded_evenIn {x : SinS} (two : x.pair[k].two = true) : connEnded x (evenIn k) = true ↔
    ∀ n ∈ [evenIn k, oddIn k], x.i[n].settleFault = false ∧ (x.tp.getN x.i[n].source {}).cond = false := by
  simp [connEnded, connInputs_evenIn two]

end

/-! ## What a clear leaves (R188, R206) -/

theorem presentEdge_sin (n : Fin 32) (lvl : Bool) (s : State) :
    (presentEdge n lvl s).sin = { s.sin with i := (presentEdge n lvl s).sin.i } := by
  unfold presentEdge
  dsimp only
  split <;> rfl

theorem onI_get (n m : Fin 32) (f : InA → InA) (s : State) :
    (s.onI n f).sin.i[m] = if n = m then f s.sin.i[n] else s.sin.i[m] := by
  simp [State.onI, State.onSin, Fin.ext_iff]

/-- Presenting a level neither forces an input nor frees it. -/
theorem presentEdge_forced (n m : Fin 32) (lvl : Bool) (s : State) : ((presentEdge n lvl s).sin.i[m]).forced = (s.sin.i[m]).forced := by
  have kept : ∀ (f : InA → InA) (u : State), (∀ i, (f i).forced = i.forced) → ((u.onI n f).sin.i[m]).forced = (u.sin.i[m]).forced := by
    intro f u hf
    rw [onI_get]
    split
    case isTrue h => rw [hf, h]
    case isFalse => rfl
  unfold presentEdge
  dsimp only
  split
  · exact kept _ s fun i => by split <;> rfl
  · exact kept _ s fun i => by split_ifs <;> rfl

/-- An input whose connection clears is forced no more, and presents the level it last sampled. -/
def unforce (m : Fin 32) (s : State) : State :=
  presentEdge m s.sin.i[m].sampled (s.onI m fun i => { i with forced := false, testPulse := false, crossShort := false })

theorem unforce_sin (m : Fin 32) (s : State) : (unforce m s).sin = { s.sin with i := (unforce m s).sin.i } := presentEdge_sin ..

theorem unforce_step (k : Fin 16) (m : Fin 32) (s : State) : PairStep k s (unforce m s) :=
  ⟨((DecideStep.onI m _ s).trans (presentEdge_decideStep ..)).toStartStep, fun _ _ => by rw [unforce_sin], by rw [unforce_sin]⟩

theorem unforce_forced (m n : Fin 32) (s : State) : ((unforce m s).sin.i[n]).forced = if m = n then false else (s.sin.i[n]).forced := by
  rw [unforce, presentEdge_forced, onI_get]
  split <;> rfl

/-- The connection after a clear of an ordinary lockout: SAFE, with no lockout (Table 7-4). -/
theorem clearConn_spec {k : Fin 16} {s : State} (two : s.sin.pair[k].two = true) (plain : s.sin.pair[k].lo.band = false) :
    PairStep k s (clearConn (evenIn k) s) ∧ ((clearConn (evenIn k) s).sin.pair[k]).lo.locked = false ∧
      ((clearConn (evenIn k) s).sin.pair[k]).lo.st = .safe ∧
      ∀ n ∈ [evenIn k, oddIn k], ((clearConn (evenIn k) s).sin.i[n]).forced = false := by
  have cleared : ∃ f : ConnA → ConnA, (∀ c, (f c).locked = false ∧ (f c).st = .safe) ∧
      clearConn (evenIn k) s = each [evenIn k, oddIn k] unforce (onConn (evenIn k) f s) := by
    refine ⟨_, fun c => ?_, congrArg (fun l => each l unforce (onConn (evenIn k) _ s)) (connInputs_evenIn two)⟩
    simp [connOf_evenIn, pairOf_evenIn, plain, ConnA.locked, -Fin.getElem_fin]
  obtain ⟨f, hf, eq⟩ := cleared
  have pairs : (each [evenIn k, oddIn k] unforce (onConn (evenIn k) f s)).sin.pair = (onConn (evenIn k) f s).sin.pair :=
    each_keeps (P := fun u => u.sin.pair = (onConn (evenIn k) f s).sin.pair) (fun m u h => (congrArg SinS.pair (unforce_sin m u)).trans h) rfl
  rw [eq]
  refine ⟨(PairStep.onConn f s).trans (each_pairStep (unforce_step k) _), ?_, ?_, fun n hn => ?_⟩
  · rw [pairs, onConn_evenIn_lo]; exact (hf _).1
  · rw [pairs, onConn_evenIn_lo]; exact (hf _).2
  · refine each_establishes (Q := fun a u => (u.sin.i[a]).forced = false) (fun a u => ?_) (fun a b u h => ?_) hn _
    · rw [unforce_forced, if_pos rfl]
    · rw [unforce_forced, h, ite_self]

/-! ## Release inputs (R151, R205) -/

theorem upd_fin {α : Type} {n : Nat} (t : Tab α n) (i j : Fin n) (f : α → α) : (t.upd i f)[j] = if i = j then f t[i] else t[j] := by
  simp [Fin.ext_iff]

theorem RelCell.recovered_idle {c : RelCell} (h : c.st = .recover) (hm : 50000 ≤ c.m) : c.recovered.st = .idle := by
  simp [RelCell.recovered, h, hm]

/-- The rows of a stuck release input that has been inactive for its time. -/
theorem exec_recoverEnd_a (r : Fin 8) (s : State) : exec (.recoverEnd .a r) s =
    .next (s.onSin fun x => { x with slot := x.slot.upd r fun y => { y with cell := y.cell.recovered } }) := rfl

theorem exec_recoverEnd_b (r : Fin 8) (s : State) : exec (.recoverEnd .b r) s =
    .next (s.onHld fun h => { h with rel := h.rel.upd r RelCell.recovered }) := rfl

theorem exec_releaseStuck_a {r : Fin 8} {s : State} (h : (s.sin.slot[r]).cell.st = .active) (n : 300000 ≤ (s.sin.slot[r]).cell.n) :
    exec (.releaseStuck .a r) s = .next (report (locRep 0x65 3 (0x200 + r.val)) <|
      s.onSin fun x => { x with slot := x.slot.upd r fun y => { y with cell := { y.cell with st := .stuck } } }) := by
  simp only [exec, execReleaseStuck, h, beq_self_eq_true, decide_eq_true n, Bool.and_self, if_true]

theorem exec_releaseStuck_b {r : Fin 8} {s : State} (h : (s.hld.rel[r]).st = .active) (n : 300000 ≤ (s.hld.rel[r]).n) :
    exec (.releaseStuck .b r) s = .next (bReport 0x21 r.val <|
      s.onHld fun h => { h with rel := h.rel.upd r fun c => { c with st := .stuck } }) := by
  simp only [exec, execReleaseStuck, h, beq_self_eq_true, decide_eq_true n, Bool.and_self, if_true]

theorem bReport_rel (code : Byte) (cell : Nat) (s : State) : (bReport code cell s).hld.rel = s.hld.rel := by rw [bReport_hld]

/-- Settles O18: each decision by its equation and what its operation leaves alone; a stuck or recovered release input by its row. -/
theorem connections : Obligations.Connections := by
  unfold Obligations.Connections
  refine ⟨fun k s => ?_, fun r s => ⟨fun active n => ?_, fun active n => ?_, fun recover m => ?_, fun recover m => ?_⟩⟩
  · refine ⟨fun two waits free begun late still => ?_, fun due => ?_, fun waits due => ?_, fun two locked rel due =>
      ⟨fun mirror => ?_, fun mirror plain safe => ?_, fun mirror plain asserted => ?_⟩⟩
    · have spec := timedOut_spec k s
      rw [← discTimeout_passed two waits free begun late still] at spec
      obtain ⟨step, lo, i⟩ := spec
      obtain ⟨u, run, sin, frame⟩ := step.noted
      refine ⟨u, run, ?_, ?_, ?_, ?_, ?_, frame⟩ <;> rw [sin]
      · rw [lo]; rfl
      · rw [lo]; rfl
      · rw [lo]; simp [ConnA.enable, ConnA.discLocked]
      · rw [lo]
      · exact i
    · obtain ⟨u, run, sin, frame⟩ := (PairStep.onConn (k := k) (fun c => { c with guardPend := false, guardRun := false }) s).noted
      refine ⟨u, ?_, ?_, ?_, frame⟩
      · rw [← run]; exact congrArg Host.Outcome.next (if_pos due)
      · rw [sin, onConn_evenIn_lo]
      · rw [sin]; rfl
    · have step := (PairStep.onConn (k := k) (ConnA.bandDecided s) s).trans (noteSafe_step k _)
      obtain ⟨u, run, sin, frame⟩ := PairStep.noted (f := fun s => noteSafe (evenIn k) (onConn (evenIn k) (ConnA.bandDecided s) s)) step
      obtain ⟨x, t, lo⟩ := noteSafe_lo k (onConn (evenIn k) (ConnA.bandDecided s) s)
      refine ⟨u, run, ?_, ?_, ?_, frame⟩
      · rw [sin, lo, onConn_evenIn_lo, ConnA.bandDecided, waits, due]; rfl
      · rw [sin, lo, onConn_evenIn_lo, ConnA.bandDecided, waits, due]; rfl
      · rw [sin, noteSafe_i]; rfl
    · obtain ⟨u, run, sin, frame⟩ := exec_clearDecision two (clearDecide_mirrorLocked locked rel due mirror)
        ((decisionTaken_step k s).trans (PairStep.onConn _ _))
      obtain ⟨x, lo⟩ := decisionTaken_lo rel due
      refine ⟨u, run, ?_, ?_, ?_, ?_, frame⟩ <;> rw [sin]
      · rw [onConn_evenIn_lo, lo]; exact locked
      · rw [onConn_evenIn_lo]
      · rw [onConn_evenIn_lo, lo]
      · rw [onConn_i, decisionTaken_i]
    · have ready : (connSafe s.sin (evenIn k) && connEnded s.sin (evenIn k)) = true := by
        rw [Bool.and_eq_true, connSafe_evenIn two, connEnded_evenIn two]
        exact ⟨fun n hn => (safe n hn).1, fun n hn => (safe n hn).2⟩
      have decided := clearDecide_ordinary locked rel due mirror plain
      rw [if_pos ready] at decided
      obtain ⟨x, lo⟩ := decisionTaken_lo rel due
      obtain ⟨step, free, atSafe, freed⟩ := clearConn_spec (s := decisionTaken (evenIn k) s)
        ((onConn_evenIn_two ..).trans two) (by rw [lo]; exact plain)
      obtain ⟨u, run, sin, frame⟩ := exec_clearDecision two decided ((decisionTaken_step k s).trans step)
      refine ⟨u, run, ?_, ?_, ?_, frame⟩ <;> rw [sin]
      · exact free
      · exact atSafe
      · exact freed
    · have unready : connSafe s.sin (evenIn k) = false := by
        rw [Bool.eq_false_iff, ne_eq, connSafe_evenIn two]
        exact fun all => Bool.false_ne_true ((all _ List.mem_cons_self).symm.trans asserted)
      have decided := clearDecide_ordinary locked rel due mirror plain
      rw [unready, Bool.false_and, if_neg Bool.false_ne_true] at decided
      obtain ⟨x, lo⟩ := decisionTaken_lo rel due
      obtain ⟨u, run, sin, frame⟩ := exec_clearDecision two decided (decisionTaken_step k s)
      refine ⟨u, run, ?_, frame⟩
      rw [sin, lo]; exact locked
  · refine ⟨_, exec_releaseStuck_a active n, ?_, fun q hq => ?_, ?_, ?_, ?_, ?_⟩
    · rw [report_sin, State.onSin_sin, upd_fin, if_pos rfl]
    · rw [report_sin, State.onSin_sin, upd_fin, if_neg hq.symm]
    · rw [report_sin]; rfl
    · rw [report_mem]; rfl
    · rw [report_sys]; rfl
    · rw [report_hld]; rfl
  · refine ⟨_, exec_releaseStuck_b active n, ?_, fun q hq => ?_, rfl, rfl, rfl⟩
    · rw [bReport_rel, State.onHld_hld, upd_fin, if_pos rfl]
    · rw [bReport_rel, State.onHld_hld, upd_fin, if_neg hq.symm]
  · refine ⟨_, exec_recoverEnd_a r s, ?_, fun q hq => ?_, rfl⟩
    · rw [State.onSin_sin, upd_fin, if_pos rfl]; exact RelCell.recovered_idle recover m
    · rw [State.onSin_sin, upd_fin, if_neg hq.symm]
  · refine ⟨_, exec_recoverEnd_b r s, ?_, fun q hq => ?_, rfl⟩
    · rw [State.onHld_hld, upd_fin, if_pos rfl]; exact RelCell.recovered_idle recover m
    · rw [State.onHld_hld, upd_fin, if_neg hq.symm]

end Sys2Proof.Machine
end

section
/-! PROOFS. Channel B's records, limits and exchanges (O24): a device fault that channel B latches, a record that passes checks 1 to 7 and
what the agreement monitor makes of its items, and the cases of an exchange. -/
namespace Sys2Proof.Machine

/-! ## A device fault of channel B in SAFE-HOLD, RUN and SERVICE (R164, R29) -/

theorem lockoutEntry_sys {s : State} (h : s.live) (code : Half) :
    (lockoutEntry code s).sys = { lockoutRecord code s (dropCommands s).sys with runState := .lockout } := by
  rw [lockoutEntry_live h, (setRun_allOff ..).1]
  rfl

/-- CROSS is what `crossCheck` ends; elsewhere it does nothing. -/
theorem crossCheck_idle {s : State} (h : s.sys.stage ≠ .cross) : crossCheck s = s := by
  have idle : (s.sys.stage == .cross) = false := beq_eq_false_iff_ne.mpr h
  simp only [crossCheck, idle, Bool.false_and, Bool.false_eq_true, if_false]

/-- What a latched device fault of channel B leads to from `s`: LOCKOUT with everything off. -/
structure Latched (code : Half) (s u : State) : Prop where
  locked : lockedOut code u
  dev : u.hld.devFault = true
  mem : u.mem = s.mem
  stage : u.sys.stage = .none

theorem Fab.latched {code : Half} {s u v : State} (h : Fab u v) (l : Latched code s u) : Latched code s v :=
  ⟨h.lockedOut l.locked, by rw [h.hld]; exact l.dev, h.mem.trans l.mem, by rw [h.sys]; exact l.stage⟩

/-- What came before the fault left the memories. -/
theorem Latched.after {code : Half} {s t u : State} (h : Latched code t u) (mem : t.mem = s.mem) : Latched code s u :=
  ⟨h.locked, h.dev, h.mem.trans mem, h.stage⟩

/-- Nothing stands in the way of a device fault of channel B: a live run state, and no fault latched. -/
structure Faultless (s : State) : Prop where
  live : s.live
  dev : s.hld.devFault = false
  fatal : s.hld.fatal = false

theorem bDevice_latched {s : State} (h : Faultless s) (code : Byte) (cell : Nat) : Latched (code.zeroExtend 16) s (bDevice code cell s) := by
  obtain ⟨live, dev, fatal⟩ := h
  simp only [bDevice, dev, fatal, Bool.or_false, Bool.false_eq_true, if_false]
  generalize hv : State.onHld _ (State.onSys _ _) = v
  have noted : v.live ∧ v.hld.devFault = true ∧ v.mem = s.mem := by subst hv; exact ⟨live, rfl, rfl⟩
  obtain ⟨vlive, vdev, vmem⟩ := noted
  obtain ⟨locked, aside, mem, -⟩ := lockoutEntry_lockedOut vlive (code.zeroExtend 16)
  refine ⟨locked, by rw [aside.hld]; exact vdev, mem.trans vmem, ?_⟩
  rw [lockoutEntry_sys vlive]
  rfl

/-- A row that latches a device fault, noted. -/
theorem noting_latched {code : Half} {f : State → State} {s : State} (h : Latched code s (f s)) :
    ∃ u, (Host.Outcome.next (noting f s) : Outc) = .next u ∧ lockedOut code u ∧ u.hld.devFault = true ∧ u.mem = s.mem := by
  obtain ⟨locked, dev, mem, -⟩ := (noting_fab f s).latched h
  exact ⟨_, rfl, locked, dev, mem⟩

/-! ## SCAN_RECORD (R166, R167) -/

theorem exec_scanRecord {w : List Word} {s : State} (h : (latchRecord w s).sys.stage ≠ .cross) :
    ∃ u, exec (.scanRecord w) s = .next u ∧ Fab (latchRecord w s) u := by
  refine ⟨_, rfl, ?_⟩
  have fab := noting_fab (fun s => crossCheck (latchRecord w s)) s
  rwa [crossCheck_idle h] at fab

/-- The core a record names. -/
def recCore (w : List Word) : Fin 4 := Fin.ofNat 4 (fld (w.getD 0 0) 1 0)

section
variable {w : List Word} {s : State}

theorem latchRecord_paired (load : s.hld.loadMode = false) (paired : s.hld.pairs ≠ []) : latchRecord w s = checkRecord w s.t.cyc s := by
  simp only [latchRecord, load, List.isEmpty_iff, paired, Bool.false_eq_true, if_false]

theorem latchRecord_unpaired (load : s.hld.loadMode = false) (unpaired : s.hld.pairs = [])
    (room : (s.hld.waiting.filter fun r => r.core == recCore w).length < 8) :
    latchRecord w s = s.onHld fun h => { h with waiting := h.waiting ++ [⟨w, s.t.cyc⟩] } := by
  have room' : (s.hld.waiting.filter fun r => r.core == (⟨w, 0⟩ : ScanRec).core).length < 8 := room
  simp only [latchRecord, load, unpaired, List.isEmpty_nil, Bool.false_eq_true, if_false, if_true, State.onHld, if_pos room']

theorem checkRecord_bad (bad : recOk w = false) (at_ : Nat) : checkRecord w at_ s =
    bReport 0x30 (recCore w).val (onMon (recCore w) (fun x => { x with discarded := satInc x.discarded }) s) := by
  simp only [checkRecord, bad, Bool.false_eq_true, if_false]
  rfl

theorem checkRecord_ok (ok : recOk w = true) (at_ : Nat) : checkRecord w at_ s = recChecks (recCore w) w at_ s := by
  simp only [checkRecord, ok, if_true]
  rfl

end

theorem onMon_get (c : Fin 4) (f : Monitor → Monitor) (s : State) : (onMon c f s).hld.mon[c] = f s.hld.mon[c] := by
  rw [onMon, State.onHld_hld, upd_fin, if_pos rfl]

theorem bReport_mon (code : Byte) (cell : Nat) (s : State) : (bReport code cell s).hld.mon = s.hld.mon := by rw [bReport_hld]

/-! ## Checks 2 to 7 (Table 6-6) -/

/-- Core `c` owns item `i`: an output, or from 16 on a port. -/
def ownItem (h : HldS) (c : Fin 4) (i : Nat) : Bool :=
  if i < 16 then bit (ownedOut (BitVec.ofNat 16 (fld (h.hdr.getN 3 0) 31 16)) (h.hdr.getN 4 0) c) i
  else bit (ownedPort (BitVec.ofNat 4 (fld (h.hdr.getN 3 0) 15 12)) (h.hdr.getN 5 0) c) (i - 16)

/-- The items of core `c`. -/
def ownItems (h : HldS) (c : Fin 4) : List Nat := (List.range 20).filter (ownItem h c)

/-- A record names no output and no port that its core does not own (check 3). -/
def ownsAll (h : HldS) (c : Fin 4) (w2 : Word) : Prop :=
  ((w2.truncate 16 : Half) &&& ~~~ownedOut (BitVec.ofNat 16 (fld (h.hdr.getN 3 0) 31 16)) (h.hdr.getN 4 0) c) = 0 ∧
    (w2.extractLsb' 16 4 &&& ~~~ownedPort (BitVec.ofNat 4 (fld (h.hdr.getN 3 0) 15 12)) (h.hdr.getN 5 0) c) = 0

/-- The sequence of a record. -/
def recSeq (w : List Word) : Half := BitVec.ofNat 16 (fld (w.getD 0 0) 31 16)

/-- The record becomes its core's reference (R168). -/
def accepted (c : Fin 4) (w : List Word) (at_ : Nat) (s : State) : State :=
  onMon c (fun x => { x with ref := true, seq := recSeq w, time := w.getD 1 0, since := at_, armed := true }) s

/-- Item `i` as the history shows it at B time `m`. -/
def shownItem (s : State) (m : Int) (i : Nat) : Bool := decide (0 ≤ m) && bit (histAt s (m / 400).toNat) i

/-- Check 8 of one item of a record. -/
def judgeItem (c : Fin 4) (w2 : Word) (m : Int) (s0 : State) (i : Nat) (s : State) : State :=
  agreeItem c i (bit w2 i) (shownItem s0 m i) m s

/-- CROSS notes a record that agrees in every item (R39). -/
def noteAgreed (clean : Bool) (c : Fin 4) (s : State) : State :=
  s.onSys fun x => if clean then { x with crossCores := setBit x.crossCores c.val true } else x

section
variable {c : Fin 4} {w : List Word} {at_ : Nat} {s : State} {m : Int}

/-- A record whose sequence does not follow its core's last one is the device fault SEQUENCE. -/
theorem recChecks_sequence (mapped : mapTime s.hld (w.getD 1 0) = some m) (host : hosts s.hld c = true) (own : ownsAll s.hld c (w.getD 2 0))
    (ref : s.hld.mon[c].ref = true) (seq : recSeq w ≠ s.hld.mon[c].seq + 1) : recChecks c w at_ s = bDevice 0x03 c.val s := by
  have seq' : (recSeq w != s.hld.mon[c].seq + 1) = true := bne_iff_ne.mpr seq
  simp only [recSeq] at seq'
  simp only [recChecks, mapped, host, own.1, own.2, ref, seq', bne_self_eq_false, Bool.not_true, Bool.or_self, Bool.and_self,
    Bool.false_eq_true, if_false, if_true]

/-- A record that passes checks 2 to 7. -/
structure Passes (c : Fin 4) (w : List Word) (at_ : Nat) (m : Int) (s : State) : Prop where
  mapped : mapTime s.hld (w.getD 1 0) = some m
  host : hosts s.hld c = true
  own : ownsAll s.hld c (w.getD 2 0)
  follows : s.hld.mon[c].ref = true → recSeq w = s.hld.mon[c].seq + 1 ∧
    w.getD 1 0 - s.hld.mon[c].time = BitVec.ofNat 32 (scanPeriod s.hld c * 10000)
  fresh : ((at_ * 400 : Nat) : Int) - m ≤ ((scanPeriod s.hld c * 2000 + 800 : Nat) : Int)
  build : w.getD 3 0 = s.hld.hdr.getN (10 + c.val) 0

theorem recChecks_passed (h : Passes c w at_ m s) (f : Faultless s) : recChecks c w at_ s =
    noteAgreed ((ownItems s.hld c).all fun i => bit (w.getD 2 0) i == shownItem s m i) c
      (each (ownItems s.hld c) (judgeItem c (w.getD 2 0) m s) (accepted c w at_ s)) := by
  obtain ⟨mapped, host, own, follows, fresh, build⟩ := h
  have seq : (s.hld.mon[c].ref && recSeq w != s.hld.mon[c].seq + 1) = false := by
    cases ref : s.hld.mon[c].ref
    · rfl
    · rw [(follows ref).1, bne_self_eq_false, Bool.and_false]
  have time : (s.hld.mon[c].ref && w.getD 1 0 - s.hld.mon[c].time != BitVec.ofNat 32 (scanPeriod s.hld c * 10000)) = false := by
    cases ref : s.hld.mon[c].ref
    · rfl
    · rw [(follows ref).2, bne_self_eq_false, Bool.and_false]
  simp only [recSeq] at seq
  simp only [recChecks, mapped, host, own.1, own.2, seq, time, if_neg (Int.not_lt.mpr fresh), build, f.dev, f.fatal, bne_self_eq_false,
    Bool.not_true, Bool.or_self, Bool.false_eq_true, if_false]
  rfl

end

/-! ## Check 8 (R169, R170) -/

theorem getN_upd {α : Type} {n : Nat} (t : Tab α n) (i : Fin n) (f : α → α) (j : Nat) (d : α) :
    (t.upd i f).getN j d = if j = i.val then f t[i] else t.getN j d := by
  by_cases hj : j < n
  · rw [show j = (⟨j, hj⟩ : Fin n).val from rfl, Tab.getN_lt, Tab.getN_lt, upd_fin]
    simp only [Fin.ext_iff, eq_comm]
  · have ne : j ≠ i.val := fun e => hj (e ▸ i.isLt)
    simp [Tab.getN, Nat.le_of_not_lt hj, ne]

/-- `u` is `s` after check 8 of items of core `c`: open disagreements differ, and nothing else. -/
structure Judged (c : Fin 4) (s u : State) : Prop where
  t : u.t = s.t
  sys : u.sys = s.sys
  mem : u.mem = s.mem
  sout : u.sout = s.sout
  hld : u.hld = { s.hld with disStart := u.hld.disStart, disPortStart := u.hld.disPortStart, mon := u.hld.mon }
  mon : u.hld.mon[c] = { s.hld.mon[c] with disOut := (u.hld.mon[c]).disOut, disPort := (u.hld.mon[c]).disPort }

section
variable {c : Fin 4} {s t u : State}

theorem Judged.refl (c : Fin 4) (s : State) : Judged c s s := ⟨rfl, rfl, rfl, rfl, rfl, rfl⟩

theorem Judged.trans (h : Judged c s t) (g : Judged c t u) : Judged c s u :=
  ⟨g.t.trans h.t, g.sys.trans h.sys, g.mem.trans h.mem, g.sout.trans h.sout, by rw [g.hld, h.hld], by rw [g.mon, h.mon]⟩

theorem Judged.faultless (h : Judged c s u) (f : Faultless s) : Faultless u := by
  obtain ⟨live, dev, fatal⟩ := f
  refine ⟨?_, ?_, ?_⟩
  · rw [State.live, h.sys]; exact live
  · rw [h.hld]; exact dev
  · rw [h.hld]; exact fatal

theorem Judged.scanPeriod (h : Judged c s u) : scanPeriod u.hld c = Machine.scanPeriod s.hld c := by rw [h.hld]; rfl

theorem Judged.guardCell (h : Judged c s u) (i : Nat) (m : Int) (per : Nat) : guardCell u.hld i m per = Machine.guardCell s.hld i m per := by
  rw [h.hld]; rfl

theorem disSet_judged (c : Fin 4) (i : Nat) (v : Option Nat) (s : State) : Judged c s (disSet c i v s) := by
  refine ⟨rfl, rfl, rfl, rfl, ?_, ?_⟩
  · simp only [disSet, onMon, State.onHld_hld]
    split
    · rfl
    · split <;> rfl
  · simp only [disSet, onMon_get]
    simp only [State.onHld_hld]
    split
    · rfl
    · split <;> rfl

theorem disAt_output {h : HldS} {i : Nat} (hi : i < 16) : disAt h i = h.disStart.getN i none := if_pos hi

theorem disAt_port {h : HldS} {i : Nat} (hi : ¬ i < 16) : disAt h i = h.disPortStart.getN (i - 16) none := if_neg hi

/-- An open disagreement is set or cleared, and every other stays. -/
theorem disAt_disSet {i : Nat} (hi : i < 20) (v : Option Nat) (j : Nat) (s : State) :
    disAt (disSet c i v s).hld j = if j = i then v else disAt s.hld j := by
  by_cases out : i < 16 <;> by_cases hj : j < 16
  · rw [disAt_output hj, disAt_output hj]
    simp only [disSet, onMon, State.onHld_hld, dif_pos out, getN_upd]
  · rw [disAt_port hj, disAt_port hj, if_neg (by omega)]
    simp only [disSet, onMon, State.onHld_hld, dif_pos out]
  · rw [disAt_output hj, disAt_output hj, if_neg (by omega)]
    simp only [disSet, onMon, State.onHld_hld, dif_neg out, dif_pos (show i - 16 < 4 by omega)]
  · rw [disAt_port hj, disAt_port hj]
    simp only [disSet, onMon, State.onHld_hld, dif_neg out, dif_pos (show i - 16 < 4 by omega), getN_upd]
    exact if_congr (by omega) rfl rfl

end

section
variable {c : Fin 4} {i : Nat} {a b : Bool} {m : Int} {s : State}

theorem agreeItem_agrees (f : Faultless s) (h : a = b) : agreeItem c i a b m s = disSet c i none s := by
  simp only [agreeItem, f.dev, f.fatal, h, Bool.or_self, Bool.false_eq_true, beq_self_eq_true, if_false, if_true]

theorem agreeItem_faulted (h : s.hld.devFault = true) : agreeItem c i a b m s = s := by
  simp only [agreeItem, h, Bool.true_or, if_true]

/-- A disagreement that no guard time settles. -/
structure Disagrees (c : Fin 4) (i : Nat) (a b : Bool) (m : Int) (s : State) : Prop where
  differ : a ≠ b
  unguarded : a = false → guardCell s.hld i m (scanPeriod s.hld c) = none

theorem Disagrees.ungranted (h : Disagrees c i a b m s) :
    (if (!a && b) = true then guardCell s.hld i m (scanPeriod s.hld c) else none) = none := by
  cases ha : a
  · rw [h.unguarded ha, ite_self]
  · rfl

theorem agreeItem_opens (f : Faultless s) (d : Disagrees c i a b m s) (closed : disAt s.hld i = none) :
    agreeItem c i a b m s = disSet c i (some m.toNat) s := by
  simp only [agreeItem, f.dev, f.fatal, beq_eq_false_iff_ne.mpr d.differ, d.ungranted, closed, Bool.or_self, Bool.false_eq_true, if_false]

theorem agreeItem_lasts {since : Nat} (f : Faultless s) (d : Disagrees c i a b m s) (opened : disAt s.hld i = some since)
    (lasts : ((fld (s.hld.hdr.getN 3 0) 2 0 * scanPeriod s.hld c * 2000 : Nat) : Int) ≤ m - (since : Int)) :
    agreeItem c i a b m s = bDevice 0x01 c.val s := by
  simp only [agreeItem, f.dev, f.fatal, beq_eq_false_iff_ne.mpr d.differ, d.ungranted, opened, if_pos lasts, Bool.or_self,
    Bool.false_eq_true, if_false]

end

section
variable {c : Fin 4} {w2 : Word} {m : Int} {s0 : State}

/-- Items that agree have no open disagreement; those of other items stay. -/
theorem agreeing_spec {l : List Nat} (small : ∀ j ∈ l, j < 20) (agree : ∀ j ∈ l, bit w2 j = shownItem s0 m j) {u : State} (f : Faultless u) :
    let v := each l (judgeItem c w2 m s0) u
    Judged c u v ∧ (∀ j ∈ l, disAt v.hld j = none) ∧ ∀ j ∉ l, disAt v.hld j = disAt u.hld j := by
  induction l generalizing u with
  | nil => exact ⟨Judged.refl c u, fun _ h => absurd h List.not_mem_nil, fun _ _ => rfl⟩
  | cons i l ih =>
    have cleared := disSet_judged c i none u
    have first : judgeItem c w2 m s0 i u = disSet c i none u := agreeItem_agrees f (agree i List.mem_cons_self)
    have dis := disAt_disSet (c := c) (small i List.mem_cons_self) none (s := u)
    obtain ⟨judged, closed, kept⟩ := ih (fun j hj => small j (List.mem_cons_of_mem i hj)) (fun j hj => agree j (List.mem_cons_of_mem i hj))
      (cleared.faultless f)
    have run : each (i :: l) (judgeItem c w2 m s0) u = each l (judgeItem c w2 m s0) (disSet c i none u) := by rw [← first]; rfl
    rw [run]
    refine ⟨cleared.trans judged, fun j hj => ?_, fun j hj => ?_⟩
    · by_cases h : j ∈ l
      · exact closed j h
      · rw [kept j h, dis, if_pos ((List.mem_cons.mp hj).resolve_right h)]
    · obtain ⟨ne, h⟩ := not_or.mp (mt List.mem_cons.mpr hj)
      rw [kept j h, dis, if_neg ne]

theorem each_append {α : Type} (k l : List α) (f : α → State → State) (s : State) : each (k ++ l) f s = each l f (each k f s) :=
  List.foldl_append

/-- A latched device fault leaves nothing of check 8 to be done. -/
theorem each_judgeItem_faulted {s : State} (h : s.hld.devFault = true) (l : List Nat) : each l (judgeItem c w2 m s0) s = s := by
  induction l with
  | nil => rfl
  | cons i l ih =>
    have same : judgeItem c w2 m s0 i s = s := agreeItem_faulted h
    exact (congrArg (each l (judgeItem c w2 m s0)) same).trans ih

variable {l : List Nat} {i : Nat} {u : State} (small : ∀ j ∈ l, j < 20) (once : l.Nodup) (mem : i ∈ l)
  (others : ∀ j ∈ l, j ≠ i → bit w2 j = shownItem s0 m j) (f : Faultless u) (differ : bit w2 i ≠ shownItem s0 m i)
  (unguarded : bit w2 i = false → guardCell u.hld i m (scanPeriod u.hld c) = none)
include small once mem others f differ unguarded

/-- One item that disagrees: check 8 of the items before it leaves it, and of those after it too. -/
theorem disagreeing_split : ∃ (k : List Nat) (v : State), Judged c u v ∧ disAt v.hld i = disAt u.hld i ∧ Faultless v ∧
    Disagrees c i (bit w2 i) (shownItem s0 m i) m v ∧ (∀ j ∈ k, j < 20) ∧ (∀ j ∈ k, bit w2 j = shownItem s0 m j) ∧ i ∉ k ∧
    each l (judgeItem c w2 m s0) u = each k (judgeItem c w2 m s0) (judgeItem c w2 m s0 i v) := by
  obtain ⟨l1, l2, rfl⟩ := List.append_of_mem mem
  obtain ⟨fresh, -⟩ := List.nodup_cons.mp (List.nodup_middle.mp once)
  obtain ⟨h1, h2⟩ := not_or.mp (fun h => fresh (List.mem_append.mpr h))
  have in1 : ∀ j ∈ l1, j ∈ l1 ++ i :: l2 := fun j hj => List.mem_append_left _ hj
  have in2 : ∀ j ∈ l2, j ∈ l1 ++ i :: l2 := fun j hj => List.mem_append_right _ (List.mem_cons_of_mem i hj)
  obtain ⟨judged, -, kept⟩ := agreeing_spec (c := c) (fun j hj => small j (in1 j hj))
    (fun j hj => others j (in1 j hj) fun e => h1 (e ▸ hj)) f
  refine ⟨l2, _, judged, kept i h1, judged.faultless f, ⟨differ, ?_⟩, fun j hj => small j (in2 j hj),
    fun j hj => others j (in2 j hj) fun e => h2 (e ▸ hj), h2, each_append ..⟩
  rw [judged.guardCell, judged.scanPeriod]
  exact unguarded

/-- A disagreement that was not open starts at the sample time. -/
theorem disagreeing_opens (closed : disAt u.hld i = none) : let v := each l (judgeItem c w2 m s0) u
    Judged c u v ∧ disAt v.hld i = some m.toNat := by
  obtain ⟨k, v, judged, kept, fv, d, ksmall, kagree, hk, run⟩ := disagreeing_split small once mem others f differ unguarded
  have step : judgeItem c w2 m s0 i v = disSet c i (some m.toNat) v := agreeItem_opens fv d (kept.trans closed)
  have opened := disSet_judged c i (some m.toNat) v
  obtain ⟨rest, -, left⟩ := agreeing_spec (c := c) ksmall kagree (opened.faultless fv)
  rw [run, step]
  refine ⟨(judged.trans opened).trans rest, ?_⟩
  rw [left i hk, disAt_disSet (small i mem), if_pos rfl]

/-- One that has lasted N scan periods is the device fault DISAGREE. -/
theorem disagreeing_lasts {since : Nat} (opened : disAt u.hld i = some since)
    (lasts : ((fld (u.hld.hdr.getN 3 0) 2 0 * scanPeriod u.hld c * 2000 : Nat) : Int) ≤ m - (since : Int)) :
    Latched 0x01 u (each l (judgeItem c w2 m s0) u) := by
  obtain ⟨k, v, judged, kept, fv, d, -, -, -, run⟩ := disagreeing_split small once mem others f differ unguarded
  have header : v.hld.hdr = u.hld.hdr := by rw [judged.hld]
  have step : judgeItem c w2 m s0 i v = bDevice 0x01 c.val v :=
    agreeItem_lasts fv d (kept.trans opened) (by rw [header, judged.scanPeriod]; exact lasts)
  have latched := bDevice_latched fv 0x01 c.val
  rw [run, step, each_judgeItem_faulted latched.dev]
  exact latched.after judged.mem

end

/-! ## Records whole (R167) -/

theorem accepted_mon (c : Fin 4) (w : List Word) (at_ : Nat) (s : State) : (accepted c w at_ s).hld.mon[c] =
    { s.hld.mon[c] with ref := true, seq := recSeq w, time := w.getD 1 0, since := at_, armed := true } := onMon_get ..

theorem accepted_faultless {s : State} (f : Faultless s) (c : Fin 4) (w : List Word) (at_ : Nat) : Faultless (accepted c w at_ s) :=
  ⟨f.live, f.dev, f.fatal⟩

theorem mem_ownItems {h : HldS} {c : Fin 4} {i : Nat} : i ∈ ownItems h c ↔ i < 20 ∧ ownItem h c i = true := by
  rw [ownItems, List.mem_filter, List.mem_range]

theorem ownItem_iff {h : HldS} {c : Fin 4} {i : Nat} : ownItem h c i = true ↔
    if i < 16 then bit (ownedOut (BitVec.ofNat 16 (fld (h.hdr.getN 3 0) 31 16)) (h.hdr.getN 4 0) c) i = true
    else bit (ownedPort (BitVec.ofNat 4 (fld (h.hdr.getN 3 0) 15 12)) (h.hdr.getN 5 0) c) (i - 16) = true := by
  rw [ownItem]; split <;> rfl

theorem ownItems_nodup (h : HldS) (c : Fin 4) : (ownItems h c).Nodup := List.nodup_range.filter _

theorem noteAgreed_sys (clean : Bool) (c : Fin 4) (s : State) :
    (noteAgreed clean c s).sys = { s.sys with crossCores := (noteAgreed clean c s).sys.crossCores } := by
  cases clean <;> rfl

/-- A record is latched and checked: channel B has an exchange pair, and the record passes check 1. -/
structure Checked (w : List Word) (s : State) : Prop where
  load : s.hld.loadMode = false
  paired : s.hld.pairs ≠ []
  ok : recOk w = true

section
variable {w : List Word} {s : State}

theorem Checked.latch (h : Checked w s) : latchRecord w s = recChecks (recCore w) w s.t.cyc s := by
  rw [latchRecord_paired h.load h.paired, checkRecord_ok h.ok]

/-- A record that latches a device fault. -/
theorem exec_scanRecord_latched {code : Half} (h : Latched code s (latchRecord w s)) :
    ∃ u, exec (.scanRecord w) s = .next u ∧ lockedOut code u ∧ u.hld.devFault = true ∧ u.mem = s.mem := by
  obtain ⟨u, run, fab⟩ := exec_scanRecord (by rw [h.stage]; decide)
  obtain ⟨locked, dev, mem, -⟩ := fab.latched h
  exact ⟨u, run, locked, dev, mem⟩

theorem Latched.noteAgreed {code : Half} {u : State} (h : Latched code s u) (clean : Bool) (c : Fin 4) :
    Latched code s (noteAgreed clean c u) := by
  obtain ⟨⟨state, line, stop, off⟩, dev, mem, stage⟩ := h
  refine ⟨⟨?_, ?_, ?_, off⟩, dev, mem, ?_⟩ <;> rw [noteAgreed_sys] <;> assumption

/-- A record that passes checks 2 to 7 becomes its core's reference, with what check 8 leaves. -/
theorem exec_scanRecord_judged {m : Int} (stage : s.sys.stage = .none) (f : Faultless s) (checked : Checked w s)
    (passes : Passes (recCore w) w s.t.cyc m s)
    (judged : Judged (recCore w) (accepted (recCore w) w s.t.cyc s)
      (each (ownItems s.hld (recCore w)) (judgeItem (recCore w) (w.getD 2 0) m s) (accepted (recCore w) w s.t.cyc s))) :
    ∃ u, exec (.scanRecord w) s = .next u ∧
      u.hld = (each (ownItems s.hld (recCore w)) (judgeItem (recCore w) (w.getD 2 0) m s) (accepted (recCore w) w s.t.cyc s)).hld ∧
      (u.hld.mon[recCore w]).ref = true ∧ (u.hld.mon[recCore w]).seq = recSeq w ∧ (u.hld.mon[recCore w]).time = w.getD 1 0 ∧
      (u.hld.mon[recCore w]).since = s.t.cyc ∧ (u.hld.mon[recCore w]).armed = true ∧
      u.hld.devFault = false ∧ u.sys.runState = s.sys.runState ∧ u.mem = s.mem ∧ u.sout = s.sout := by
  have latch := checked.latch.trans (recChecks_passed passes f)
  have sys := noteAgreed_sys ((ownItems s.hld (recCore w)).all fun i => bit (w.getD 2 0) i == shownItem s m i) (recCore w)
    (each (ownItems s.hld (recCore w)) (judgeItem (recCore w) (w.getD 2 0) m s) (accepted (recCore w) w s.t.cyc s))
  rw [judged.sys] at sys
  obtain ⟨u, run, fab⟩ := exec_scanRecord (w := w) (s := s) (by
    rw [latch, sys, show (accepted (recCore w) w s.t.cyc s).sys = s.sys from rfl, stage]; decide)
  rw [latch] at fab
  have hld : u.hld = (each _ _ _).hld := fab.hld
  have mon := judged.mon
  rw [accepted_mon, ← hld] at mon
  refine ⟨u, run, hld, ?_, ?_, ?_, ?_, ?_, ?_, ?_, fab.mem.trans judged.mem, fab.sout.trans judged.sout⟩
  · rw [mon]
  · rw [mon]
  · rw [mon]
  · rw [mon]
  · rw [mon]
  · rw [hld]; exact (judged.faultless (accepted_faultless f ..)).dev
  · rw [fab.sys, sys]; rfl

end

/-! ## Exchanges (R27, R171, R473) -/

/-- The exchange pair is kept, and TB_LOST counts from here. -/
def pairKept (s : State) : State :=
  s.onHld fun h =>
    { h with
      pairs := consCap 129 (s.t.tbA, s.t.cyc) h.pairs, lastExch := s.t.cyc, exchArmed := true, exchCount := satInc h.exchCount
      skipNext := h.skipNext && h.pairs.head?.isNone }

/-- The deviation of an interval of `da` ticks. -/
def deviationKept (da : Nat) (diff : Int) (s : State) : State :=
  s.onHld fun h => { h with dev := BitVec.ofInt 16 (if da = 0 then 0 else diff * 10000 / (da : Int)) }

/-- The interval since the last pair, as both dies judge it (R27, R171). -/
def intervalJudged (s : State) : State :=
  match s.hld.pairs.head? with
  | none => (pairKept s).onSys fun x => { x with crossGood := 1 }
  | some (a0, b0) =>
    let da := (s.t.tbA - a0).toNat
    let diff : Int := (((s.t.cyc - b0) * 2000 : Nat) : Int) - (da : Int)
    if s.hld.skipNext || da = 0 then pairKept s
    else if da < diff.natAbs * 100 then
      devFault (devRep 0x49 0 0) <| bDevice 0x09 0 <| (deviationKept da diff (pairKept s)).onSys fun x => { x with crossGood := 0 }
    else (deviationKept da diff (pairKept s)).onSys fun x => { x with crossGood := x.crossGood + 1 }

/-- Both dies run and exchange, with no record held. -/
structure Exchanging (s : State) : Prop extends Faultless s where
  load : s.hld.loadMode = false
  counts : s.t.runA = true
  good : s.pwr.good = true
  stage : s.sys.stage = .none
  waiting : s.hld.waiting = []

theorem checkHeld_idle {s : State} (h : s.hld.waiting = []) : checkHeld s = s := by
  have same : (s.onHld fun x => { x with waiting := [] }) = s := by
    rw [← h]; rfl
  rw [checkHeld, h, same]
  split <;> rfl

section
variable {s : State}

theorem State.live.awake (h : s.live) : (s.sys.runState == .dormant) = false := by
  rcases h with h | h | h <;> rw [h] <;> rfl

theorem State.live.castOn (h : s.live) : s.sys.runState ≠ .castOn := by
  rcases h with h | h | h <;> rw [h] <;> decide

theorem exchange_eq (h : Exchanging s) : exchange s = checkHeld (intervalJudged s) := by
  simp only [exchange, h.counts, h.load, h.good, h.live.awake, h.dev, h.fatal, Bool.not_true, Bool.or_self, Bool.false_eq_true, if_false]
  rfl

theorem exchange_first (h : Exchanging s) (none : s.hld.pairs = []) :
    exchange s = (pairKept s).onSys fun x => { x with crossGood := 1 } := by
  simp only [exchange_eq h, intervalJudged, none, List.head?_nil]
  exact checkHeld_idle h.waiting

theorem exchange_skipped {p : DWord × Nat} {q : List (DWord × Nat)} (h : Exchanging s) (pairs : s.hld.pairs = p :: q)
    (skip : s.hld.skipNext = true) : exchange s = pairKept s := by
  simp only [exchange_eq h, intervalJudged, pairs, List.head?_cons, skip, Bool.true_or, if_true]
  exact checkHeld_idle h.waiting

end

theorem demandsOff_allOff (s : State) : (demandsOff s).allOff := by
  refine ⟨fun k => ?_, fun c => ?_⟩ <;>
    simp [demandsOff, driveA, OutA.drive, OutA.off, OutA.wantA, OutA.asked, State.onSout, State.onEng]

/-- A device fault in LOCKOUT keeps the code of the first one, and everything off (R47). -/
theorem lockoutEntry_lockout {s : State} (h : s.sys.runState = .lockout) (code : Half) : lockoutEntry code s =
    demandsOff ((dropCommands s).onSys fun x => { x with lineA := true, stage := .none, devPending := true }) := by
  simp only [lockoutEntry, h]

theorem lockoutEntry_again {code : Half} {s u : State} (h : Latched code s u) (other : Half) :
    Latched code s (lockoutEntry other u) ∧ (lockoutEntry other u).hld = u.hld := by
  obtain ⟨⟨state, -, stop, -⟩, dev, mem, -⟩ := h
  rw [lockoutEntry_lockout state]
  refine ⟨⟨⟨state, rfl, stop, demandsOff_allOff _⟩, ?_, ?_, rfl⟩, ?_⟩
  · rw [(demandsOff_aside _).hld]; exact dev
  · exact mem
  · rw [(demandsOff_aside _).hld]; rfl

theorem devFault_latched {code : Half} {s u : State} (h : Latched code s u) (r : Rep) :
    Latched code s (devFault r u) ∧ (devFault r u).hld = u.hld := by
  obtain ⟨latched, hld⟩ := lockoutEntry_again ((report_fab r u).latched h) r.code
  exact ⟨latched, hld.trans (report_hld r u)⟩

theorem bDevice_waiting {s : State} (h : Faultless s) (code : Byte) (cell : Nat) : (bDevice code cell s).hld.waiting = s.hld.waiting := by
  obtain ⟨live, dev, fatal⟩ := h
  simp only [bDevice, dev, fatal, Bool.or_false, Bool.false_eq_true, if_false]
  generalize hv : State.onHld _ (State.onSys _ _) = v
  have noted : v.live ∧ v.hld.waiting = s.hld.waiting := by
    subst hv
    refine ⟨live, ?_⟩
    rw [State.onHld_hld, State.onSys_hld, bReport_hld]
  obtain ⟨-, aside, -⟩ := lockoutEntry_lockedOut noted.1 (code.zeroExtend 16)
  rw [aside.hld, noted.2]

section
variable {s : State} {a0 : DWord} {b0 : Nat} {q : List (DWord × Nat)}

/-- An interval beyond 1 % is the device fault of both dies; channel B's comes first. -/
theorem exchange_beyond (h : Exchanging s) (pairs : s.hld.pairs = (a0, b0) :: q) (compared : s.hld.skipNext = false)
    (passed : (s.t.tbA - a0).toNat ≠ 0)
    (beyond : (s.t.tbA - a0).toNat < ((((s.t.cyc - b0) * 2000 : Nat) : Int) - ((s.t.tbA - a0).toNat : Int)).natAbs * 100) :
    Latched 0x09 s (exchange s) := by
  simp only [exchange_eq h, intervalJudged, pairs, List.head?_cons, compared, decide_eq_false passed, Bool.or_self, Bool.false_eq_true,
    if_false, if_pos beyond]
  generalize hv : State.onSys _ (deviationKept _ _ _) = v
  have noted : Faultless v ∧ v.hld.waiting = [] ∧ v.mem = s.mem := by
    subst hv; exact ⟨⟨h.live, h.dev, h.fatal⟩, h.waiting, rfl⟩
  obtain ⟨fv, waiting, mem⟩ := noted
  obtain ⟨latched, hld⟩ := devFault_latched (bDevice_latched fv 0x09 0) (devRep 0x49 0 0)
  rw [checkHeld_idle (by rw [hld, bDevice_waiting fv, waiting])]
  exact latched.after mem

/-- One within 1 % counts toward CROSS. -/
theorem exchange_within (h : Exchanging s) (pairs : s.hld.pairs = (a0, b0) :: q) (compared : s.hld.skipNext = false)
    (passed : (s.t.tbA - a0).toNat ≠ 0)
    (within : ((((s.t.cyc - b0) * 2000 : Nat) : Int) - ((s.t.tbA - a0).toNat : Int)).natAbs * 100 ≤ (s.t.tbA - a0).toNat) :
    exchange s = (deviationKept (s.t.tbA - a0).toNat ((((s.t.cyc - b0) * 2000 : Nat) : Int) - ((s.t.tbA - a0).toNat : Int))
      (pairKept s)).onSys fun x => { x with crossGood := x.crossGood + 1 } := by
  simp only [exchange_eq h, intervalJudged, pairs, List.head?_cons, compared, decide_eq_false passed, Bool.or_self, Bool.false_eq_true,
    if_false, if_neg (Nat.not_lt.mpr within)]
  exact checkHeld_idle h.waiting

/-- The row of an exchange that is due (R171). -/
theorem exec_timebaseExchange (due : exchangeDue s = true) (stage : (exchange s).sys.stage ≠ .cross) :
    ∃ u, exec .timebaseExchange s = .next u ∧ Fab (exchange s) u := by
  refine ⟨noting (fun s => crossCheck (exchange s)) s, congrArg Host.Outcome.next (if_pos due), ?_⟩
  have fab := noting_fab (fun s => crossCheck (exchange s)) s
  rwa [crossCheck_idle stage] at fab

theorem exchangeDue_paired (pairs : s.hld.pairs = (a0, b0) :: q) (later : a0.toNat / 200000 < s.t.tbA.toNat / 200000) :
    exchangeDue s = true := by
  simp only [exchangeDue, pairs, List.head?_cons, decide_eq_true later]

theorem exchangeDue_first (none : s.hld.pairs = []) : exchangeDue s = true := by
  simp only [exchangeDue, none, List.head?_nil]

end

/-! ## The limits (R168, R171) -/

theorem recordMissing_latched {s : State} {c : Fin 4} (f : Faultless s) (armed : (s.hld.mon[c]).armed = true)
    (late : missLimit s.hld c < s.t.cyc - (s.hld.mon[c]).since) : Latched 0x02 s (recordMissing c s) := by
  simp only [recordMissing, armed, decide_eq_true late, Bool.and_self, if_true]
  exact (bDevice_latched (s := onMon c (fun x => { x with armed := false }) s) ⟨f.live, f.dev, f.fatal⟩ 0x02 c.val).after rfl

theorem tbLost_latched {s : State} (f : Faultless s) (armed : s.hld.exchArmed = true) (late : 200 < s.t.cyc - s.hld.lastExch) :
    Latched 0x0A s (tbLost s) := by
  simp only [tbLost, armed, decide_eq_true late, Bool.and_self, if_true]
  exact (bDevice_latched (s := s.onHld fun h => { h with exchArmed := false }) ⟨f.live, f.dev, f.fatal⟩ 0x0A 0).after rfl

/-! ## The obligation -/

theorem eq_zero_of_fld {w : Word} (h : fld w 31 0 = 0) : w = 0 := by
  have small := w.isLt
  apply BitVec.eq_of_toNat_eq
  simp only [fld, pow_zero, Nat.div_one] at h
  rw [Nat.mod_eq_of_lt small] at h
  exact h

/-- A record whose sequence is not the next one, as numbers of 16 bits. -/
theorem recSeq_ne {w : List Word} {seq : Half} (h : fld (w.getD 0 0) 31 16 ≠ (seq.toNat + 1) % 65536) : recSeq w ≠ seq + 1 := by
  intro eq
  have small : fld (w.getD 0 0) 31 16 < 65536 := Nat.mod_lt _ (by decide)
  apply h
  have nat := congrArg BitVec.toNat eq
  simp only [recSeq, BitVec.toNat_ofNat, BitVec.toNat_add, BitVec.reduceToNat] at nat
  omega

theorem ownsAll_zero (h : HldS) (c : Fin 4) : ownsAll h c 0 := ⟨BitVec.zero_and, BitVec.zero_and⟩

section
variable {α : Type} (t : Tab α 16) (d : α)

theorem getN_three : t[3] = t.getN 3 d := (Tab.getN_lt t 3 d).symm
theorem getN_four : t[4] = t.getN 4 d := (Tab.getN_lt t 4 d).symm
theorem getN_five : t[5] = t.getN 5 d := (Tab.getN_lt t 5 d).symm

end

/-- Settles O24: a record by the first check that it fails or by what check 8 makes of its items, the limits by the fault they latch, and
an exchange by what is known of its interval. -/
theorem agreementMonitor : Obligations.AgreementMonitor := by
  unfold Obligations.AgreementMonitor
  intro w c s load
  rw [getN_three _ 0, getN_four _ 0, getN_five _ 0]
  refine ⟨fun stage paired bad => ?_, fun stage unpaired room => ?_, fun live stage dev fatal => ?_⟩
  · have latch := (latchRecord_paired load paired).trans (checkRecord_bad bad s.t.cyc)
    obtain ⟨u, run, fab⟩ := exec_scanRecord (w := w) (s := s) (by rw [latch]; exact stage)
    rw [latch] at fab
    have mon : (u.hld.mon[recCore w]) = { s.hld.mon[recCore w] with discarded := satInc (s.hld.mon[recCore w]).discarded } := by
      rw [fab.hld, bReport_mon, onMon_get]
    exact ⟨u, run, congrArg Monitor.discarded mon, (congrArg Monitor.seq mon).trans rfl, fab.sys, fab.mem, fab.sout⟩
  · have latch := latchRecord_unpaired load unpaired room
    obtain ⟨u, run, fab⟩ := exec_scanRecord (w := w) (s := s) (by rw [latch]; exact stage)
    rw [latch] at fab
    exact ⟨u, run, congrArg HldS.waiting fab.hld, fab.sys, fab.mem, fab.sout⟩
  have f : Faultless s := ⟨live, dev, fatal⟩
  refine ⟨fun ok paired mapped host none ref seq => ?_, fun mt ok paired mapped host => ?_, fun armed late =>
    noting_latched (recordMissing_latched f armed late), fun armed late => noting_latched (tbLost_latched f armed late),
    fun counts good compared waiting a0 b0 q pairs passed later => ?_, fun counts good waiting => ⟨fun a0 b0 q skip pairs later => ?_,
    fun unpaired => ?_⟩⟩
  · obtain ⟨m, mapped⟩ := Option.ne_none_iff_exists'.mp mapped
    have own : ownsAll s.hld (recCore w) (w.getD 2 0) := by rw [eq_zero_of_fld none]; exact ownsAll_zero ..
    have latch := (Checked.latch ⟨load, paired, ok⟩).trans (recChecks_sequence mapped host own ref (recSeq_ne seq))
    exact exec_scanRecord_latched (by rw [latch]; exact bDevice_latched f 0x03 _)
  · intro own ownP w2 seq per outs ports follows fresh build mine shown
    have checked : Checked w s := ⟨load, paired, ok⟩
    have passes : Passes (recCore w) w s.t.cyc mt s := ⟨mapped, host, ⟨outs, ports⟩, follows, fresh, build⟩
    have small : ∀ j ∈ ownItems s.hld (recCore w), j < 20 := fun j hj => (mem_ownItems.mp hj).1
    have isMine : ∀ j, j ∈ ownItems s.hld (recCore w) ↔ mine j := fun j => mem_ownItems.trans (and_congr_right fun _ => ownItem_iff)
    have f' := accepted_faultless f (recCore w) w s.t.cyc
    refine ⟨fun agree => ?_, fun i hi others differ unguarded => ⟨fun closed => ?_, fun st opened lasts => ?_⟩⟩
    · obtain ⟨judged, closed, -⟩ := agreeing_spec (c := recCore w) (w2 := w2) (m := mt) (s0 := s) small
        (fun j hj => agree j ((isMine j).mp hj)) f'
      obtain ⟨u, run, hld, ref, seq, time, since, armed, dev, state, mem, sout⟩ := exec_scanRecord_judged stage f checked passes judged
      exact ⟨u, run, ref, seq, time, since, armed, fun j hj => by rw [hld]; exact closed j ((isMine j).mpr hj), dev, state, mem, sout⟩
    · obtain ⟨judged, opened⟩ := disagreeing_opens (c := recCore w) small (ownItems_nodup ..) ((isMine i).mpr hi)
        (fun j hj ne => others j ne ((isMine j).mp hj)) f' differ unguarded closed
      obtain ⟨u, run, hld, ref, -, -, -, -, dev, state, mem, -⟩ := exec_scanRecord_judged stage f checked passes judged
      exact ⟨u, run, by rw [hld]; exact opened, ref, dev, state, mem⟩
    · have latched := disagreeing_lasts (c := recCore w) small (ownItems_nodup ..) ((isMine i).mpr hi)
        (fun j hj ne => others j ne ((isMine j).mp hj)) f' differ unguarded opened lasts
      refine exec_scanRecord_latched ?_
      rw [checked.latch, recChecks_passed passes f]
      exact (latched.noteAgreed ..).after rfl
  · have h : Exchanging s := ⟨f, load, counts, good, stage, waiting⟩
    have due := exchangeDue_paired pairs later
    refine ⟨fun beyond => ?_, fun within => ?_⟩
    · have latched := exchange_beyond h pairs compared passed (Int.ofNat_lt.mp beyond)
      obtain ⟨u, run, fab⟩ := exec_timebaseExchange due (by rw [latched.stage]; decide)
      obtain ⟨locked, dev, mem, -⟩ := fab.latched latched
      exact ⟨u, run, locked, dev, mem⟩
    · have exchanged := exchange_within h pairs compared passed (Int.ofNat_le.mp within)
      obtain ⟨u, run, fab⟩ := exec_timebaseExchange due (by rw [exchanged]; exact stage.trans_ne (by decide))
      rw [exchanged] at fab
      refine ⟨u, run, ?_, ?_, ?_, fab.sys, fab.mem, fab.sout⟩ <;> rw [fab.hld] <;> rfl
  · have exchanged := exchange_skipped ⟨f, load, counts, good, stage, waiting⟩ pairs skip
    obtain ⟨u, run, fab⟩ := exec_timebaseExchange (exchangeDue_paired pairs later) (by rw [exchanged]; exact stage.trans_ne (by decide))
    rw [exchanged] at fab
    refine ⟨u, run, ?_, ?_, fab.sys, ?_, fab.mem, fab.sout⟩ <;> rw [fab.hld]
    · rw [pairKept, State.onHld_hld, pairs, List.head?_cons, Option.isNone_some, Bool.and_false]
    · rfl
    · rfl
  · have exchanged := exchange_first ⟨f, load, counts, good, stage, waiting⟩ unpaired
    obtain ⟨u, run, fab⟩ := exec_timebaseExchange (exchangeDue_first unpaired) (by rw [exchanged]; exact stage.trans_ne (by decide))
    rw [exchanged] at fab
    refine ⟨u, run, ?_, ?_, ?_, ?_, fab.mem, fab.sout⟩ <;> rw [fab.hld]
    · rw [State.onSys_hld, pairKept, State.onHld_hld, unpaired, List.head?_nil, Option.isNone_none, Bool.and_true]
    · rfl
    · rw [State.onSys_hld, pairKept, State.onHld_hld, unpaired]; rfl
    · rfl

end Sys2Proof.Machine
end

section
/-! PROOFS. The cells of channel B (O23): what one B cycle makes of a filter, a release cell, a logic cell, an output cell and an event
cell (R149 to R159). -/
namespace Sys2Proof.Machine

/-! ## Filters and windows (R149, R153) -/

section
variable {c : InF} {f cyc : Nat} {x : Bool}

theorem InF.tick_same (primed : c.primed = true) (h : x = c.lvl) : c.tick f cyc x = { c with n := 0 } := by
  simp only [InF.tick, primed, h, beq_self_eq_true, if_true]

theorem InF.tick_counts (primed : c.primed = true) (h : x ≠ c.lvl) (n : c.n < f) :
    (c.tick f cyc x).lvl = c.lvl ∧ (c.tick f cyc x).n = c.n + 1 := by
  simp only [InF.tick, primed, beq_eq_false_iff_ne.mpr h, Nat.not_le.mpr n, Bool.false_eq_true, if_true, if_false, and_self]

theorem InF.tick_turns (primed : c.primed = true) (h : x ≠ c.lvl) (n : f ≤ c.n) : (c.tick f cyc x).lvl = x := by
  simp only [InF.tick, primed, beq_eq_false_iff_ne.mpr h, n, Bool.false_eq_true, if_true, if_false]

theorem InF.tick_primed (primed : c.primed = true) : (c.tick f cyc x).primed = true := by
  simp only [InF.tick, primed, if_true]
  split_ifs <;> rfl

end

theorem WinCell.tick_eq {c : WinCell} (valid : c.valid = true) (cyc : Nat) (x : Bool) : c.tick cyc x =
    { c with f := c.f.tick (if x != bit c.w1 31 then fld c.w1 11 0 else fld c.w1 27 16) cyc (x != bit c.w1 31) } := by
  simp only [WinCell.tick, valid, Bool.not_true, Bool.false_eq_true, if_false]

/-! ## Release cells (R151, R152, Table 6-3) -/

theorem RelCell.tick_eq {c : RelCell} (valid : c.valid = true) (primed : c.f.primed = true) (cyc : Nat) (x : Bool) :
    c.tick cyc x = RelCell.tick.edge cyc { c with f := c.f.tick c.filter.toNat cyc (x == c.high), event := false } := by
  simp only [RelCell.tick, valid, primed, InF.tick_primed primed, Bool.not_true, Bool.false_and, Bool.false_eq_true, if_false]

/-! ## Logic cells (R154, Table 6-4) -/

section
variable {c : LogCell} {h : HldS} (valid : c.valid = true)
include valid

theorem LogCell.tick_and (fn : fld c.w1 3 0 = 0) : (c.tick h).out = true ↔ ∀ i, i < fld c.w1 6 4 → c.input h i = true := by
  simp only [LogCell.tick, valid, fn, Bool.not_true, Bool.false_eq_true, if_false, List.all_eq_true, List.mem_range]

theorem LogCell.tick_or (fn : fld c.w1 3 0 = 1) : (c.tick h).out = true ↔ ∃ i, i < fld c.w1 6 4 ∧ c.input h i = true := by
  simp only [LogCell.tick, valid, fn, Bool.not_true, Bool.false_eq_true, if_false, List.any_eq_true, List.mem_range]

theorem LogCell.tick_not (fn : fld c.w1 3 0 = 2) : (c.tick h).out = !c.input h 0 := by
  simp only [LogCell.tick, valid, fn, Bool.not_true, Bool.false_eq_true, if_false]

/-- ON_DELAY: the count rises to T while the input is set. -/
theorem LogCell.tick_onDelay (fn : fld c.w1 3 0 = 3) :
    (c.input h 0 = true → (c.tick h).c = min (c.c + 1) (fld c.w4 23 0) ∧ (c.tick h).out = decide (fld c.w4 23 0 ≤ c.c + 1)) ∧
    (c.input h 0 = false → (c.tick h).c = 0 ∧ (c.tick h).out = false) := by
  refine ⟨fun x => ?_, fun x => ?_⟩ <;>
    simp only [LogCell.tick, valid, fn, x, Bool.not_true, Bool.false_eq_true, if_false, if_true, and_self, min_eq_right_iff]

/-- OFF_DELAY: the count rises to T while the input is clear. -/
theorem LogCell.tick_offDelay (fn : fld c.w1 3 0 = 4) :
    (c.input h 0 = false → (c.tick h).c = min (c.c + 1) (fld c.w4 23 0) ∧ (c.tick h).out = decide (c.c + 1 < fld c.w4 23 0)) ∧
    (c.input h 0 = true → (c.tick h).c = 0 ∧ (c.tick h).out = true) := by
  refine ⟨fun x => ?_, fun x => ?_⟩ <;>
    simp only [LogCell.tick, valid, fn, x, Bool.not_true, Bool.false_eq_true, if_false, if_true, and_self, min_lt_iff,
      lt_self_iff_false, or_false]

theorem LogCell.tick_rise (fn : fld c.w1 3 0 = 5) : (c.tick h).out = (c.input h 0 && !c.prev) ∧ (c.tick h).prev = c.input h 0 := by
  simp only [LogCell.tick, valid, fn, Bool.not_true, Bool.false_eq_true, if_false, and_self]

theorem LogCell.tick_fall (fn : fld c.w1 3 0 = 6) : (c.tick h).out = (!c.input h 0 && c.prev) ∧ (c.tick h).prev = c.input h 0 := by
  simp only [LogCell.tick, valid, fn, Bool.not_true, Bool.false_eq_true, if_false, and_self]

theorem LogCell.tick_latch (fn : fld c.w1 3 0 = 7) :
    (c.tick h).out = (c.input h 0 && (c.out || relEvent h (fld c.w4 2 0))) := by
  simp only [LogCell.tick, valid, fn, Bool.not_true, Bool.false_eq_true, if_false]

end

/-! ## Output cells (R156 to R159) -/

/-- Off-pulse requests start at most a pulse. -/
theorem OutCell.requests_kept (idle : Bool) (l : List Nat) (c : OutCell) : (c.requests idle l).1 = { c with p := (c.requests idle l).1.p } := by
  refine List.foldlRecOn (motive := fun p : OutCell × Nat => p.1 = { c with p := p.1.p }) l _ rfl fun p hp w _ => ?_
  dsimp only
  split
  · rw [hp]
  · exact hp

/-- The output has been commanded open by its cell or by the hold (R159). -/
def OutCell.opens (h : HldS) (c : OutCell) : Bool := !c.d || c.l || h.h

/-- B cycles for which it has been so. -/
def OutCell.openTime (h : HldS) (c : OutCell) : Nat := if c.opens h then c.openFor + 1 else if c.closed then 0 else c.openFor

/-- The readback stayed high at the end of an off-pulse, for the second time in a row (R158). -/
def OutCell.pulseFails (h : HldS) (k : Fin 16) (c : OutCell) : Bool := (c.p == 1 && bit h.rb k.val) && c.failOnce

/-- The readback is high beyond the off-check time (R159). -/
def OutCell.highNow (h : HldS) (k : Fin 16) (c : OutCell) : Bool :=
  c.opens h && bit h.rb k.val && decide (fld c.w1 26 16 ≤ c.openTime h)

/-- The off-check fails anew. -/
def OutCell.offFails (h : HldS) (k : Fin 16) (c : OutCell) : Bool := c.highNow h k && !c.offHigh

/-- The lockout after the checks of a B cycle, with the release that clears it. -/
def OutCell.lockNow (h : HldS) (k : Fin 16) (c : OutCell) : Bool :=
  (c.l || c.pulseFails h k || c.offFails h k) &&
    !(!c.pulseFails h k && !c.offFails h k && relEvent h (fld c.w1 14 12) && !bit h.rb k.val)

/-- The cell after the checks of a B cycle, before its requests are judged. -/
def OutCell.judged (h : HldS) (k : Fin 16) (c : OutCell) : OutCell :=
  { c with
    p := c.p - 1, d := signal h (fld c.w1 8 0), openFor := c.openTime h, offHigh := c.highNow h k, l := c.lockNow h k
    failOnce := if c.p == 1 then bit h.rb k.val && !c.failOnce else c.failOnce }

/-- One B cycle of a valid output cell: its checks, then its requests. -/
theorem OutCell.tick_eq {c : OutCell} (valid : c.valid = true) (h : HldS) (k : Fin 16) : c.tick h k =
    (((c.judged h k).requests (!(c.p == 1)) h.req[k]).1, ((c.judged h k).requests (!(c.p == 1)) h.req[k]).2,
      (if c.pulseFails h k then [0x22] else []) ++ (if c.offFails h k then [0x23] else [])) := by
  obtain ⟨_, w1, d, l, p, offHigh, failOnce, openFor, closed⟩ := c
  subst valid
  unfold OutCell.tick OutCell.judged OutCell.lockNow OutCell.offFails OutCell.highNow OutCell.pulseFails OutCell.openTime OutCell.opens
  dsimp only
  -- Beside the filter of `openFor`, both sides are functions of five Booleans.
  cases (p == 1) <;> cases bit h.rb k.val <;> cases failOnce <;> cases l <;> cases rel : relEvent h (fld w1 14 12) <;> simp [rel]

section
variable {c : OutCell} (valid : c.valid = true) (h : HldS) (k : Fin 16)
include valid

/-- What the requests leave of a cell after its checks. -/
theorem OutCell.tick_fields : (c.tick h k).1.d = signal h (fld c.w1 8 0) ∧ (c.tick h k).1.w1 = c.w1 ∧ (c.tick h k).1.valid = true ∧
    (c.tick h k).1.l = c.lockNow h k ∧ (c.tick h k).1.failOnce = if c.p == 1 then bit h.rb k.val && !c.failOnce else c.failOnce := by
  rw [OutCell.tick_eq valid]
  dsimp only
  rw [OutCell.requests_kept]
  exact ⟨rfl, rfl, valid, rfl, rfl⟩

theorem OutCell.tick_faults : (c.tick h k).2.2 = (if c.pulseFails h k then [0x22] else []) ++ (if c.offFails h k then [0x23] else []) := by
  rw [OutCell.tick_eq valid]

/-- A second off-pulse in a row that leaves the readback high locks the output out. -/
theorem OutCell.tick_pulseFails (ends : c.p = 1) (high : bit h.rb k.val = true) (once : c.failOnce = true) :
    (c.tick h k).1.l = true ∧ 0x22 ∈ (c.tick h k).2.2 := by
  obtain ⟨-, -, -, l, -⟩ := OutCell.tick_fields valid h k
  have fails : c.pulseFails h k = true := by simp [OutCell.pulseFails, ends, high, once]
  refine ⟨by simp [l, OutCell.lockNow, fails], by simp [OutCell.tick_faults valid, fails]⟩

theorem OutCell.tick_noPulse (runs : c.p ≠ 1) : 0x22 ∉ (c.tick h k).2.2 ∧ (c.tick h k).1.failOnce = c.failOnce := by
  obtain ⟨-, -, -, -, once⟩ := OutCell.tick_fields valid h k
  have idle : c.pulseFails h k = false := by simp [OutCell.pulseFails, runs]
  refine ⟨?_, by rw [once, beq_eq_false_iff_ne.mpr runs]; rfl⟩
  rw [OutCell.tick_faults valid, idle]
  cases c.offFails h k <;> decide

/-- With the readback low nothing fails: the release clears a lockout (R159). -/
theorem OutCell.tick_low (low : bit h.rb k.val = false) :
    (c.tick h k).1.l = (c.l && !relEvent h (fld c.w1 14 12)) ∧ (c.tick h k).2.2 = [] := by
  obtain ⟨-, -, -, l, -⟩ := OutCell.tick_fields valid h k
  have pulse : c.pulseFails h k = false := by simp [OutCell.pulseFails, low]
  have off : c.offFails h k = false := by simp [OutCell.offFails, OutCell.highNow, low]
  refine ⟨by simp [l, OutCell.lockNow, pulse, off, low], by rw [OutCell.tick_faults valid, pulse, off]; rfl⟩

end

/-! ## Event cells (R149, R150, R193, R195) -/

theorem bMasked_unsourced {h : HldS} {src inp : Nat} (none : 8 ≤ src) (held : bit h.held inp = false) : bMasked h src inp = false := by
  simp [bMasked, held, Nat.not_lt.mpr none]

theorem tpCheck_unsourced {src : Nat} (none : 8 ≤ src) (h : HldS) (inp : Nat) (once : Bool) (fore : Byte) :
    tpCheck h inp src once fore = (once, fore, false) := if_pos none

/-- A started cell with no lockout, no test-pulse source and no test sample. -/
structure EvCell.Plain (h : HldS) (c : EvCell) : Prop where
  valid : c.valid = true
  started : c.started = true
  free : c.lock = false
  srcA : 8 ≤ c.srcA
  srcB : 8 ≤ c.srcB
  heldA : bit h.held c.inA = false
  heldB : bit h.held c.inB = false

/-- The cell with its filters run: a single connection has no second one. -/
def EvCell.filtered (h : HldS) (cyc : Nat) (c : EvCell) : EvCell :=
  { c with a := c.a.tick c.filter cyc (bit h.lvls c.inA)
           b := if c.conn == 0 then c.b else c.b.tick c.filter cyc (bit h.lvls c.inB)
           tpB := !(c.conn == 0) && c.tpB, forB := if c.conn == 0 then 0 else c.forB }

/-- What the levels make of a cell with its filters run (R193). -/
def EvCell.moved (h : HldS) (cyc : Nat) (c : EvCell) : EvCell × Bool :=
  if c.conn == 0 then (EvCell.tick.singleNow (c.filtered h cyc), false)
  else EvCell.tick.moves h cyc c.a.lvl c.b.lvl (c.filtered h cyc)

/-- A release clears a lockout that stands at the safe side, unless a fault is raised in this cycle (R150). -/
def EvCell.released (h : HldS) (single : Bool) (p : EvCell × Bool) : EvCell :=
  if p.1.lock && !p.2 && (!p.1.en false p.1.a.lvl && (single || !p.1.en true p.1.b.lvl)) && relEvent h p.1.relCell then
    { p.1 with lock := false, st := .safe }
  else p.1

section
variable {h : HldS} {c : EvCell}

/-- One B cycle of such a cell. -/
theorem EvCell.tick_plain (plain : c.Plain h) (cyc : Nat) : c.tick h cyc = (EvCell.released h (c.conn == 0) (c.moved h cyc), (c.moved h cyc).2) := by
  obtain ⟨valid, started, free, srcA, srcB, heldA, heldB⟩ := plain
  simp only [EvCell.srcA, EvCell.srcB, EvCell.inA, EvCell.inB] at srcA srcB heldA heldB
  cases single : (c.conn == 0) <;>
    simp only [EvCell.tick, EvCell.moved, EvCell.released, EvCell.filtered, EvCell.srcA, EvCell.srcB, EvCell.inA, EvCell.inB, valid,
      started, single, bMasked_unsourced srcA heldA, bMasked_unsourced srcB heldB, tpCheck_unsourced srcA, tpCheck_unsourced srcB,
      Bool.not_true, Bool.not_false, Bool.true_and, Bool.false_and, Bool.or_self, Bool.false_or, Bool.false_eq_true, if_true, if_false]

theorem EvCell.released_free (single : Bool) {p : EvCell × Bool} (free : p.1.lock = false ∨ p.2 = true) : EvCell.released h single p = p.1 := by
  rcases free with free | fault
  · simp only [EvCell.released, free, Bool.false_and, Bool.false_eq_true, if_false]
  · simp only [EvCell.released, fault, Bool.not_true, Bool.and_false, Bool.false_and, Bool.false_eq_true, if_false]

/-- A single connection follows its counted level (R193). -/
theorem EvCell.tick_single (plain : c.Plain h) (conn : c.conn = 0) (cyc : Nat) :
    (c.tick h cyc).1.enable = (c.a.tick c.filter cyc (bit h.lvls c.inA)).lvl ∧ (c.tick h cyc).1.lock = false ∧ (c.tick h cyc).2 = false := by
  have free : (c.filtered h cyc).lock = false := plain.free
  have moved : c.moved h cyc = ({ c.filtered h cyc with st := if (c.filtered h cyc).a.lvl then .enabled else .safe }, false) := by
    simp only [EvCell.moved, conn, EvCell.tick.singleNow, free, beq_self_eq_true, Bool.false_eq_true, if_true, if_false]
  rw [EvCell.tick_plain plain, EvCell.released_free _ (by rw [moved]; exact .inl free), moved]
  refine ⟨?_, free, rfl⟩
  simp only [EvCell.enable, EvCell.filtered, plain.valid, plain.started, plain.free, Bool.true_and, Bool.not_false, Bool.and_true]
  split
  case isTrue on => rw [on]; rfl
  case isFalse off => rw [Bool.not_eq_true _ |>.mp off]; rfl

/-! ## A move of the second input (Table 7-4) -/

/-- The time-out of R195 as a cell judges it at the end of its moves. -/
def EvCell.timesOut (h : HldS) (cyc : Nat) (c : EvCell) : Bool :=
  let other := if c.firstB then c.a else c.b
  (c.st == .waitOn || c.st == .waitOff) && !c.lock && decide (c.discMs * 200000 < bTicks h (cyc - c.e1)) &&
    !(decide (0 < other.n) && decide (bTicks h (other.edge - c.e1) ≤ c.discMs * 200000))

theorem EvCell.timesOut_settled (h : HldS) (cyc : Nat) {c : EvCell} (on : c.st ≠ .waitOn) (off : c.st ≠ .waitOff) :
    c.timesOut h cyc = false := by
  simp only [EvCell.timesOut, beq_eq_false_iff_ne.mpr on, beq_eq_false_iff_ne.mpr off, Bool.or_self, Bool.false_and]

/-- Where the first input has not moved, the cell takes the move of the second, then its time-out. -/
theorem EvCell.moves_second {oldA oldB : Bool} (first : c.a.lvl = oldA) (second : c.b.lvl ≠ oldB) (cyc : Nat) :
    EvCell.tick.moves h cyc oldA oldB c =
      (let p := c.apply h cyc true (c.en true c.b.lvl) c.b.edge
       if p.1.timesOut h cyc then (p.1.setLock, true) else p) := by
  have same : (c.a.lvl != oldA) = false := by rw [first, bne_self_eq_false]
  have moved : (c.b.lvl != oldB) = true := bne_iff_ne.mpr second
  simp only [EvCell.tick.moves, same, moved, Bool.false_and, Bool.false_or, Bool.false_eq_true, if_false, if_true, ite_self, Prod.mk.eta]
  rfl

/-- Ticks of timebase A between the edges of the two moves (R195). -/
def EvCell.distance (h : HldS) (c : EvCell) (edge : Nat) : Nat := bTicks h (edge - c.e1 + (c.e1 - edge))

section
variable (wait : c.st = .waitOn) (firstA : c.firstB = false) (cyc edge : Nat)
include wait firstA

/-- The second input follows within T: ENABLED, with the guard time of a late one (R196). -/
theorem EvCell.apply_inTime (inTime : c.distance h edge ≤ c.discMs * 200000) : ∃ g, c.apply h cyc true true edge =
    ({ c with st := .enabled, guard := g }, false) := by
  simp only [EvCell.distance] at inTime
  simp only [EvCell.apply, Cx.move, wait, firstA, inTime, Bool.true_beq, Bool.false_eq_true, if_true, if_false]
  split
  · exact ⟨some cyc, rfl⟩
  · exact ⟨c.guard, rfl⟩

theorem EvCell.apply_late (late : c.discMs * 200000 < c.distance h edge) : (c.apply h cyc true true edge) =
    (({ c with st := .locked } : EvCell).setLock, true) := by
  simp only [EvCell.distance] at late
  simp only [EvCell.apply, Cx.move, wait, firstA, Nat.not_le.mpr late, Bool.true_beq, Bool.false_eq_true, if_true, if_false]

end

/-- An enabled connection whose second input leaves its enabling side waits for the first (R193). -/
theorem EvCell.apply_leaves (on : c.st = .enabled) (cyc edge : Nat) : c.apply h cyc true false edge =
    ({ c with st := .waitOff, e1 := edge, firstB := true }, false) := by
  simp only [EvCell.apply, Cx.move, on, Bool.false_eq_true, if_false]

section
variable {cyc : Nat} (conn : c.conn ≠ 0) (first : (c.filtered h cyc).a.lvl = c.a.lvl) (second : (c.filtered h cyc).b.lvl ≠ c.b.lvl)
include conn first second

theorem EvCell.moved_second {toEn : Bool} (side : c.en true (c.filtered h cyc).b.lvl = toEn) : c.moved h cyc =
    (let p := (c.filtered h cyc).apply h cyc true toEn (c.filtered h cyc).b.edge
     if p.1.timesOut h cyc then (p.1.setLock, true) else p) := by
  rw [EvCell.moved, if_neg (by rw [beq_eq_false_iff_ne.mpr conn]; decide), EvCell.moves_second first second,
    show (c.filtered h cyc).en true (c.filtered h cyc).b.lvl = toEn from side]

variable (plain : c.Plain h)
include plain

/-- The second input to reach its enabling side enables the connection within T, and locks it after (R150, R195). -/
theorem EvCell.tick_waitOn (wait : c.st = .waitOn) (firstA : c.firstB = false) (on : c.en true (c.filtered h cyc).b.lvl = true) :
    (c.distance h (c.filtered h cyc).b.edge ≤ c.discMs * 200000 → (c.tick h cyc).1.enable = true ∧ (c.tick h cyc).2 = false) ∧
    (c.discMs * 200000 < c.distance h (c.filtered h cyc).b.edge →
      (c.tick h cyc).1.lock = true ∧ (c.tick h cyc).1.enable = false ∧ (c.tick h cyc).2 = true) := by
  have moved := EvCell.moved_second conn first second on
  have wait' : (c.filtered h cyc).st = .waitOn := wait
  have firstA' : (c.filtered h cyc).firstB = false := firstA
  refine ⟨fun inTime => ?_, fun late => ?_⟩
  · obtain ⟨g, ran⟩ := EvCell.apply_inTime (h := h) wait' firstA' cyc (c.filtered h cyc).b.edge inTime
    rw [ran] at moved
    dsimp only at moved
    rw [EvCell.timesOut_settled h cyc (by simp) (by simp)] at moved
    rw [EvCell.tick_plain plain, moved, EvCell.released_free _ (.inl plain.free)]
    simp [EvCell.enable, EvCell.filtered, plain.valid, plain.started, plain.free]
  · have ran := EvCell.apply_late (h := h) wait' firstA' cyc (c.filtered h cyc).b.edge late
    rw [ran] at moved
    dsimp only at moved
    rw [EvCell.timesOut_settled h cyc (by simp [EvCell.setLock]) (by simp [EvCell.setLock])] at moved
    rw [EvCell.tick_plain plain, moved, EvCell.released_free _ (.inr rfl)]
    exact ⟨rfl, Bool.and_false _, rfl⟩

/-- An enabled connection whose second input leaves its enabling side is enabled no more (R193). -/
theorem EvCell.tick_leaves (enabled : c.st = .enabled) (off : c.en true (c.filtered h cyc).b.lvl = false) :
    (c.tick h cyc).1.enable = false ∧ (c.tick h cyc).1.e1 = (c.filtered h cyc).b.edge ∧ (c.tick h cyc).1.firstB = true := by
  have moved := EvCell.moved_second conn first second off
  rw [EvCell.apply_leaves (show (c.filtered h cyc).st = .enabled from enabled)] at moved
  dsimp only at moved
  rw [EvCell.tick_plain plain, moved]
  split
  · rw [EvCell.released_free _ (.inr rfl)]
    exact ⟨Bool.and_false _, rfl, rfl⟩
  · rw [EvCell.released_free _ (.inl plain.free)]
    refine ⟨?_, rfl, rfl⟩
    simp [EvCell.enable]

end

end

/-! ## The cells together -/

/-- The rules of one cell hold of every cell, whatever channel B has latched. -/
theorem cellRules_hold (h : HldS) (cyc : Nat) : cellRules h cyc := by
  refine ⟨fun c x valid primed => ?_, fun c x valid primed => ?_, fun c valid => ?_, fun c k valid => ?_,
    fun c valid started free srcA srcB heldA heldB => ?_⟩
  · rw [WinCell.tick_eq valid]
    refine ⟨rfl, valid, InF.tick_primed primed, fun same => ?_, fun moved n => InF.tick_counts primed moved n,
      fun moved n => InF.tick_turns primed moved n⟩
    dsimp only
    rw [InF.tick_same primed same]
    exact ⟨same.symm, rfl⟩
  · rw [RelCell.tick_eq valid primed]
    generalize InF.tick c.filter.toNat cyc (x == c.high) c.f = f
    cases st : c.st <;> cases lvl : f.lvl
    case active.true =>
      by_cases n : c.n < 300000
      · simp [RelCell.tick.edge, lvl, n, Nat.not_le.mpr n]
      · simp [RelCell.tick.edge, lvl, n, Nat.le_of_not_lt n]
    case recover.false =>
      have idle : (RelSt.recover == RelSt.active) = false := rfl
      by_cases m : c.m < 50000
      · simp [RelCell.tick.edge, lvl, m, Nat.not_le.mpr m, idle]
      · simp [RelCell.tick.edge, lvl, m, Nat.le_of_not_lt m, idle]
    all_goals simp [RelCell.tick.edge, lvl]
  · exact ⟨LogCell.tick_and valid, LogCell.tick_or valid, LogCell.tick_not valid, LogCell.tick_onDelay valid, LogCell.tick_offDelay valid,
      LogCell.tick_rise valid, LogCell.tick_fall valid, LogCell.tick_latch valid⟩
  · obtain ⟨d, w1, valid', -, once⟩ := OutCell.tick_fields valid h k
    refine ⟨d, w1, valid', OutCell.tick_pulseFails valid h k, fun ends => ?_, OutCell.tick_noPulse valid h k, fun locked low => ?_,
      fun free low => ?_⟩
    · rw [once, ends]; rfl
    · rw [(OutCell.tick_low valid h k low).1, locked, Bool.true_and]
    · obtain ⟨l, faults⟩ := OutCell.tick_low valid h k low
      exact ⟨by rw [l, free, Bool.false_and], faults⟩
  · have plain : c.Plain h := ⟨valid, started, free, srcA, srcB, heldA, heldB⟩
    refine ⟨fun conn => EvCell.tick_single plain conn cyc, fun conn firstA first second => ?_⟩
    have b : (c.filtered h cyc).b = c.b.tick c.filter cyc (bit h.lvls c.inB) :=
      if_neg (by rw [beq_eq_false_iff_ne.mpr conn]; decide)
    rw [← b] at second ⊢
    exact ⟨fun wait _ on => EvCell.tick_waitOn conn first second plain wait firstA on,
      fun enabled off => EvCell.tick_leaves conn first second plain enabled off⟩

end Sys2Proof.Machine
end

section
/-! PROOFS. The B cycle (O23): what the steps of channel A and of the sessions leave of channel B, what a fault that channel B latches
leaves of its cells, the cells of the cycle, and the next clock 0. -/
namespace Sys2Proof.Machine

/-! ## Steps that leave channel B, the run state, the memories and the fuses -/

/-- A step of channel A, of the sessions or of the event fabric. -/
structure Quiet (s u : State) : Prop where
  t : u.t = s.t
  sys : u.sys = s.sys
  mem : u.mem = s.mem
  otp : u.otp = s.otp
  hld : u.hld = s.hld

section
variable {s t u : State}

theorem Quiet.refl (s : State) : Quiet s s := ⟨rfl, rfl, rfl, rfl, rfl⟩

theorem Quiet.trans (h : Quiet s t) (g : Quiet t u) : Quiet s u :=
  ⟨g.t.trans h.t, g.sys.trans h.sys, g.mem.trans h.mem, g.otp.trans h.otp, g.hld.trans h.hld⟩

theorem Fab.quiet (h : Fab s u) : Quiet s u := ⟨h.t, h.sys, h.mem, h.otp, h.hld⟩
theorem StartStep.quiet (h : StartStep s u) : Quiet s u := ⟨h.t, h.sys, h.mem, h.otp, h.hld⟩
theorem Retained.quiet (h : Retained s u) (hld : u.hld = s.hld) : Quiet s u := ⟨h.t, h.sys, h.mem, h.otp, hld⟩

theorem Quiet.onSin (f : SinS → SinS) (s : State) : Quiet s (s.onSin f) := ⟨rfl, rfl, rfl, rfl, rfl⟩
theorem Quiet.onSout (f : SoutS → SoutS) (s : State) : Quiet s (s.onSout f) := ⟨rfl, rfl, rfl, rfl, rfl⟩
theorem Quiet.onO (k : Fin 16) (f : OutA → OutA) (s : State) : Quiet s (s.onO k f) := Quiet.onSout _ s
theorem Quiet.onAlp (f : AlpS → AlpS) (s : State) : Quiet s (s.onAlp f) := ⟨rfl, rfl, rfl, rfl, rfl⟩
theorem Quiet.onCsl (f : CslS → CslS) (s : State) : Quiet s (s.onCsl f) := ⟨rfl, rfl, rfl, rfl, rfl⟩
theorem Quiet.onS (n : Fin 256) (f : Sess → Sess) (s : State) : Quiet s (s.onS n f) := Quiet.onCsl _ s
theorem Quiet.onP (p : Fin 4) (f : CscPort → CscPort) (s : State) : Quiet s (s.onP p f) := ⟨rfl, rfl, rfl, rfl, rfl⟩

theorem ite_quiet {p : Prop} [Decidable p] (h : Quiet s t) (g : Quiet s u) : Quiet s (if p then t else u) := by split <;> assumption

theorem each_quiet {α : Type} {l : List α} {f : α → State → State} (hf : ∀ a s, Quiet s (f a s)) (s : State) :
    Quiet s (each l f s) :=
  each_keeps (P := Quiet s) (fun a u h => h.trans (hf a u)) (Quiet.refl s)

end

/-! ### Outputs (R217, R233, R236) -/

theorem driveA_quiet (s : State) : Quiet s (driveA s) := Quiet.onSout _ s
theorem trackOuts_quiet (s : State) : Quiet s (trackOuts s) := Quiet.onSout _ s

theorem addCause_quiet (k : Fin 16) (c : OutCause) (p : Fin 16) (s : State) : Quiet s (addCause k c p s) :=
  (Quiet.onO k _ s).trans (driveA_quiet _)

theorem outFault_quiet (code : Half) (c : OutCause) (k : Fin 16) (s : State) : Quiet s (outFault code c k s) :=
  (report_fab ..).quiet.trans (each_quiet (fun j u => addCause_quiet j c k u) _)

theorem gateOne_quiet (k : Fin 16) (s : State) : Quiet s (gateOne k s) := by
  unfold gateOne
  dsimp only
  split_ifs
  · exact outFault_quiet ..
  · exact Quiet.onO ..
  · exact Quiet.refl s

theorem energise_quiet (s : State) : Quiet s (energise s) :=
  (driveA_quiet s).trans ((each_quiet gateOne_quiet _).trans ((driveA_quiet _).trans (trackOuts_quiet _)))

theorem dropCauses_quiet (k : Fin 16) (s : State) : Quiet s (dropCauses k s) := by
  unfold dropCauses
  exact (Quiet.onO k _ s).trans (Quiet.onSout _ _)

/-! ### A release event (R206, R236, R275, R313, R344) -/

theorem relConns_quiet (r : Fin 8) (s : State) : Quiet s (relConns r s) := by
  refine each_quiet (fun k u => ?_) s
  dsimp only
  split
  · exact each_quiet (fun n v => (onConn_decideStep n _ v).toStartStep.quiet) u
  · exact Quiet.refl u

theorem relAlp_quiet (r : Fin 8) (s : State) : Quiet s (relAlp r s) := Quiet.onAlp _ s

theorem applyRemote_quiet (s : State) : Quiet s (applyRemote s) := by
  refine each_quiet (fun k u => ?_) s
  split
  · exact addCause_quiet ..
  · exact (Quiet.onO k _ u).trans (driveA_quiet _)

theorem relLinks_quiet (r : Fin 8) (s : State) : Quiet s (relLinks r s) := by
  unfold relLinks
  dsimp only
  split
  · exact ((Quiet.onCsl _ s).trans (applyRemote_quiet _)).trans ((energise_quiet _).trans (raise_fab ..).quiet)
  · exact Quiet.refl s

theorem relOuts_quiet (r : Fin 8) (s : State) : Quiet s (relOuts r s) := by
  refine (each_quiet (fun k u => ?_) s).trans (energise_quiet _)
  dsimp only
  split_ifs
  · exact each_quiet dropCauses_quiet u
  · exact Quiet.refl u
  · exact Quiet.refl u

theorem relSkeins_quiet (r : Fin 8) (s : State) : Quiet s (relSkeins r s) := by
  refine each_quiet (fun p u => ?_) s
  dsimp only
  split
  · refine Quiet.trans ?_ (raise_fab ..).quiet
    exact Quiet.onP p _ u
  · exact Quiet.refl u

theorem releaseEvent_quiet (r : Fin 8) (s : State) : Quiet s (releaseEvent r s) :=
  (relConns_quiet r s).trans ((relAlp_quiet r _).trans ((relLinks_quiet r _).trans ((relOuts_quiet r _).trans (relSkeins_quiet r _))))

/-! ### Channel A's share of a cycle (R201, R202, R205) -/

theorem slotA_quiet (r : Fin 8) (s : State) : Quiet s (slotA r s) := by
  unfold slotA
  extract_lets c
  split
  extract_lets s1 s2
  have sampled : Quiet s s1 := Quiet.onSin ..
  have reported : Quiet s s2 := ite_quiet (sampled.trans (report_fab ..).quiet) sampled
  exact ite_quiet (reported.trans ((Quiet.onSin ..).trans ((raise_fab ..).quiet.trans (releaseEvent_quiet r _)))) reported

theorem tpLock_quiet (n : Fin 32) (s : State) : Quiet s (tpLock n s) := (onConn_decideStep n _ s).toStartStep.quiet

theorem judgeForeign_quiet (j : Fin 8) (t : DWord) (s : State) : Quiet s (judgeForeign j t s) := by
  refine (Quiet.onSin _ s).trans (each_quiet (fun n u => ?_) _)
  dsimp only
  split_ifs
  · refine Quiet.trans (Quiet.trans ?_ (report_fab ..).quiet) (tpLock_quiet n _)
    exact Quiet.onSin _ u
  · exact Quiet.onSin _ u
  · exact Quiet.refl u

theorem tpRecover_quiet (j : Fin 8) (s : State) : Quiet s (tpRecover j s) := by
  unfold tpRecover
  extract_lets
  split
  · exact Quiet.onSin _ s
  · split
    · split
      · exact Quiet.onSin _ s
      · exact Quiet.refl s
    · exact Quiet.refl s

theorem cycleA_quiet (s : State) : Quiet s (cycleA s) := by
  have slots : Quiet s (if s.hld.devFault || s.hld.fatal then s else windowsA (each (List.finRange 8) slotA s)) := by
    split
    · exact Quiet.refl s
    · exact (each_quiet slotA_quiet s).trans (Quiet.onAlp _ _)
  refine slots.trans ((each_quiet (fun j u => ?_) _).trans ((each_quiet tpRecover_quiet _).trans (trackOuts_quiet _)))
  split
  · split
    · exact judgeForeign_quiet ..
    · exact Quiet.refl u
  · exact Quiet.refl u

/-! ### Sessions (R298 to R306) -/

theorem sessSet_quiet (n : Fin 256) (f : Sess → Sess) (s : State) : Quiet s (sessSet n f s) := by
  refine (sessSet_retained n f s).quiet ?_
  unfold sessSet
  dsimp only
  split
  · rfl
  · exact raise_hld ..

theorem sendTele_quiet (n : Fin 256) (bs : List Byte) (s : State) : Quiet s (sendTele n bs s) := by
  refine (sendTele_retained n bs s).quiet ?_
  unfold sendTele
  dsimp only
  split
  · rfl
  · split
    · rfl
    · rfl
    · split
      · exact raise_hld ..
      · rfl
    · rfl

theorem linkLock_quiet (n : Fin 256) (f : Nat → Bool) (s : State) : Quiet s (linkLock n f s) := by
  unfold linkLock
  dsimp only
  split
  · exact ((Quiet.onCsl _ s).trans (applyRemote_quiet _)).trans (raise_fab ..).quiet
  · exact Quiet.refl s

theorem leaveRunSess_quiet (n : Fin 256) (st : SessSt) (pend : Bool) (s : State) : Quiet s (leaveRunSess n st pend s) :=
  (sessSet_quiet ..).trans (linkLock_quiet ..)

theorem sessFault_quiet (n : Fin 256) (c : Nat) (s : State) : Quiet s (sessFault n c s) := by
  have noted := (Quiet.onS n (fun x => { x with cause := BitVec.ofNat 4 c }) s).trans
    ((report_fab (locRep (BitVec.ofNat 16 (0x77 + c)) 7 n.val) _).quiet.trans (raise_fab 97 _).quiet)
  unfold sessFault
  dsimp only
  split
  · exact noted.trans (leaveRunSess_quiet ..)
  · exact noted

theorem droppedStitch_quiet (n : Fin 256) (s : State) : Quiet s (droppedStitch n s) := by
  unfold droppedStitch
  extract_lets s1 x due s2
  have counted : Quiet s s1 := Quiet.onS ..
  have raised : Quiet s s2 := ite_quiet (counted.trans ((Quiet.onCsl ..).trans (raise_fab ..).quiet)) counted
  exact ite_quiet (raised.trans (sessFault_quiet ..)) raised

theorem enterRunSess_quiet (n : Fin 256) (s : State) : Quiet s (enterRunSess n s) := sessSet_quiet ..

theorem sendOpen_quiet (ty : Nat) (n : Fin 256) (s : State) : Quiet s (sendOpen ty n s) := sendTele_quiet ..

theorem recvOpen_quiet (n : Fin 256) (ty : Nat) (inc : Half) (param : Word) (s : State) : Quiet s (recvOpen n ty inc param s) := by
  unfold recvOpen
  dsimp only
  split
  · exact Quiet.refl s
  · split
    · split
      · exact enterRunSess_quiet n s
      · exact Quiet.refl s
    · split
      · exact Quiet.refl s
      · split
        · split_ifs
          · exact sessFault_quiet ..
          · exact (Quiet.onS n _ s).trans ((enterRunSess_quiet n _).trans (sendOpen_quiet ..))
          · exact Quiet.refl s
        · split_ifs
          · exact sessFault_quiet ..
          · exact sendOpen_quiet ..
          · exact Quiet.refl s
        all_goals exact Quiet.refl s

theorem recvSess_quiet (n : Fin 256) (bs : List Byte) (s : State) : Quiet s (recvSess n bs s) := by
  unfold recvSess
  refine ite_quiet (droppedStitch_quiet n s) ?_
  extract_lets x len ty q echo pl isOpen cd pInc ctx s1 s2 e age
  have whole : Quiet s s1 := Quiet.onS ..
  have numbered : Quiet s s2 := whole.trans (Quiet.onS ..)
  refine ite_quiet (droppedStitch_quiet n s) (ite_quiet (ite_quiet (whole.trans (recvOpen_quiet ..)) whole) ?_)
  refine ite_quiet (whole.trans (Quiet.onS ..)) (ite_quiet (whole.trans (Quiet.onS ..)) ?_)
  refine ite_quiet (numbered.trans (sessFault_quiet ..)) (ite_quiet (numbered.trans (sessFault_quiet ..)) ?_)
  refine ite_quiet (numbered.trans (sessFault_quiet ..)) ?_
  split
  · exact ite_quiet (numbered.trans ((Quiet.onS ..).trans (linkLock_quiet ..))) (numbered.trans (Quiet.onS ..))
  · exact numbered.trans (Quiet.onS ..)

theorem modemsRun_quiet (s : State) : Quiet s (modemsRun s) := by
  unfold modemsRun
  split
  · exact Quiet.refl s
  · exact Quiet.onAlp _ s

/-! ## What no step of a B cycle that begins in RUN undoes -/

/-- Outside a cast-on and a CROSS, no fall-back is due and no HOLD ends, and a release event that channel B has seen stands beside a
device fault of the same cycle (R51, R53). -/
structure Settled (s : State) : Prop where
  stage : s.sys.stage = .none
  fallDue : s.sys.fallDue = false
  holding : s.sys.holding = false
  castOn : s.sys.runState ≠ .castOn
  seen : s.hld.releaseSeen = true → s.sys.devPending = true

/-- `u` is `s` in the time, the memories and the fuses, and in channel B but for its report queue. -/
structure Kept (s u : State) : Prop where
  t : u.t = s.t
  mem : u.mem = s.mem
  otp : u.otp = s.otp
  hld : u.hld = { s.hld with queue := u.hld.queue }
  settled : Settled s → Settled u
  pending : s.sys.devPending = true → u.sys.devPending = true

/-- Of channel B, the cells of every rank but the evaluators are as they were. -/
structure RanksKept (s u : State) : Prop where
  t : u.t = s.t
  mem : u.mem = s.mem
  otp : u.otp = s.otp
  rel : u.hld.rel = s.hld.rel
  win : u.hld.win = s.hld.win
  lg : u.hld.lg = s.hld.lg
  out : u.hld.out = s.hld.out
  gate : u.hld.gate = s.hld.gate
  settled : Settled s → Settled u
  pending : s.sys.devPending = true → u.sys.devPending = true

/-- The evaluators too, and the records that wait for their check. -/
structure CellsKept (s u : State) : Prop extends RanksKept s u where
  ev : u.hld.ev = s.hld.ev
  inbox : u.hld.inbox = s.hld.inbox

section
variable {s t u : State}

theorem Settled.of (h : Settled s) (sys : u.sys = s.sys) (seen : u.hld.releaseSeen = s.hld.releaseSeen) : Settled u := by
  obtain ⟨stage, fallDue, holding, castOn, release⟩ := h
  refine ⟨?_, ?_, ?_, ?_, ?_⟩
  · rw [sys]; exact stage
  · rw [sys]; exact fallDue
  · rw [sys]; exact holding
  · rw [sys]; exact castOn
  · rw [sys, seen]; exact release

theorem Kept.refl (s : State) : Kept s s := ⟨rfl, rfl, rfl, rfl, id, id⟩

theorem Kept.trans (h : Kept s t) (g : Kept t u) : Kept s u :=
  ⟨g.t.trans h.t, g.mem.trans h.mem, g.otp.trans h.otp, by rw [g.hld, h.hld], g.settled ∘ h.settled, g.pending ∘ h.pending⟩

theorem RanksKept.refl (s : State) : RanksKept s s := ⟨rfl, rfl, rfl, rfl, rfl, rfl, rfl, rfl, id, id⟩

theorem RanksKept.trans (h : RanksKept s t) (g : RanksKept t u) : RanksKept s u :=
  ⟨g.t.trans h.t, g.mem.trans h.mem, g.otp.trans h.otp, g.rel.trans h.rel, g.win.trans h.win, g.lg.trans h.lg, g.out.trans h.out,
    g.gate.trans h.gate, g.settled ∘ h.settled, g.pending ∘ h.pending⟩

theorem CellsKept.refl (s : State) : CellsKept s s := ⟨RanksKept.refl s, rfl, rfl⟩

theorem CellsKept.trans (h : CellsKept s t) (g : CellsKept t u) : CellsKept s u :=
  ⟨h.toRanksKept.trans g.toRanksKept, g.ev.trans h.ev, g.inbox.trans h.inbox⟩

theorem Quiet.kept (h : Quiet s u) : Kept s u :=
  ⟨h.t, h.mem, h.otp, by rw [h.hld], fun q => q.of h.sys (congrArg HldS.releaseSeen h.hld), fun p => by rw [h.sys]; exact p⟩

theorem Kept.cells (h : Kept s u) : CellsKept s u := by
  obtain ⟨t, mem, otp, hld, settled, pending⟩ := h
  exact ⟨⟨t, mem, otp, by rw [hld], by rw [hld], by rw [hld], by rw [hld], by rw [hld], settled, pending⟩, by rw [hld], by rw [hld]⟩

theorem each_kept {α : Type} {l : List α} {f : α → State → State} (hf : ∀ a s, Kept s (f a s)) (s : State) : Kept s (each l f s) :=
  each_keeps (P := Kept s) (fun a u h => h.trans (hf a u)) (Kept.refl s)

theorem each_ranksKept {α : Type} {l : List α} {f : α → State → State} (hf : ∀ a s, RanksKept s (f a s)) (s : State) :
    RanksKept s (each l f s) :=
  each_keeps (P := RanksKept s) (fun a u h => h.trans (hf a u)) (RanksKept.refl s)

theorem each_cellsKept {α : Type} {l : List α} {f : α → State → State} (hf : ∀ a s, CellsKept s (f a s)) (s : State) :
    CellsKept s (each l f s) :=
  each_keeps (P := CellsKept s) (fun a u h => h.trans (hf a u)) (CellsKept.refl s)

end

/-! ## Entries to LOCKOUT and HALT (R29, R47) -/

theorem haltEntry_sys {s : State} (h : s.sys.runState ≠ .halt) (code : Half) : (haltEntry code s).sys =
    { (dropCommands s).sys with
      stopCode := code, lineA := true, resetWait := false, lastStage := BitVec.ofNat 4 s.sys.stage.code, runState := .halt } := by
  simp only [haltEntry, haltState, beq_iff_eq, h, if_false]
  rw [(archiveLog_fab _).sys, (setRun_allOff ..).1, (drainB_sameCore _).sys]
  rfl

theorem haltEntry_kept (code : Half) (s : State) : Kept s (haltEntry code s) := by
  by_cases h : s.sys.runState = .halt
  · have same : haltEntry code s = s := if_pos (beq_iff_eq.mpr h)
    rw [same]
    exact Kept.refl s
  · have aside := haltEntry_aside h code
    obtain ⟨-, mem, otp⟩ := haltEntry_halted code h
    have sys := haltEntry_sys h code
    refine ⟨aside.t, mem, otp, by rw [aside.hld]; rfl, fun ⟨stage, fallDue, holding, castOn, seen⟩ => ?_,
      fun p => by rw [sys]; exact p⟩
    refine ⟨?_, ?_, ?_, ?_, ?_⟩
    · rw [sys]; exact stage
    · rw [sys]; exact fallDue
    · rw [sys]; rfl
    · rw [sys]; exact RunState.noConfusion
    · rw [sys, aside.hld]; exact seen

/-- In LOCKOUT a device fault changes nothing of channel B. -/
theorem lockoutEntry_kept_lockout {s : State} (h : s.sys.runState = .lockout) (code : Half) : Kept s (lockoutEntry code s) := by
  rw [lockoutEntry_lockout h]
  generalize hv : State.onSys _ (dropCommands s) = v
  have sys : v.sys = { (dropCommands s).sys with lineA := true, stage := .none, devPending := true } := by subst hv; rfl
  have rest : v.t = s.t ∧ v.mem = s.mem ∧ v.otp = s.otp ∧ v.hld = s.hld := by subst hv; exact ⟨rfl, rfl, rfl, rfl⟩
  obtain ⟨t, mem, otp, hld⟩ := rest
  have off := demandsOff_aside v
  have sys' : (demandsOff v).sys = v.sys := rfl
  rw [sys] at sys'
  refine ⟨off.t.trans t, mem, otp, by rw [off.hld, hld], fun ⟨stage, fallDue, holding, castOn, seen⟩ => ?_, fun _ => by rw [sys']⟩
  refine ⟨?_, ?_, ?_, ?_, ?_⟩ <;> rw [sys']
  · exact fallDue
  · rfl
  · exact castOn
  · exact fun _ => rfl

theorem lockoutEntry_kept (code : Half) (s : State) : Kept s (lockoutEntry code s) := by
  by_cases live : s.live
  · obtain ⟨-, aside, mem, otp⟩ := lockoutEntry_lockedOut live code
    have sys := lockoutEntry_sys live code
    refine ⟨aside.t, mem, otp, by rw [aside.hld], fun ⟨stage, fallDue, holding, castOn, seen⟩ => ?_, fun _ => by rw [sys]; rfl⟩
    refine ⟨?_, ?_, ?_, ?_, ?_⟩ <;> rw [sys]
    · rfl
    · simp only [lockoutRecord, dropCommands, State.onSys, fallDue, holding, Bool.false_and, Bool.or_false]
    · rfl
    · exact RunState.noConfusion
    · exact fun _ => rfl
  · cases h : s.sys.runState with
    | castOn =>
      simp only [lockoutEntry, h]
      split
      · exact (stageReport_fab ..).quiet.kept.trans (haltEntry_kept ..)
      · exact ⟨rfl, rfl, rfl, rfl, fun q => absurd h q.castOn, fun _ => rfl⟩
    | lockout => exact lockoutEntry_kept_lockout h code
    | safeHold => exact absurd (.inl h) live
    | run => exact absurd (.inr (.inl h)) live
    | service => exact absurd (.inr (.inr h)) live
    | halt | dormant =>
      have same : lockoutEntry code s = s := by simp only [lockoutEntry, h]
      rw [same]
      exact Kept.refl s

theorem devFault_kept (r : Rep) (s : State) : Kept s (devFault r s) := (report_fab r s).quiet.kept.trans (lockoutEntry_kept ..)

/-! ## Faults and records of channel B (R164, R167 to R171) -/

theorem Settled.devPending {s : State} (h : Settled s) : Settled (s.onSys fun x => { x with devPending := true }) :=
  ⟨h.stage, h.fallDue, h.holding, h.castOn, fun _ => rfl⟩

theorem bReport_cells (code : Byte) (cell : Nat) (s : State) : CellsKept s (bReport code cell s) := by
  have hld := bReport_hld code cell s
  exact ⟨⟨rfl, rfl, rfl, by rw [hld], by rw [hld], by rw [hld], by rw [hld], by rw [hld], fun q => q.of rfl (by rw [hld]), id⟩,
    by rw [hld], by rw [hld]⟩

/-- A change of channel B beside its cells. -/
theorem CellsKept.onMon (c : Fin 4) (f : Monitor → Monitor) (s : State) : CellsKept s (onMon c f s) :=
  ⟨⟨rfl, rfl, rfl, rfl, rfl, rfl, rfl, rfl, fun q => q.of rfl rfl, id⟩, rfl, rfl⟩

theorem bDevice_spec (code : Byte) (cell : Nat) (s : State) :
    CellsKept s (bDevice code cell s) ∧ (bDevice code cell s).sys.devPending = true := by
  have reported : CellsKept s ((bReport code cell s).onSys fun x => { x with devPending := true }) :=
    (bReport_cells code cell s).trans
      ⟨⟨rfl, rfl, rfl, rfl, rfl, rfl, rfl, rfl, Settled.devPending, fun _ => rfl⟩, rfl, rfl⟩
  unfold bDevice
  generalize hv : State.onSys _ (bReport code cell s) = v at reported ⊢
  have pending : v.sys.devPending = true := by subst hv; rfl
  dsimp only
  split
  · exact ⟨reported, pending⟩
  · generalize hw : State.onHld _ v = w
    have latched : CellsKept v w := by
      subst hw
      exact ⟨⟨rfl, rfl, rfl, rfl, rfl, rfl, rfl, rfl,
        fun ⟨stage, fallDue, holding, castOn, _⟩ => ⟨stage, fallDue, holding, castOn, fun h => absurd h Bool.false_ne_true⟩, id⟩,
        rfl, rfl⟩
    have entered := lockoutEntry_kept (code.zeroExtend 16) w
    exact ⟨(reported.trans latched).trans entered.cells, entered.pending (latched.pending pending)⟩

theorem bDevice_cells (code : Byte) (cell : Nat) (s : State) : CellsKept s (bDevice code cell s) := (bDevice_spec code cell s).1

theorem bFatal_cells (code : Byte) (s : State) : CellsKept s (bFatal code s) := by
  unfold bFatal
  split
  · exact bReport_cells code 0 s
  · generalize hv : State.onHld _ (bReport code 0 s) = v
    have latched : CellsKept (bReport code 0 s) v := by
      subst hv
      exact ⟨⟨rfl, rfl, rfl, rfl, rfl, rfl, rfl, rfl, fun q => q.of rfl rfl, id⟩, rfl, rfl⟩
    exact ((bReport_cells code 0 s).trans latched).trans (haltEntry_kept ..).cells

/-- Fault line decoding, where no device fault is latched: a release event is seen only beside the fault that the line brings. -/
theorem lineB_cells (code : LineCode) {s : State} (dev : s.hld.devFault = false) : CellsKept s (lineB code s) := by
  unfold lineB
  extract_lets s1 s2 w3 c
  have read : CellsKept s s1 := ⟨⟨rfl, rfl, rfl, rfl, rfl, rfl, rfl, rfl, fun q => q.of rfl rfl, id⟩, rfl, rfl⟩
  have judged : CellsKept s s2 ∧ (s2.hld.devFault = true → s2.sys.devPending = true) := by
    by_cases asserted : (code == .asserted && !s1.hld.devFault && !s1.hld.fatal) = true
    · have eq : s2 = bDevice 0x0B 0 s1 := if_pos asserted
      obtain ⟨cells, pending⟩ := bDevice_spec 0x0B 0 s1
      rw [eq]
      exact ⟨read.trans cells, fun _ => pending⟩
    · have eq : s2 = s1 := if_neg asserted
      rw [eq]
      exact ⟨read, fun h => absurd (dev.symm.trans h) Bool.false_ne_true⟩
  obtain ⟨cells, pending⟩ := judged
  split
  case isTrue seen =>
    simp only [Bool.and_eq_true] at seen
    exact cells.trans ⟨⟨rfl, rfl, rfl, rfl, rfl, rfl, rfl, rfl,
      fun ⟨stage, fallDue, holding, castOn, _⟩ => ⟨stage, fallDue, holding, castOn, fun _ => pending seen.1.2⟩, id⟩, rfl, rfl⟩
  case isFalse => exact cells

theorem recordMissing_cells (c : Fin 4) (s : State) : CellsKept s (recordMissing c s) := by
  unfold recordMissing
  dsimp only
  split
  · exact (CellsKept.onMon c _ s).trans (bDevice_cells ..)
  · exact CellsKept.refl s

theorem tbLost_cells (s : State) : CellsKept s (tbLost s) := by
  unfold tbLost
  split
  · refine CellsKept.trans ?_ (bDevice_cells ..)
    exact ⟨⟨rfl, rfl, rfl, rfl, rfl, rfl, rfl, rfl, fun q => q.of rfl rfl, id⟩, rfl, rfl⟩
  · exact CellsKept.refl s

/-! ### Check 8 settles guard times, which locks evaluators (R170) -/

theorem disSet_ranks (c : Fin 4) (i : Nat) (v : Option Nat) (s : State) : RanksKept s (disSet c i v s) := by
  have hld := (disSet_judged c i v s).hld
  exact ⟨rfl, rfl, rfl, by rw [hld], by rw [hld], by rw [hld], by rw [hld], by rw [hld], fun q => q.of rfl (by rw [hld]), id⟩

theorem guardSettle_ranks (e : Fin 64) (s : State) : RanksKept s (guardSettle e s) := by
  have locked : RanksKept s (s.onHld fun h => { h with ev := h.ev.upd e EvCell.setLock }) :=
    ⟨rfl, rfl, rfl, rfl, rfl, rfl, rfl, rfl, fun q => q.of rfl rfl, id⟩
  refine (locked.trans (bReport_cells ..).toRanksKept).trans (each_ranksKept (fun i u => ?_) _)
  split
  · exact disSet_ranks ..
  · exact RanksKept.refl u

theorem agreeItem_ranks (c : Fin 4) (i : Nat) (a b : Bool) (m : Int) (s : State) : RanksKept s (agreeItem c i a b m s) := by
  unfold agreeItem
  extract_lets per
  split
  · exact RanksKept.refl s
  · split
    · exact disSet_ranks ..
    · split
      · exact guardSettle_ranks ..
      · split
        · exact disSet_ranks ..
        · split
          · exact (bDevice_cells ..).toRanksKept
          · exact RanksKept.refl s

theorem noteAgreed_ranks (clean : Bool) (c : Fin 4) (s : State) : RanksKept s (noteAgreed clean c s) := by
  have sys := noteAgreed_sys clean c s
  refine ⟨rfl, rfl, rfl, rfl, rfl, rfl, rfl, rfl, fun ⟨stage, fallDue, holding, castOn, seen⟩ => ?_, fun p => by rw [sys]; exact p⟩
  refine ⟨?_, ?_, ?_, ?_, ?_⟩ <;> rw [sys] <;> assumption

theorem ite_ranksKept {s t u : State} {p : Prop} [Decidable p] (h : RanksKept s t) (g : RanksKept s u) :
    RanksKept s (if p then t else u) := by
  split <;> assumption

theorem recChecks_ranks (c : Fin 4) (w : List Word) (at_ : Nat) (s : State) : RanksKept s (recChecks c w at_ s) := by
  have device (code : Byte) : RanksKept s (bDevice code c.val s) := (bDevice_cells ..).toRanksKept
  unfold recChecks
  extract_lets h w2 t seq own ownP mon per
  split
  · exact RanksKept.refl s
  · refine ite_ranksKept (device _) (ite_ranksKept (device _) (ite_ranksKept (device _) (ite_ranksKept (device _)
      (ite_ranksKept (device _) (ite_ranksKept (device _) ?_)))))
    have reference :=
      (CellsKept.onMon c (fun x => { x with ref := true, seq := seq, time := t, since := at_, armed := true }) s).toRanksKept
    refine ite_ranksKept reference ?_
    exact (reference.trans (each_ranksKept (fun i u => agreeItem_ranks ..) _)).trans (noteAgreed_ranks ..)

theorem latchRecord_ranks (w : List Word) (s : State) : RanksKept s (latchRecord w s) := by
  unfold latchRecord
  refine ite_ranksKept (RanksKept.refl s) (ite_ranksKept ?_ ?_)
  · simp only [State.onHld]
    split
    · exact ⟨rfl, rfl, rfl, rfl, rfl, rfl, rfl, rfl, fun q => q.of rfl rfl, id⟩
    · exact RanksKept.refl s
  · unfold checkRecord
    dsimp only
    exact ite_ranksKept (recChecks_ranks ..) ((CellsKept.onMon _ _ s).trans (bReport_cells ..)).toRanksKept

/-! ## Clock 0 (R146, R201) -/

/-- The limiters and junction sensors, and the off-pulses that begin, leave what clock 0 latches. -/
def clockZero (b : BInputs) (s : State) : State := sensorsA b.limit b.hot (opensA s)

theorem clockZero_quiet (b : BInputs) (s : State) : Quiet s (clockZero b s) := ⟨rfl, rfl, rfl, rfl, rfl⟩

theorem clockZero_rb (b : BInputs) (s : State) (k : Nat) : ((clockZero b s).sout.o.getN k {}).rb = (s.sout.o.getN k {}).rb := by
  by_cases hk : k < 16
  · rw [show k = (⟨k, hk⟩ : Fin 16).val from rfl, Tab.getN_lt, Tab.getN_lt]
    simp [clockZero, sensorsA, opensA, State.onSout]
  · simp [Tab.getN, Nat.le_of_not_lt hk]

theorem latchB_clockZero (b : BInputs) (s : State) : latchB (clockZero b s) = latchB s := by
  have rb : (fun k => ((clockZero b s).sout.o.getN k {}).rb) = fun k => (s.sout.o.getN k {}).rb := funext (clockZero_rb b s)
  simp only [latchB, rb]
  rfl

theorem comparators_clockZero (b : BInputs) (s : State) : comparators (clockZero b s) = comparators s := rfl

/-! ## The cells of a cycle (R146 to R160) -/

/-- Rank 4: each logic cell by the cells before it. -/
def logicB (l : List (Fin 128)) (h : HldS) : HldS := l.foldl (fun h l => { h with lg := h.lg.upd l fun c => c.tick h }) h

theorem logicB_eq (l : List (Fin 128)) (h : HldS) : logicB l h = { h with lg := (logicB l h).lg } := by
  induction l generalizing h with
  | nil => rfl
  | cons i l ih => exact (ih _).trans rfl

/-- Release events, evaluators and windows, which come before the logic cells. -/
def signalsB (cyc : Nat) (comp : Half) (h : HldS) : HldS :=
  let h1 := { h with rel := Tab.map Prod.fst (Tab.gen 8 fun r => (h.rel[r]).tick cyc (bit h.lvls (h.rel[r]).input.val)) }
  let h2 := { h1 with ev := Tab.map Prod.fst (Tab.gen 64 fun e => (h1.ev[e]).tick h1 cyc) }
  { h2 with win := Tab.gen 16 fun w => (h2.win[w]).tick cyc (bit comp w.val) }

section
variable (cyc : Nat) (comp : Half) (h : HldS)

theorem cellsB_logic : (cellsB cyc comp h).1 = logicB (List.finRange 128) (signalsB cyc comp h) := by
  dsimp only [cellsB, logicB, signalsB]

theorem cellsB_rest : (cellsB cyc comp h).1 =
    { h with
      rel := (cellsB cyc comp h).1.rel, ev := (cellsB cyc comp h).1.ev, win := (cellsB cyc comp h).1.win
      lg := (cellsB cyc comp h).1.lg } := by
  rw [cellsB_logic, logicB_eq]
  rfl

theorem cellsB_rel (r : Fin 8) : (cellsB cyc comp h).1.rel[r] = ((h.rel[r]).tick cyc (bit h.lvls (h.rel[r]).input.val)).1 := by
  rw [cellsB_logic, logicB_eq]
  simp [signalsB]

theorem cellsB_win (w : Fin 16) : (cellsB cyc comp h).1.win[w] = (h.win[w]).tick cyc (bit comp w.val) := by
  rw [cellsB_logic, logicB_eq]
  simp [signalsB]

theorem outsB_out (k : Fin 16) : (outsB h).1.out[k] = ((h.out[k]).tick h k).1 := by
  simp [outsB]

theorem outsB_gate (g : Fin 4) : (outsB h).1.gate[g] =
    { h.gate[g] with e := (h.gate[g]).valid && signal h (fld (h.gate[g]).w1 8 0) } := by
  simp [outsB]

end

/-! ## The next clock 0 (R146, R156, R160, R162) -/

/-- Channel B at the clock 0 of cycle `cyc`. -/
def HldS.clocked (cyc : Nat) (h : HldS) : HldS :=
  { h with
    h := holdB h
    out := h.out.map fun c => { c with closed := c.wantB (holdB h) }
    gate := h.gate.map fun g => { g with tx := g.valid && g.e && !holdB h }
    history := consCap 16384 (histEntry h) h.history, histCyc := cyc }

theorem applyB_quiet (s : State) : Quiet (s.onHld (HldS.clocked (s.t.cyc + 1))) (applyB s) := by
  unfold applyB
  extract_lets hold lifts s1
  split
  · exact (Quiet.onSout _ _).trans (energise_quiet _)
  · exact Quiet.refl s1

section
variable (cyc : Nat) (h : HldS)

theorem clocked_out (k : Fin 16) : (h.clocked cyc).out[k] = { h.out[k] with closed := (h.out[k]).wantB (holdB h) } := by
  simp [HldS.clocked]

theorem clocked_gate (g : Fin 4) : (h.clocked cyc).gate[g] =
    { h.gate[g] with tx := (h.gate[g]).valid && (h.gate[g]).e && !holdB h } := by
  simp [HldS.clocked]

end

/-! ## The cycle (R146, Table 6-1) -/

/-- The cells after ranks 1 to 4, and after ranks 5 and 6. -/
def ranked (s : State) : HldS := (cellsB s.t.cyc (comparators s) (latchB s)).1

/-- The state whose outputs and gates are evaluated, before its reports. -/
def evaluated (s : State) : State := { s with hld := (outsB (ranked s)).1 }

theorem evaluated_flags (s : State) : (evaluated s).hld.devFault = s.hld.devFault ∧ (evaluated s).hld.releaseSeen = s.hld.releaseSeen ∧
    (evaluated s).hld.inbox = s.hld.inbox := by
  have rest := cellsB_rest s.t.cyc (comparators s) (latchB s)
  refine ⟨?_, ?_, ?_⟩ <;> unfold evaluated <;> dsimp only [outsB] <;> unfold ranked <;> rw [rest] <;> rfl

theorem bReports_kept (l : List (Byte × Nat)) (s : State) :
    CellsKept s (each l (fun q : Byte × Nat => bReport q.1 q.2) s) ∧
      (each l (fun q : Byte × Nat => bReport q.1 q.2) s).hld.devFault = s.hld.devFault :=
  ⟨each_cellsKept (fun (q : Byte × Nat) u => bReport_cells q.1 q.2 u) s,
    each_keeps (P := fun u => u.hld.devFault = s.hld.devFault) (fun (q : Byte × Nat) u h => by rw [bReport_hld]; exact h) rfl⟩

/-- The reports of the cells, then the fault line and its parity. -/
def judgedLine (b : BInputs) (s : State) : State :=
  let reported := each ((cellsB s.t.cyc (comparators s) (latchB s)).2 ++ (outsB (ranked s)).2) (fun q => bReport q.1 q.2) (evaluated s)
  let read := lineB (match b.lineA with | some n => wireCode n | none => drivenCode s) reported
  if b.parity then bFatal 0x11 read else read

/-- The records of the cycle, then the limits. -/
def judgedRecords (s : State) : State :=
  tbLost (each (List.finRange 4) recordMissing (each s.hld.inbox latchRecord (s.onHld fun h => { h with inbox := [] })))

theorem evalB_eq (b : BInputs) (s : State) : evalB b s = applyB (judgedRecords (judgedLine b s)) := by
  unfold evalB judgedRecords judgedLine evaluated ranked
  cases b.lineA <;> dsimp only

theorem judgedLine_cells (b : BInputs) {s : State} (dev : s.hld.devFault = false) : CellsKept (evaluated s) (judgedLine b s) := by
  unfold judgedLine
  extract_lets reported read
  obtain ⟨reports, rdev⟩ := bReports_kept ((cellsB s.t.cyc (comparators s) (latchB s)).2 ++ (outsB (ranked s)).2) (evaluated s)
  have line : CellsKept (evaluated s) read := reports.trans (lineB_cells _ (rdev.trans ((evaluated_flags s).1.trans dev)))
  split
  · exact line.trans (bFatal_cells ..)
  · exact line

/-- The records and the limits leave the cells, and the evaluators where there is no record. -/
theorem judgedRecords_ranks (s : State) : RanksKept s (judgedRecords s) ∧ (s.hld.inbox = [] → (judgedRecords s).hld.ev = s.hld.ev) := by
  have emptied : RanksKept s (s.onHld fun h => { h with inbox := [] }) :=
    ⟨rfl, rfl, rfl, rfl, rfl, rfl, rfl, rfl, fun q => q.of rfl rfl, id⟩
  have limits (u : State) : CellsKept u (tbLost (each (List.finRange 4) recordMissing u)) :=
    (each_cellsKept recordMissing_cells u).trans (tbLost_cells _)
  refine ⟨(emptied.trans (each_ranksKept latchRecord_ranks _)).trans (limits _).toRanksKept, fun none => ?_⟩
  rw [judgedRecords, (limits _).ev, none]
  rfl

/-- Between the cells and the next clock 0 stand the reports, the fault line, the records and the limits. -/
theorem evalB_spec (b : BInputs) {s : State} (dev : s.hld.devFault = false) : ∃ v, evalB b s = applyB v ∧ RanksKept (evaluated s) v ∧
    (s.hld.inbox = [] → v.hld.ev = (evaluated s).hld.ev) := by
  have line := judgedLine_cells b dev
  obtain ⟨ranks, ev⟩ := judgedRecords_ranks (judgedLine b s)
  refine ⟨_, evalB_eq b s, line.toRanksKept.trans ranks, fun none => (ev ?_).trans line.ev⟩
  rw [line.inbox, (evaluated_flags s).2.2, none]

/-! ## A cycle that begins in RUN -/

theorem recvUnit_kept (t : Fin 3) (addr : Sess → Bool) (form : Bool) (bs : List Byte) (agree : Bool) (s : State) :
    Kept s (recvUnit t addr form bs agree s) := by
  unfold recvUnit checked
  dsimp only
  split
  · exact Kept.refl s
  · split
    · split
      · split
        · exact (recvSess_quiet ..).kept
        · exact (droppedStitch_quiet ..).kept
      · exact (Quiet.onCsl _ s).kept
    · exact devFault_kept ..

theorem hlDrain_kept (agree : Bool) (s : State) : Kept s (hlDrain agree s) := by
  unfold hlDrain
  extract_lets s1
  have received : Kept s s1 := (Quiet.onCsl _ s).kept.trans (each_kept (fun bs u => recvUnit_kept ..) _)
  split
  · exact Kept.refl s
  · split
    · exact received
    · exact received.trans (raise_fab ..).quiet.kept

/-- What channel A and the sessions do in a cycle, beside CROSS. -/
theorem afterB_kept (b : BInputs) {s : State} (settled : Settled s) :
    Kept s (modemsRun (hlDrain b.cslAgree (crossCheck (cycleA s)))) := by
  have cycled := (cycleA_quiet s).kept
  rw [crossCheck_idle (by rw [(cycled.settled settled).stage]; decide)]
  exact cycled.trans ((hlDrain_kept ..).trans (modemsRun_quiet _).kept)

/-- The state at the beginning of a cycle. -/
def cycleBegun (b : BInputs) (s : State) : State :=
  { s with
    t := { s.t with cyc := s.t.cyc + 1, tbA := if s.t.runA then s.t.tbA + b.ticks.zeroExtend 64 else s.t.tbA }
    sys := { s.sys with devPending := false } }

/-- A device fault of the cycle passes over a release event (R53). -/
def cycleEnd (s : State) : State := if s.sys.devPending then s.onHld fun h => { h with releaseSeen := false } else s

/-- The cycle up to a device release. -/
def cycleRun (b : BInputs) (s : State) : State :=
  modemsRun (hlDrain b.cslAgree (crossCheck (cycleA (evalB b (clockZero b (cycleBegun b s))))))

theorem bCycle_eq (b : BInputs) {s : State} (good : s.pwr.good = true) (hldGood : s.pwr.hldBad = false) (load : s.hld.loadMode = false)
    (awake : s.sys.runState ≠ .dormant) (settled : Settled (cycleRun b s)) : bCycle b s = cycleEnd (cycleRun b s) := by
  have awake' : (s.sys.runState == .dormant) = false := beq_eq_false_iff_ne.mpr awake
  have run : bCycle b s = if (cycleRun b s).sys.devPending then (cycleRun b s).onHld fun h => { h with releaseSeen := false }
      else if (cycleRun b s).sys.runState == .lockout && (cycleRun b s).hld.releaseSeen && !(cycleRun b s).sys.reeval then
        reevaluate false b.reeval (cycleRun b s)
      else cycleRun b s := by
    simp only [bCycle, good, hldGood, load, awake', Bool.not_true, Bool.or_self, Bool.false_eq_true, if_false]
    rfl
  rw [run, cycleEnd]
  cases pending : (cycleRun b s).sys.devPending
  · have unseen : (cycleRun b s).hld.releaseSeen = false :=
      Bool.eq_false_iff.mpr fun seen => Bool.false_ne_true (pending.symm.trans (settled.seen seen))
    simp only [unseen, Bool.and_false, Bool.false_and, Bool.false_eq_true, if_false]
  · rfl

theorem bCycle_dormant (b : BInputs) {s : State} (h : s.sys.runState = .dormant) : bCycle b s = cycleBegun b s := by
  have asleep : (s.sys.runState == .dormant) = true := beq_iff_eq.mpr h
  simp only [bCycle, asleep, Bool.or_true, Bool.true_or, if_true]
  rfl

/-- What a B cycle from RUN makes of channel B: the cells as evaluated, at the next clock 0. -/
theorem bCycle_spec (b : BInputs) {s : State} (good : s.pwr.good = true) (hldGood : s.pwr.hldBad = false) (load : s.hld.loadMode = false)
    (run : s.sys.runState = .run) (stage : s.sys.stage = .none) (dev : s.hld.devFault = false) (unseen : s.hld.releaseSeen = false)
    (notDue : s.sys.fallDue = false) (noHold : s.sys.holding = false) :
    ∃ v, RanksKept (evaluated (clockZero b (cycleBegun b s))) v ∧
      (s.hld.inbox = [] → v.hld.ev = (evaluated (clockZero b (cycleBegun b s))).hld.ev) ∧
      (bCycle b s).hld = { v.hld.clocked (v.t.cyc + 1) with
        queue := (bCycle b s).hld.queue, releaseSeen := (bCycle b s).hld.releaseSeen } ∧
      (bCycle b s).t = v.t ∧ (bCycle b s).mem = v.mem ∧ (bCycle b s).otp = v.otp ∧ (bCycle b s).sys.fallDue = false := by
  have zero := clockZero_quiet b (cycleBegun b s)
  have dev0 : (clockZero b (cycleBegun b s)).hld.devFault = false := by rw [zero.hld]; exact dev
  obtain ⟨v, eq, ranks, ev⟩ := evalB_spec b dev0
  have begun : Settled (cycleBegun b s) :=
    ⟨stage, notDue, noHold, fun h => RunState.noConfusion (run.symm.trans h), fun h => absurd (unseen.symm.trans h) Bool.false_ne_true⟩
  have evaled : Settled (evaluated (clockZero b (cycleBegun b s))) :=
    (zero.kept.settled begun).of rfl (evaluated_flags _).2.1
  have applied : Kept (v.onHld (HldS.clocked (v.t.cyc + 1))) (applyB v) := (applyB_quiet v).kept
  have settledA : Settled (applyB v) := applied.settled ((ranks.settled evaled).of rfl rfl)
  have rest := afterB_kept b settledA
  have kept : Kept (v.onHld (HldS.clocked (v.t.cyc + 1))) (cycleRun b s) := by
    rw [cycleRun, eq]
    exact applied.trans rest
  have settled : Settled (cycleRun b s) := by
    rw [cycleRun, eq]
    exact rest.settled settledA
  have cycle := bCycle_eq b good hldGood load (by rw [run]; exact RunState.noConfusion) settled
  have ended (w : State) : (cycleEnd w).hld = { w.hld with releaseSeen := (cycleEnd w).hld.releaseSeen } ∧ (cycleEnd w).t = w.t ∧
      (cycleEnd w).mem = w.mem ∧ (cycleEnd w).otp = w.otp ∧ (cycleEnd w).sys = w.sys := by
    unfold cycleEnd
    split <;> exact ⟨rfl, rfl, rfl, rfl, rfl⟩
  obtain ⟨hld, t, mem, otp, sys⟩ := ended (cycleRun b s)
  rw [cycle]
  refine ⟨v, ranks, fun none => ev (by rw [zero.hld]; exact none), ?_, t.trans kept.t, mem.trans kept.mem, otp.trans kept.otp, ?_⟩
  · rw [hld, kept.hld]
    rfl
  · rw [sys]; exact settled.fallDue

/-- The cells of the cycle that begins in `s`, ranks 1 to 4. -/
def cycleCells (s : State) : HldS := (cellsB (s.t.cyc + 1) (comparators s) (latchB s)).1

theorem cycleCells_rest (s : State) : (cycleCells s).out = s.hld.out ∧ (cycleCells s).gate = s.hld.gate := by
  unfold cycleCells
  rw [cellsB_rest]
  exact ⟨rfl, rfl⟩

section
variable (b : BInputs) (s : State)

theorem ranked_cycle : ranked (clockZero b (cycleBegun b s)) = cycleCells s := by
  rw [ranked, latchB_clockZero, comparators_clockZero, (clockZero_quiet b _).t]
  rfl

theorem evaluated_cycle : (evaluated (clockZero b (cycleBegun b s))).hld = (outsB (cycleCells s)).1 := by
  rw [evaluated, ranked_cycle]

theorem evaluated_cells : let h := (evaluated (clockZero b (cycleBegun b s))).hld
    h.rel = (cycleCells s).rel ∧ h.win = (cycleCells s).win ∧ h.lg = (cycleCells s).lg ∧ h.ev = (cycleCells s).ev := by
  rw [evaluated_cycle]
  exact ⟨rfl, rfl, rfl, rfl⟩

theorem evaluated_out (k : Fin 16) : (evaluated (clockZero b (cycleBegun b s))).hld.out[k] = ((s.hld.out[k]).tick (cycleCells s) k).1 := by
  rw [evaluated_cycle, outsB_out, (cycleCells_rest s).1]

theorem evaluated_gate (g : Fin 4) : (evaluated (clockZero b (cycleBegun b s))).hld.gate[g] =
    { s.hld.gate[g] with e := (s.hld.gate[g]).valid && signal (cycleCells s) (fld (s.hld.gate[g]).w1 8 0) } := by
  rw [evaluated_cycle, outsB_gate, (cycleCells_rest s).2]

end

/-- Switch B of an output that is commanded so is closed only by a valid cell with D set that nothing holds off. -/
theorem OutCell.closed_of {c o : OutCell} {hold : Bool} (h : o = { c with closed := c.wantB hold }) (closed : o.closed = true) :
    o.valid = true ∧ o.d = true ∧ o.l = false ∧ o.p = 0 ∧ hold = false := by
  subst h
  simp only [OutCell.wantB, Bool.and_eq_true, Bool.not_eq_true', beq_iff_eq] at closed ⊢
  obtain ⟨⟨⟨⟨valid, d⟩, l⟩, free⟩, p⟩ := closed
  exact ⟨valid, d, l, p, free⟩

/-- A gate's E, and its port with it. -/
theorem GateCell.tx_of {g o : GateCell} {x hold : Bool} (h : o = { g with e := g.valid && x, tx := g.valid && (g.valid && x) && !hold }) :
    o.e = (g.valid && x) ∧ o.tx = (o.e && !hold) := by
  subst h
  exact ⟨rfl, by cases valid : g.valid <;> simp⟩

theorem fallBack_idle {s : State} (h : s.sys.fallDue = false) : fallBack s = s := by
  simp only [fallBack, h, Bool.false_and, Bool.false_eq_true, if_false]

theorem fallBack_dormant {s : State} (h : s.sys.runState = .dormant) : fallBack s = s := by
  unfold fallBack
  rw [h]
  exact if_neg (by simp)

/-- Settles O23: the cells as `cellsB` and `outsB` evaluate them from clock 0, no other step of the cycle touching them, and the next
clock 0, which closes the switches and sets the hold. -/
theorem bCycleObligation : Obligations.BCycle := by
  unfold Obligations.BCycle
  refine fun b s => ⟨fun good hldGood load run stage dev unseen notDue noHold => ?_, fun asleep => ?_⟩
  · obtain ⟨v, ranks, ev, hld, t, mem, otp, still⟩ := bCycle_spec b good hldGood load run stage dev unseen notDue noHold
    have fab := noting_fab (bCycle b) s
    have idle : fallBack (noting (bCycle b) s) = noting (bCycle b) s := fallBack_idle (by rw [fab.sys]; exact still)
    have zero := clockZero_quiet b (cycleBegun b s)
    have time : v.t = (cycleBegun b s).t := ranks.t.trans zero.t
    have out (k : Fin 16) : (v.hld.clocked (v.t.cyc + 1)).out[k] =
        { ((s.hld.out[k]).tick (cycleCells s) k).1 with closed := ((s.hld.out[k]).tick (cycleCells s) k).1.wantB (holdB v.hld) } := by
      rw [clocked_out, ranks.out, evaluated_out]
    have gate (g : Fin 4) : (v.hld.clocked (v.t.cyc + 1)).gate[g] =
        let e := (s.hld.gate[g]).valid && signal (cycleCells s) (fld (s.hld.gate[g]).w1 8 0)
        { s.hld.gate[g] with e := e, tx := (s.hld.gate[g]).valid && e && !holdB v.hld } := by
      rw [clocked_gate, ranks.gate, evaluated_gate]
    refine ⟨noting (bCycle b) s, congrArg Host.Outcome.next idle, ?_⟩
    rw [fab.t, fab.mem, fab.otp, fab.hld, hld, t, mem, otp, time]
    obtain ⟨rel, win, lg, evs⟩ := evaluated_cells b s
    exact ⟨rfl, rfl, rfl, fun k closed => OutCell.closed_of (out k) closed,
      ⟨ranks.rel.trans rel, ranks.win.trans win, ranks.lg.trans lg, fun none => (ev none).trans evs, fun r => cellsB_rel ..,
        fun w => cellsB_win .., out, fun g => GateCell.tx_of (gate g)⟩,
      cellRules_hold .., ranks.mem.trans zero.mem, ranks.otp.trans zero.otp⟩
  · have fab := noting_fab (bCycle b) s
    rw [bCycle_dormant b asleep] at fab
    have idle : fallBack (noting (bCycle b) s) = noting (bCycle b) s := fallBack_dormant (by rw [fab.sys]; exact asleep)
    refine ⟨noting (bCycle b) s, congrArg Host.Outcome.next idle, ?_, fab.hld, fab.sin, fab.sout, fab.mem⟩
    rw [fab.t]
    rfl

end Sys2Proof.Machine
end
